-- ==== Sys2Proof/Word.lean ====
section
/-! DEFINITION. The plainest words and number helpers of the Dexora block model (conventions of spec/00_scope.md). -/

set_option linter.unusedVariables false

namespace Sys2Proof

/-- A byte of a descriptor, record or frame (R11). -/
abbrev Byte := BitVec 8
/-- A register word: every register is 32 bits wide (R530). -/
abbrev Word := BitVec 32
/-- A whole-nanosecond Hall Time value (R33, R42). HT never wraps, so it is a plain count. -/
abbrev HT := Nat

/-- A sparse table: the listed entries in rising index order; an index that is not listed holds the
table's default. -/
abbrev Tbl (α : Type) := List (Nat × α)

/-- The entry at index `k`, or the default `d`. -/
def Tbl.get {α : Type} (t : Tbl α) (d : α) (k : Nat) : α :=
  match t with
  | [] => d
  | (j, v) :: r => if j = k then v else Tbl.get r d k

/-- Remove the entry at index `k`. -/
def Tbl.erase {α : Type} (t : Tbl α) (k : Nat) : Tbl α :=
  match t with
  | [] => []
  | (j, v) :: r => if j = k then Tbl.erase r k else (j, v) :: Tbl.erase r k

/-- Put an entry at its place in rising index order. -/
def Tbl.insert {α : Type} (t : Tbl α) (k : Nat) (v : α) : Tbl α :=
  match t with
  | [] => [(k, v)]
  | (j, w) :: r => if k < j then (k, v) :: (j, w) :: r else (j, w) :: Tbl.insert r k v

/-- Write `v` at index `k`. An entry equal to the default is not listed, so equal tables are equal data. -/
def Tbl.set {α : Type} [DecidableEq α] (t : Tbl α) (d : α) (k : Nat) (v : α) : Tbl α :=
  if v = d then Tbl.erase t k else Tbl.insert (Tbl.erase t k) k v

/-- The canonical form of a table: indexes strictly rising and no entry equal to the default. -/
def Tbl.wf {α : Type} [DecidableEq α] (t : Tbl α) (d : α) : Bool :=
  match t with
  | [] => true
  | [(_, v)] => decide (v ≠ d)
  | (j, v) :: (k, w) :: r => decide (j < k) && decide (v ≠ d) && Tbl.wf ((k, w) :: r) d

/-- Bit `i` of a number. -/
def bit (n i : Nat) : Bool := n.testBit i

/-- 1 for true and 0 for false. -/
def b2n (b : Bool) : Nat := if b then 1 else 0

/-- The number of bits set among the lowest `w` bits of `n`. -/
def popcount (n : Nat) : Nat → Nat
  | 0 => 0
  | w + 1 => popcount n w + b2n (n.testBit w)

/-- The indices of the bits set among the lowest `w` bits of `n`, rising. -/
def bitsOf (n : Nat) : Nat → List Nat
  | 0 => []
  | w + 1 => bitsOf n w ++ (if n.testBit w then [w] else [])

/-- Serial-number comparison of 32-bit values: `a` newer than `b` when (i32)(a − b) > 0 (R403). -/
def serialNewer (a b : Word) : Bool := decide (0 < (a - b).toInt)

/-- Saturate a natural number at `m`. -/
def satN (m n : Nat) : Nat := if n > m then m else n

/-- A signed amount, saturated to 32-bit two's complement. -/
def sat32 (v : Int) : Word :=
  if v > 2147483647 then 0x7FFFFFFF#32
  else if v < -2147483648 then 0x80000000#32
  else BitVec.ofInt 32 v

/-- Round a number up to the next multiple of `m`. -/
def roundUp (n m : Nat) : Nat := if m = 0 then n else ((n + m - 1) / m) * m

end Sys2Proof
end

