-- ==== Sys2Proof/Syntax.lean ====
section
/-! DEFINITION. The commands of the block: one constructor of `Instr` for each row of spec/opcode_table.json,
with the operands that the rule named in the row gives it, and the operand types they use. -/

set_option linter.unusedVariables false

namespace Sys2Proof

/-! ## Common operand types -/

/-- Status codes of Table 19.8 (R471). -/
inductive St where
  | ok | busy | range | conflict | auth | genWrap | noComparator | lateStrike
  | underflow | overflow | pairBreach | noSpare | poison | guard | aborted | timeout
deriving DecidableEq, Repr

/-- The value of a status code (Table 19.8). -/
def St.val : St → Nat
  | .ok => 0 | .busy => 1 | .range => 2 | .conflict => 3 | .auth => 4 | .genWrap => 5
  | .noComparator => 6 | .lateStrike => 7 | .underflow => 8 | .overflow => 9 | .pairBreach => 10
  | .noSpare => 11 | .poison => 12 | .guard => 13 | .aborted => 14 | .timeout => 15

/-- Status words of R89 (Table 3.9: 0 Free-run, 1 Acquiring, 2 Locked, 3 Holdover, 4 Lost). -/
inductive StatusWord where
  | freeRun | acquiring | locked | holdover | lost
deriving DecidableEq, Repr

/-- The value of a status word (R89). -/
def StatusWord.val : StatusWord → Nat
  | .freeRun => 0 | .acquiring => 1 | .locked => 2 | .holdover => 3 | .lost => 4

/-- Where a mailbox command came from: a host mailbox, the page of a context, or another block that
forwarded it (R457, R461: the originating block, its mailbox and the mailbox's SEQ). -/
inductive CmdSrc where
  | host (m : Nat)
  | page (slot : Nat)
  | forward (block m : Nat) (seq : Nat)
deriving DecidableEq, Repr

/-- What a command's own fabric read returned (R545): the data, data with fb_r_poison on a beat, or fb_r_err. -/
inductive FabRead (α : Type) where
  | ok (v : α)
  | poison
  | err
deriving DecidableEq, Repr

/-- The header of a mailbox command (Table 19.3) with the slot that the issuing access presents (R442),
whether every reserved field (R15), whether TAG is right on a TENANT_KEYED page (R439), and whether the flash writes that the command makes
succeed, at the second try at the latest (R519). `param` is what the read of its parameter block returns (R464), `wrErr` says that the fabric
write of results that do not fit its response returns fb_b_err (R545), and `guard` names the write, as target and address, that the guard
unit refuses (R455). -/
structure CmdHdr where
  src : CmdSrc
  access : Nat := 0
  slot : Nat := 0
  gen : Nat := 0
  route : Nat := 0
  irq : Bool := false
  reservedOk : Bool := true
  tagOk : Bool := true
  flashOk : Bool := true
  param : FabRead Unit := .ok ()
  wrErr : Bool := false
  guard : Option (Nat × Nat) := none
deriving DecidableEq, Repr

/-- A TAI mapping (R48, R49). -/
structure TaiMap where
  ofs : Int
  utc : Nat
  leap : Nat
  eff : HT
deriving DecidableEq, Repr

/-- The identity of a chunk: context slot and generation, handle, instance and chunk index (R321). -/
structure ChunkKey where
  slot : Nat
  gen : Nat
  handle : Nat
  inst : Nat
  chunk : Nat
deriving DecidableEq, Repr

/-! ## Reference and DPLL operands -/

/-- The parameters of CMD_REF_CONFIG (Table 3.7), each an integer count of its step. -/
structure RefCfg where
  prio : List Nat := [2, 3, 1, 4]
  nomKhz0 : Nat := 25000
  nomKhz1 : Nat := 25000
  nomRem0 : Nat := 0
  nomRem1 : Nat := 0
  ssmII : List Bool := [false, false, false]
  gateMs : Nat := 1000
  freqAccTenthPpm : Nat := 100
  wtrS : Nat := 300
  phaseAccNs : Nat := 10000
  dispThrPpb : Nat := 50
  dispPersist : Nat := 3
  slopeTenth : Nat := 20
  bwMilliHz : Nat := 100
  ref2Comp : Int := 0
  xsBaud : Nat := 115200
  msgTmoS : Nat := 3
  ref3TmoS : Nat := 4
  revertive : Bool := true
  settleMin : Nat := 20
  windowH : Nat := 24
  holdLimitS : Nat := 14400
  tempExcC : Nat := 5
  tempExternal : Bool := false
  openTmoS : Nat := 10
deriving DecidableEq, Repr

/-- A quality level report: the enhanced code when present, and the 4-bit SSM code (R63). -/
structure QlReport where
  ssm : Nat
  eql : Option Nat
deriving DecidableEq, Repr

/-- The arguments of CMD_REF_REPORT (R64, R67, R85): each part is present when the report carries it. -/
structure RefReport where
  ql0 : Option QlReport := none
  ql1 : Option QlReport := none
  ql3 : Option QlReport := none
  ofs3 : Option (Int × HT) := none
  temp : Option Int := none
deriving DecidableEq, Repr

/-- The contents of a holdover model (R81, R84, R98). -/
structure ModelData where
  a0 : Rat := 0
  a1 : Rat := 0
  b1 : Rat := 0
  b2 : Rat := 0
  ageEpoch : HT := 0
  t0 : Rat := 0
  external : Bool := false
deriving DecidableEq, Repr

/-! ## TDC operands -/

/-- The configuration arguments of CMD_TDC_CONFIG (Table 4.4). -/
structure TdcCfg where
  en : Bool := false
  src : Nat := 0
  edge : Nat := 1
  hyst : Nat := 1
  holdoff : Nat := 20
  div : Nat := 0
  gateMs : Nat := 1000
  fnom : Nat := 1000000
  dither : Bool := false
  raw : Bool := false
deriving DecidableEq, Repr

/-- The path of a calibration (R114): internal loopback, or external through tdc_in0 or tdc_in1. -/
inductive CalPath where
  | internal | ext0 | ext1
deriving DecidableEq, Repr

/-! ## Link operands -/

/-- The identity fields of a bring-up flit (R25): role, configuration, tier, pair identifier, pair position
and port number of the sender. -/
structure Ident where
  hub : Bool
  config : Nat
  tier : Nat
  pairId : Nat
  pos : Nat
  port : Nat
deriving DecidableEq, Repr

/-- The data of a bring-up exchange as received (R428): the peer's nonce, share and the outcome of each of
the five checks that the peer's data allow, in their order, and the peer's identity. -/
structure Exchange where
  nonce : Nat
  share : Nat
  chainOk : Bool
  reportOk : Bool
  userDataOk : Bool
  ownerDigest : Nat
  fwSvn : Nat
  mirrorVer : Nat := 0
  ident : Ident
deriving DecidableEq, Repr

/-- The body of a timing flit (Table 5.3) with the validity of its CRC and tag. Times are in units of
2⁻⁸ ns; `txHt` is the whole TX_HT. -/
structure TimingBody where
  txHt : Nat
  echoTx : Nat
  echoDwell : Nat
  status : StatusWord
  primary : Bool
  stepCnt : Nat := 0
  epoch : Nat := 0
  authOk : Bool := true
deriving DecidableEq, Repr

/-- The port on which a flit with a good CRC and tag came and the link-layer fields of its header (Table 5.2); `corr` is the number of codewords that the
decoder corrected since the flit before it (R120). -/
structure Link where
  port : Nat
  seq : Nat := 0
  ack : Nat := 4095
  nak : Bool := false
  crCtl : Nat := 0
  crRadio : Nat := 0
  crTen : Nat := 0
  corr : Nat := 0
deriving DecidableEq, Repr

/-- The contents of a control flit that has no row of its own: a manifest digest and LABEL from a Leaf to its pod pair
(R311), the order to begin no new chunk of a handle and, when it is final, to drop what is retained (R358), and the chunks
that a contributor still owes with those already committed (R359), the chunks of an instance that a contributor has released, which it tells
a new primary (R413), and the parent end's part in a Plumb commissioning (R140): its
start, its refusal, the mean and the external-path delay that it found (in units of 2⁻⁸ ns), and the end with the new A, which is absent when it failed. An idle flit, which is not numbered, has no row of its own either:
it carries only its header. -/
inductive CtlBody where
  | idle
  | manifest (child slot gen digest label : Nat)
  | saveStop (slot gen handle saveId : Nat) (final : Bool)
  | owed (slot gen handle saveId inst : Nat) (chunks committed : List Nat)
  | released (slot gen handle inst : Nat) (chunks : List Nat)
  | plumbStart (po ch count : Nat) (start : HT)
  | plumbFail (code : St)
  | plumbMeans (mean ext : Int)
  | plumbEnd (a : Option Int)
deriving DecidableEq, Repr

/-- The end-point arguments of CMD_PLUMB MEASURE (Table 5.6): pulse output and TDC channel at each end. -/
structure PlumbArgs where
  port : Nat
  poChild : Nat
  chChild : Nat
  poParent : Nat
  chParent : Nat
  count : Nat
deriving DecidableEq, Repr

/-! ## Docket and output operands -/

/-- The owner of a Docket queue (R157). -/
inductive Owner where
  | firmware
  | ctx (slot gen : Nat)
deriving DecidableEq, Repr

/-- The target of CMD_PULSE_CONFIG (Table 6.8). -/
inductive PoTarget where
  | output (n : Nat)
  | channel (c : Nat)
deriving DecidableEq, Repr

/-- The arguments of CMD_PULSE_CONFIG (Table 6.8). -/
structure PulseArgs where
  target : PoTarget
  mode : Nat
  period : Nat := 0
  offset : Int := 0
  width : Nat := 0
  slot : Nat := 0
  gen : Nat := 0
deriving DecidableEq, Repr

/-! ## Sync and barrier operands -/

/-- A wait request (R187). -/
structure WaitReq where
  waiter : Nat
  ctx : Nat
  vid : Nat
  thr : Word
  gate : Bool
  tmo : Nat
deriving DecidableEq, Repr

/-- A barrier definition (Table 7.4). -/
structure BarrierDef where
  id : Nat
  spanTier : Nat
  mask : Nat
  arriveId : Nat
  step : Nat
  releaseId : Nat
  launch : Nat := 0
  margin : Nat := 200
deriving DecidableEq, Repr

/-! ## Collective operands -/

/-- What a collective data flit carries for a chunk: its KIND, offset, LAST mark, POISON mark, AUX and data
bytes (Table 10.4). -/
structure CollData where
  partialKind : Bool
  ofs : Nat
  last : Bool
  poison : Bool := false
  aux : Word := 0
  /-- HUGE and TINY of the products behind a partial (R211), which the manual gives no place in the flit (DESIGN CHOICE, log 84). -/
  flags : Nat := 0
  data : List Byte
deriving DecidableEq, Repr

/-- A commit message (Table 10.6). -/
structure CommitMsg where
  key : ChunkKey
  code : St
  flags : Nat
  resultBytes : Nat
  hallmark : Nat
deriving DecidableEq, Repr

/-- A result copy on the chord (R270, R303): the commit message, the result bytes and the sender's FW_VERSION. -/
structure ResultCopy where
  msg : CommitMsg
  bytes : List Byte
  fwVersion : Nat
deriving DecidableEq, Repr

/-- Which residue, flag, unit or checksum comparison of a tile failed (Table 13.1, SYNDROME byte 4), where, and
the two values; `tile` names the tile at a Leaf, where a chunk accumulates on several (R261). `none` where a step carries one of these means that the
comparisons of the tile's own duplicated units agreed. -/
structure TileCheck where
  check : Nat
  pane : Nat
  lane : Nat
  limb : Nat
  expected : Nat
  observed : Nat
  tile : Nat := 0
deriving DecidableEq, Repr

/-! ## Clock and power operands -/

/-- The setting of a switched domain (R390). -/
inductive PwrSetting where
  | on | off | auto
deriving DecidableEq, Repr

/-! ## Fault, test and journal operands -/

/-- A unit identifier of Table 13.5: kind in bits [15:12], index in bits [11:0]. -/
structure UnitId where
  kind : Nat
  idx : Nat
deriving DecidableEq, Repr

/-- A fault notice (R535): EVENT and UNIT of the record and the low word of its SEQ. -/
structure Notice where
  event : Nat
  unit : Nat
  seqLo : Nat
deriving DecidableEq, Repr

/-- A pattern pack as read from memory or a flit (Table 15.1), with the validity of its signature, body digest
and read-back. -/
structure Pack where
  magic : Nat
  pver : Nat
  blockVersion : Nat
  packId : Nat
  target : Nat
  packSeq : Nat
  patterns : Nat
  chains : Nat
  chainLen : Nat
  march : Bool
  reservedZero : Bool
  length : Nat
  sigOk : Bool
  digestOk : Bool
  readBackOk : Bool := true
deriving DecidableEq, Repr

/-- What a structural test found (R371): no mismatch, or the first mismatch and the count of mismatching bits. -/
structure TestResult where
  mismatches : Nat
  pattern : Nat := 0xFFFFFFFF
  chain : Nat := 0
  bitPos : Nat := 0
  phaseMarch : Bool := false
deriving DecidableEq, Repr

/-- A firmware or configuration image as read (Table 19.6), with the validity of its signature and read-back.
A configuration image carries its fields. -/
structure ImgHdr where
  magic : Nat
  kind : Nat
  blockVersion : Nat
  fwVersion : Nat
  svn : Nat
  mirrorVer : Nat
  reservedZero : Bool
  length : Nat
  digest : Nat
  sigOk : Bool
  readBackOk : Bool := true
deriving DecidableEq, Repr

/-- The fields of the signed configuration image that this manual names (Table 20.3 and the rules it cites). -/
structure CfgFields where
  tier : Nat := 1
  top : Bool := true
  pairId : Nat := 0
  pos : Nat := 0
  kGroups : Nat := 1
  kUp : Nat := 1
  children : Nat := 256
  roster : Nat := 0
  spares : Nat := 2
  freqPoint : Nat := 0
  radioSlots : Nat := 8
  radioTiles : Nat := 8
  daybookBytes : Nat := 16777216
  archiveBytes : Nat := 1073741824
  packStoreBytes : Nat := 67108864
  quotaSpill : Nat := 41943040
  quotaSave : Nat := 25165824
  quotaStage : Nat := 8388608
  quotaArchive : Nat := 262144
  ownerValid : Bool := true
  ownerDigest : Nat := 0
  radioReserve : Nat := 8
  peerRoots : List Nat := []
  soloTimeoutS : Nat := 60
  eraseRetirements : Bool := false
deriving DecidableEq, Repr

/-- An image held in a flash slot. -/
structure Image where
  hdr : ImgHdr
  cfg : CfgFields := {}
deriving DecidableEq, Repr

/-- One wrong symbol of a journal access (R346): its codeword, the device that holds it, and the bits in which it differs from what was
written. -/
structure SymErr where
  cw : Nat
  dev : Nat
  bits : BitVec 8
deriving DecidableEq, Repr

/-- What the page-state SRAM's SEC-DED finds when it is read for an access (R352). -/
inductive SecDed where
  | clean
  | single
  | double
deriving DecidableEq, Repr

/-- What the DRAM and the page-state SRAM return for one journal access: the symbols that came back wrong (R346) and the state of the
page-state word (R352). -/
structure JournalErr where
  errs : List SymErr := []
  sram : SecDed := .clean
deriving DecidableEq, Repr

/-- One action of a power plan (Table 16.8), as its 64-bit word. -/
abbrev PlanAction := BitVec 64

/-- A power plan as read (R394). -/
structure Plan where
  magic : Nat
  version : Nat
  reservedZero : Bool
  steps : List (Nat × Nat)
  stepsReservedZero : Bool
  actions : List PlanAction
deriving DecidableEq, Repr

/-! ## Context operands -/

/-- The participants and attributes of CMD_CTX_OPEN (R433, R544). `lastGen` and `busyAt` are what the span pair
knows of its participants through their acknowledgements and clears: per slot, the largest LAST_GEN there, the slots that
are open at some participant, and those clearing or resetting at some participant. -/
structure CtxOpenArgs where
  spanTier : Nat
  mask : Nat
  radio : Bool
  enc : Bool
  tenantKeyed : Bool
  keyBlock : FabRead Nat := .ok 0
  lastGen : List (Nat × Nat) := []
  openAt : List Nat := []
  busyAt : List Nat := []
deriving DecidableEq, Repr

/-- A context message (R434): slot, generation, attributes, and the wrapped key; the span tier, and the participants among the
receiving Hub's own children (every one whose port is up when absent). -/
structure CtxMsg where
  slot : Nat
  gen : Nat
  radio : Bool
  enc : Bool
  tenantKeyed : Bool
  key : Nat
  span : Nat := 0
  mask : Option Nat := none
deriving DecidableEq, Repr

/-- A debug token as read (Table 18.5) with the validity of its signature. -/
structure Token where
  magic : Nat
  tver : Nat
  deviceId : Nat
  challenge : Nat
  licHash : Nat
  sigOk : Bool
deriving DecidableEq, Repr

/-- A command that a Hub distributes (R546), the start of a slot reset (R433), the withdrawal of a command that some block refused,
and the confirmation of one that every participant accepted (R276). -/
inductive DistCmd where
  | barrierDefine (slot gen : Nat) (d : BarrierDef)
  | barrierDelete (slot gen : Nat) (id : Nat)
  | collOpen (desc : BitVec 512) (w : Nat)
  | collClose (slot gen handle : Nat)
  | ctxOpen (m : CtxMsg)
  | ctxClose (slot gen code : Nat)
  | ctxShape (slot gen weight rate burst : Nat) (full : Bool)
  | classConfig (radioSlots : Nat) (eff : HT)
  | htStep (d : Int) (eff : HT)
  | slotReset (slot : Nat)
  | withdraw (id : Nat)
  | confirm (id : Nat)
deriving DecidableEq, Repr

/-- What an acknowledgement carries beside its code: of a plan the manifest digest and LABEL of the Leaves it stands for (R312) and
the panes reserved at a Leaf (Table 10.9); of the opening of a context the number of Leaves it stands for (R208, R544). -/
structure AckInfo where
  digest : Nat := 0
  label : Nat := 0
  panes : Nat := 0
  leaves : Nat := 0
deriving DecidableEq, Repr

namespace Machine

/-- A Ledger element as stored (R214, R230): ten limbs of 40 bits and two copies of the flag word. -/
structure Elem where
  limbs : List (BitVec 40) := List.replicate 10 0
  flag : BitVec 40 := 0
  flag2 : BitVec 40 := 0
deriving DecidableEq, Repr

/-- A pane (R232, R234): its chunk and place in the chunk, its checksum word and its elements, and whether these hold 64-bit lanes (R246), within which
carry steps then stay. -/
structure Pane where
  owner : Option ChunkKey := none
  index : Nat := 0
  dirty : Bool := false
  reserved : Bool := false
  rsum : Nat := 0
  cnt : Nat := 0
  lanes : Bool := false
  elems : Tbl Elem := []
deriving DecidableEq, Repr

/-- A saved chunk (R358): its key, its panes in canonical form with their checksum words (R217, R218), its arrival mask, and the HUGE and TINY of its
products (R211). -/
structure SavedChunk where
  chunk : Nat
  panes : List Pane
  arrived : List Nat
  flags : Nat := 0
deriving DecidableEq, Repr

/-- A saved Ledger state (R358), with the resume token of a TENANT_KEYED context (R440). -/
structure Save where
  slot : Nat
  desc : BitVec 512
  inst : Nat
  step : Nat
  committed : List Nat
  chunks : List SavedChunk
  pages : List Nat
  tenantKeyed : Bool
  token : Nat := 0
  single : Bool := false
deriving DecidableEq, Repr

/-- A staged set (R360): per chunk the images, K and M. -/
structure Stage where
  slot : Nat
  desc : BitVec 512
  chunks : List SavedChunk
  k : Nat
  m : Option Word
  pages : List Nat
  incomplete : Bool := false
  single : Bool := false
  consumed : List Nat := []
deriving DecidableEq, Repr

end Machine

/-- A change of mirrored state (Table 17.2), as the mirror flit carries it. -/
inductive MirrorMsg where
  | status (w : StatusWord)
  | taiMap (m : Option TaiMap)
  | taiNow (m : TaiMap) (seq : Nat) (valid : Bool)
  | refState (n : Nat) (qualified disputed disq : Bool) (wtrStart : Option HT)
  | holdoverEntry (h : Option HT)
  | dispute (pair : Nat) (marked : Bool)
  | phaseTarget (v : Int)
  | dpllMode (mode ref : Nat)
  | refConfig (c : RefCfg)
  | ctxInstall (m : CtxMsg)
  | ctxClear (slot gen : Nat)
  | ctxLeaves (slot gen : Nat) (counts : List (Nat × Nat))
  | barrierDef (slot gen : Nat) (d : BarrierDef) (completed : Nat)
  | barrierUndef (slot gen id : Nat)
  | barrierArrival (slot gen id inst child : Nat) (d : Option Nat)
  | barrierH (slot gen id inst : Nat) (h : HT)
  | barrierRelease (slot gen id inst : Nat) (s : HT)
  | collPlan (desc : BitVec 512) (w : Nat)
  | collClose (slot gen handle : Nat)
  | counters (slot gen handle child sent committed : Nat)
  | shape (slot gen weight rate burst : Nat)
  | radioSlots (v : Nat) (eff : HT)
  | radioTiles (v : Nat) (eff : HT)
  | fenceMap (tiles ports chord : Nat)
  | manifest (slot gen digest label : Nat)
  | batchSigned (seq : Nat) (last : ChunkKey)
  | lease (epoch : Nat)
  | fullDone
  | retired (k : ChunkKey)
  | save (id : Nat) (v : Option Machine.Save)
  | stage (id : Nat) (v : Option Machine.Stage)
  | tileHist (tile state : Nat) (events : List HT)
  | completion (block m seq : Nat) (code : St) (results : List (BitVec 8))
  | isolate
  | rejoin
  | roster (peerRole : Nat)
deriving DecidableEq, Repr

/-- What a lease flit of the holder or of a claimant carries (R404, R405). -/
structure LeaseFlit where
  epoch : Nat
  sendHt : HT
deriving DecidableEq, Repr

/-! ## The commands -/

/-- The commands of the block: one constructor for each row of spec/opcode_table.json, in its order. -/
inductive Instr where
  -- resets, start-up and clocks inputs
  | powerOnReset
  | blockReset
  | startUp (pufOk : Bool) (journalOk : Bool) (badChannels : List Nat)
  | soloStartTimeout
  | fwTrialClear
  | htCheckpoint
  | synLockFall
  | synLockRestored
  | ocxoLoss
  | ocxoWarmChange (level : Bool)
  | ocxoSettleExpiry
  -- references and DPLL
  | refLoss (n : Nat)
  | xsStatusMessage (bytes : List Byte)
  | statusMessageTimeout
  | qlTimeout (n : Nat)
  | tempTimeout
  | waitToRestoreExpiry (n : Nat)
  | disputeClear (n m : Nat)
  | lockCriteriaMet
  | unlockCriteriaMet
  | learningBinEnd (meanTemp : Rat)
  | modelFlashWrite
  | holdoverLimitExpiry
  | openLoopTimeout
  | cmdTaiMap (h : CmdHdr) (ofs : Int) (utc leap : Nat) (eff : HT)
  | taiMapApply
  | taiMapReceive (l : Link) (m : TaiMap)
  | cmdRefConfig (h : CmdHdr) (c : RefCfg)
  | cmdRefReport (h : CmdHdr) (r : RefReport)
  | cmdDpllMode (h : CmdHdr) (mode ref : Nat)
  | cmdDpllFcw (h : CmdHdr) (fcw : Int) (status : Nat)
  | holdoverModelRead (h : CmdHdr)
  | holdoverModelLoad (h : CmdHdr) (m : ModelData)
  | holdoverModelClear (h : CmdHdr)
  | holdoverModelFreeze (h : CmdHdr)
  | holdoverModelResume (h : CmdHdr)
  -- TDC
  | tdcEdgeAccept (ch : Nat) (rising : Bool) (held : Nat) (stamp : Nat)
  | holdoffEnd (ch : Nat) (level : Bool)
  | tdcGateEnd (ch : Nat)
  | tdcAnchorLatch
  | cmdTdcConfig (h : CmdHdr) (ch : Nat) (c : TdcCfg)
  | cmdTdcCal (h : CmdHdr) (ch po : Nat) (path : CalPath) (count : Nat)
  | tdcCalComplete
  -- Plumb, time source and HT steps
  | plumbMeasure (h : CmdHdr) (a : PlumbArgs)
  | plumbComplete
  | plumbLoad (h : CmdHdr) (port : Nat) (a : Int)
  | plumbRead (h : CmdHdr) (port : Nat)
  | plumbClearSuspect (h : CmdHdr) (port : Nat)
  | cmdTsrcConfig (h : CmdHdr) (mode slope recSlope : Nat)
  | cmdHtStep (h : CmdHdr) (load : Bool) (value : Int) (eff : HT)
  | htStepApply
  | htStepArmingDeadline
  -- links
  | portBringUpStart (p : Nat)
  | bringUpFlitReceive (p : Nat) (i : Ident)
  | keyExchangeStart (p : Nat)
  | keyExchangeReceive (p : Nat) (x : Exchange) (peerPassed : Bool)
  | phyDown (p : Nat)
  | timingFlitSend (p k : Nat)
  | timingFlitReceive (l : Link) (b : TimingBody) (sample n k : Nat)
  | controlFlitReceive (l : Link) (slot gen : Nat) (body : CtlBody)
  | corruptFlitReceive (p : Nat) (raw : List Byte) (codewordOk tagOk : Bool) (corr : Nat)
  | portNoFlitTimeout (p : Nat)
  | portTimingLoss (p : Nat)
  | servoUpdate
  | rttEstimateUpdate (p : Nat)
  -- Docket and timed outputs
  | docketPushWord (q w : Nat) (v : Word) (access : Nat)
  | docketPushCommit (q : Nat) (v : Word) (access : Nat)
  | docketEntryReady (q : Nat)
  | docketStrike (q : Nat)
  | docketFlush (q access : Nat)
  | docketResume (q access : Nat)
  | docketBind (h : CmdHdr) (q : Nat) (o : Owner) (paired : Bool)
  | docketLoad (h : CmdHdr) (q : Nat) (o : Owner) (entries : FabRead (List (BitVec 256))) (count : Nat) (replace : Bool)
  | docketUnbind (h : CmdHdr) (q : Nat) (o : Owner)
  | frameStrikeArm (c : Nat) (v : Word) (access : Nat)
  | frameDirectStrike (c : Nat)
  | pulseEdge (n : Nat)
  | pulseWidthEnd (n : Nat)
  | cmdPulseConfig (h : CmdHdr) (a : PulseArgs)
  | cmdPulseAlign (h : CmdHdr) (mask : Nat) (eff : HT)
  | pulseAlignApply (n : Nat)
  -- sync words, waiters and barriers
  | syncSet (ctx vid : Nat) (v : Word)
  | syncAdd (ctx vid : Nat) (v : Word)
  | syncSubtract (ctx vid : Nat) (v : Word)
  | syncReadIncrement (page ctx vid : Nat)
  | syncUpdateApply (phys : Nat)
  | waitRequest (r : WaitReq)
  | waitTimeout (w : Nat)
  | waitCancel (w access : Nat)
  | syncMap (h : CmdHdr) (first count : Nat) (counter saturate : Bool)
  | syncUnmap (h : CmdHdr) (first count : Nat)
  | syncMapRead (h : CmdHdr) (first count : Nat)
  | syncSetMode (h : CmdHdr) (first count : Nat) (counter saturate : Bool)
  | syncPairDefine (h : CmdHdr) (producer consumer n : Nat)
  | syncPairDelete (h : CmdHdr) (producer consumer : Nat)
  | contextClear (slot : Nat)
  | contextClearComplete (slot : Nat)
  | paneClearAfterTeardown (tile pane : Nat)
  | slotResetComplete (slot : Nat)
  | cmdBarrierDefine (h : CmdHdr) (d : BarrierDef)
  | cmdBarrierDelete (h : CmdHdr) (id : Nat)
  | barrierArrivalReceive (l : Link) (slot gen id inst : Nat) (pairD : Option Nat)
  | barrierReleaseReceive (l : Link) (slot gen id inst : Nat) (s : HT)
  | barrierReleaseFire
  -- collectives
  | collPlanOpen (h : CmdHdr) (addr : Nat) (desc : FabRead (BitVec 512)) (w : Nat)
  | collPlanClose (h : CmdHdr) (handle : Nat)
  | cmdCollBind (h : CmdHdr) (handle src : Nat)
  | collStart (ctx : Nat) (v : Word)
  | collQuery (ctx : Nat) (v : Word)
  | chunkSend (slot handle chunk : Nat)
  | contributionFlitReceive (l : Link) (k : ChunkKey) (d : CollData) (fail : Option TileCheck)
  | chunkMap (k : ChunkKey)
  | spillReloadComplete (k : ChunkKey) (uncorrectable : Bool)
  | contributionNoticeReceive (l : Link) (k : ChunkKey) (code : St)
  | drainComplete (k : ChunkKey) (fail : Option TileCheck)
  | resultCopyReceive (l : Link) (r : ResultCopy)
  | resultCopyAck (l : Link) (k : ChunkKey)
  | replayRequestReceive (l : Link) (k : ChunkKey) (attempt : Nat) (crcOk : Bool)
  | replayMarkReceive (l : Link) (k : ChunkKey) (attempt : Nat)
  | resultFlitReceive (l : Link) (k : ChunkKey) (d : CollData)
  | commitMessageReceive (l : Link) (epoch : Nat) (m : CommitMsg)
  | resultAckReceive (l : Link) (k : ChunkKey)
  | fabricReadResponse (k : ChunkKey) (addr : Nat) (beat : Option (List Byte × Bool)) (fail : Option TileCheck)
  | fabricWriteResponse (k : ChunkKey) (err : Bool)
  -- classes
  | cmdClassConfig (h : CmdHdr) (pairId radioSlots radioTiles : Nat) (eff : HT)
  | radioSlotsApply
  | radioTilesApply
  | cmdCtxShape (h : CmdHdr) (weight rate burst : Nat) (full : Bool)
  | shaperEligible (slot : Nat)
  -- Hallmarks
  | hallmarkBatchClose
  | cmdHallmarkRead (h : CmdHdr) (first count addr len : Nat) (bad : Option Nat) (wrErr : Bool)
  | manifestRegister (h : CmdHdr) (label : Nat) (file : FabRead (List Byte)) (items : List (Nat × FabRead (List Byte)))
  | manifestVerify (h : CmdHdr) (file : FabRead (List Byte)) (items : List (Nat × FabRead (List Byte)))
  | manifestRead (h : CmdHdr)
  -- faults
  | fenceTileFence (h : CmdHdr) (u : UnitId)
  | fenceTileUnfence (h : CmdHdr) (u : UnitId)
  | fenceTileRead (h : CmdHdr)
  | cmdDaybookRead (h : CmdHdr) (first count addr len : Nat) (wrErr : Bool)
  | daybookRecordWrite (flashOk : Bool)
  | faultNoticeReceive (l : Link) (n : Notice)
  -- journal
  | journalSelfTest (step1Ok : Bool) (badChannels : List Nat) (listOk : Bool)
  | journalRead (use page acc : Nat) (e : JournalErr)
  | scrubRead (page acc : Nat) (e : JournalErr)
  | channelFailure (c : Nat)
  | dramRefresh (c : Nat)
  | mr4Read (c : Nat) (doubled : Bool)
  | zqCalibration (c : Nat)
  | phyUpdateRequest (c : Nat)
  | ledgerSave (h : CmdHdr) (handle saveId : Nat)
  | ledgerSaveDelete (h : CmdHdr) (saveId : Nat)
  | cmdLedgerResume (h : CmdHdr) (saveId handle : Nat) (token : Option Nat) (bound uncorrectable : Bool)
  | journalStageOut (h : CmdHdr) (handle setId : Nat)
  | journalStageIn (h : CmdHdr) (handle setId : Nat)
  | journalStageDelete (h : CmdHdr) (setId : Nat)
  | journalRetirePage (h : CmdHdr) (page : Nat) (uncorrectable : List Nat)
  | journalRetireBank (h : CmdHdr) (c b : Nat) (uncorrectable : List Nat)
  | journalRetireMark (h : CmdHdr) (c dev : Nat)
  | journalRetireUnmark (h : CmdHdr) (c dev : Nat)
  | journalRetireRead (h : CmdHdr)
  | cmdJournalConfig (h : CmdHdr) (hours : Nat)
  -- structural test
  | patternLoad (h : CmdHdr) (p : FabRead Pack) (aligned distribute : Bool)
  | packReceive (l : Link) (p : Pack)
  | patternDelete (h : CmdHdr) (slot : Nat)
  | patternRead (h : CmdHdr)
  | testTileRun (h : CmdHdr) (u : UnitId) (packId : Nat)
  | testTileAbort (h : CmdHdr) (u : UnitId)
  | testComplete (u : UnitId) (r : TestResult)
  -- clocks and power
  | monitorFire (tile : Nat) (slack : Nat)
  | stretchIntervalEnd (group : Nat)
  | tallyClockSet (h : CmdHdr) (group freq : Nat) (eff : HT)
  | tallyClockSync (h : CmdHdr) (freqs : List Nat) (eff : HT)
  | tallyClockMargin (h : CmdHdr) (group margin : Nat)
  | tallyClockRead (h : CmdHdr)
  | tallySetEffective (group : Nat)
  | groupQuiesced (group : Nat)
  | tallySyncEffective
  | cmdPowerSelf (h : CmdHdr) (domain : Nat) (set : PwrSetting) (idle : Nat)
  | tileAutoIdleOff (tile : Nat)
  | domainPowerOnComplete (domain : Nat)
  | powerPlanLoad (h : CmdHdr) (p : FabRead Plan)
  | powerPlanSchedule (h : CmdHdr) (q step : Nat) (strike : HT)
  | powerPlanRead (h : CmdHdr)
  | powerStepStart
  | pmAckChange (k : Nat) (level : Bool)
  | powerDelayExpiry
  | powerWaitTimeout
  -- pair and lease
  | leaseRenewalSend
  | leaseRenewalReceive (l : Link) (f : LeaseFlit)
  | leaseClaimReceive (l : Link) (f : LeaseFlit)
  | leaseReleaseReceive (l : Link) (f : LeaseFlit)
  | leaseConfirmationReceive (l : Link) (f : LeaseFlit)
  | leaseRefusalReceive (l : Link) (g : Nat) (f : LeaseFlit)
  | leaseLapse
  | chordRenewalTimeout
  | leaseClaimSend
  | chordDownSolo
  | mirrorFlitReceive (l : Link) (m : MirrorMsg)
  | epochRecordClose (peer : Option Nat)
  | pairIsolate (h : CmdHdr)
  | pairRejoin (h : CmdHdr)
  | pairHandover (h : CmdHdr) (eff : HT)
  | handoverEffective
  | pairRead (h : CmdHdr)
  -- security and contexts
  | attestEnroll (h : CmdHdr)
  | attestReport (h : CmdHdr) (nonce userData : Nat)
  | attestCertLoad (h : CmdHdr) (len : Nat) (chain : FabRead (Nat × Bool))
  | attestCertRead (h : CmdHdr)
  | cmdCtxOpen (h : CmdHdr) (a : CtxOpenArgs)
  | contextMessageReceive (l : Link) (m : CtxMsg)
  | cmdCtxClose (h : CmdHdr)
  | debugChallenge (h : CmdHdr)
  | debugUnlock (h : CmdHdr) (t : FabRead Token)
  -- mailboxes and the Scrivener
  | mailboxGo (m : Option Nat) (access : Nat)
  | mailboxAbort (m : Option Nat) (access : Nat)
  | mailboxDoneClear (m : Option Nat) (access : Nat)
  | mailboxAccept
  | forwardedCommandReceive (l : Link) (block m seq : Nat) (tier opcode : Nat) (mirrored : Bool) (bytes : BitVec 512) (resent : Bool)
  | forwardResponseReceive (l : Link) (src : CmdSrc) (seq : Nat) (code : St) (results : List Byte)
  | forwardTimeout (src : CmdSrc)
  | distributionReceive (l : Link) (id : Nat) (d : DistCmd)
  | distributionAckReceive (l : Link) (id : Nat) (code : St) (info : AckInfo)
  | watchdogExpiry
  | sramDoubleError
  | badFetch
  | scrivenerRestartComplete (stagedOk : Bool)
  | cmdFwStage (h : CmdHdr) (kind len : Nat) (img : FabRead Image)
  | cmdFwActivate (h : CmdHdr) (kind : Nat) (eff : HT)
  | fwActivateEffective
  -- register window
  | htLoRead
  | taiOfsLoRead
  | fcwLoRead (access : Nat)
  | tdcStampLoRead (ch access : Nat)
  | hmSeqLoRead (access : Nat)
  | dbSeqLoRead (access : Nat)
  | noticeRead (access : Nat)
  | registerWrite (addr : Nat) (v : Word) (access : Nat)
  | htEvEdge (c : Nat)
  -- further events
  | temperatureExcursion (temp : Rat)
  | ocxoClockReturn
  | sramSingleBitError
  | phasePullEnd
  | frequencySlewEnd
  | paneSpillComplete (k : ChunkKey)
  | domainPowerOffComplete (domain : Nat)
  | activationCommandWaitExpiry
deriving DecidableEq, Repr

end Sys2Proof
end

