-- ==== Sys2Proof/Decode.lean ====
section
/-! DEFINITION. Reading a command from a word. No row of spec/opcode_table.json gives bits (every row's "fields" is
empty), so no word spells a command: a command arrives with its operands as the rule of its row gives them. -/

set_option linter.unusedVariables false

namespace Sys2Proof

/-- The command that a word of the table's bits spells: none, since no row of the table gives bits. -/
def decodeTableWord (nbits w : Nat) : Option Instr := none

end Sys2Proof
end

