-- ==== Sys2Proof/Config.lean ====
section
/-! DEFINITION. What an instance fixes (the integration parameters of Table 21.12 and the sizes of Table 0.1)
and the free values: constants without a body that stand for what the manual leaves open or only names. -/

set_option linter.unusedVariables false

namespace Sys2Proof

/-- The four configurations (R2, R3, Table 0.1). -/
inductive BlockConfig where
  | leaf4 | leaf8 | hub32 | hub64
deriving DecidableEq, Repr

/-- The integration parameters of an instance (R524, Table 21.12). -/
structure Params where
  config : BlockConfig
  licRootHash : Nat := 0
  jtIdcode : BitVec 32 := 1
  htPorts : Nat := 1
  fbAddrW : Nat := 64
  flashSize : Nat := 1
  pmReqReset : BitVec 80 := 0
  ckCtlReset : BitVec 160 := 0
deriving DecidableEq, Repr

namespace Params

/-- Whether the instance is a Hub (R2). -/
def hub (p : Params) : Bool :=
  match p.config with | .hub32 | .hub64 => true | _ => false

/-- Tally tiles (Table 0.1). -/
def tiles (p : Params) : Nat :=
  match p.config with | .leaf4 => 4 | .leaf8 => 8 | .hub32 => 32 | .hub64 => 64

/-- Panes of a tile (Table 9.1). -/
def tilePanes (p : Params) : Nat := if p.hub then 1024 else 256

/-- Context slots of the role (Table 0.1). -/
def contexts (p : Params) : Nat := if p.hub then 256 else 64

/-- Down ports (Table 0.1, Table 0.5). -/
def downPorts (p : Params) : Nat :=
  match p.config with | .hub32 => 128 | .hub64 => 256 | _ => 0

/-- Up ports (Table 0.1, Table 0.5). -/
def upPorts (p : Params) : Nat :=
  match p.config with | .hub32 => 16 | .hub64 => 32 | _ => 0

/-- Whether `n` is the register index of a link or chord port of the instance (R152: chord port Cn is 288 + n). -/
def hasPort (p : Params) (n : Nat) : Bool :=
  if p.hub then decide (n < p.downPorts + p.upPorts) || (decide (288 ≤ n) && decide (n < 296))
  else decide (n < 2)

/-- The register indices of the instance's ports. -/
def portList (p : Params) : List Nat :=
  if p.hub then List.range (p.downPorts + p.upPorts) ++ (List.range 8).map (288 + ·) else [0, 1]

/-- Whether `n` is a down port of a Hub. -/
def isDown (p : Params) (n : Nat) : Bool := p.hub && decide (n < p.downPorts)

/-- Whether `n` is a chord port of a Hub. -/
def isChord (p : Params) (n : Nat) : Bool := p.hub && decide (288 ≤ n) && decide (n < 296)

/-- Whether `n` is an up port of a Hub or a port of a Leaf: a port toward the block's parent. -/
def isUp (p : Params) (n : Nat) : Bool :=
  if p.hub then decide (p.downPorts ≤ n) && decide (n < p.downPorts + p.upPorts) else decide (n < 2)

/-- Journal channels (R344). -/
def channels (p : Params) : Nat :=
  match p.config with | .hub32 => 5 | .hub64 => 10 | _ => 0

/-- Stretch groups (Table 16.1). -/
def groups (p : Params) : Nat := p.tiles / 4

/-- Spare limit (R329). -/
def maxSpares (p : Params) : Nat :=
  match p.config with | .hub32 => 4 | .hub64 => 8 | _ => 0

/-- Largest RADIO_TILES (R283). -/
def maxRadioTiles (p : Params) : Nat :=
  match p.config with | .hub32 => 8 | .hub64 => 16 | _ => 0

/-- Default RADIO_TILES (R283). -/
def defRadioTiles (p : Params) : Nat :=
  match p.config with | .hub32 => 4 | .hub64 => 8 | _ => 0

/-- Whether switched power domain `d` exists (Table 16.6). -/
def hasDomain (p : Params) (d : Nat) : Bool :=
  match p.config with
  | .leaf4 => decide (d < 4) || d == 78
  | .leaf8 => decide (d < 8) || d == 78
  | .hub32 => decide (d < 32) || (decide (64 ≤ d) && decide (d < 70)) || (decide (76 ≤ d) && decide (d < 80))
  | .hub64 => decide (d < 64) || (decide (64 ≤ d) && decide (d < 80))

/-- CONFIG code of DX_CONFIG (Table 22.2). -/
def configCode (p : Params) : Nat :=
  match p.config with | .leaf4 => 0 | .leaf8 => 1 | .hub32 => 2 | .hub64 => 3

/-- DX_CONFIG (Table 22.2). -/
def dxConfig (p : Params) : Nat :=
  p.configCode + 4 * b2n p.hub + 256 * p.tiles + 65536 * p.htPorts + 1048576 * p.fbAddrW + 134217728 * p.flashSize

end Params

namespace Config

/-- A sensor reading that enters a Daybook record: TEMP in units of 0.125 °C and VOLT in mV (R338). Free: the
manual fixes no value. Applied to the free-value counter. -/
opaque freeTemp : Nat → Nat
@[inherit_doc freeTemp] opaque freeVolt : Nat → Nat

/-- The random bits of the DRBG (R421). Free; applied to the free-value counter. -/
opaque freeRandom : Nat → Nat

/-- The FCW correction of the phase loop at a gate or update, whose loop filter the manual leaves open (R59, R77):
applied to the free-value counter. -/
opaque freeLoop : Nat → Int

/-- SHA-384 (FIPS 180-4), named and not defined by the manual; a function of the bytes. -/
opaque sha384 : List Byte → Nat

/-- HKDF per RFC 5869 with SHA-384 (R421): a function of the secret, the label and the context numbers. -/
opaque hkdf : Nat → String → List Nat → Nat

/-- ECDH on P-384 (R421): the shared secret of a private value and a public share. -/
opaque ecdh : Nat → Nat → Nat

/-- The public share of a private value. -/
opaque pubOf : Nat → Nat

/-- ECDSA P-384 signature by a private key over bytes (R424). -/
opaque sign : Nat → List Byte → Nat

/-- The root key that the PUF and the helper data give (R421). -/
opaque rootKey : Nat → Nat

/-- HMAC-SHA-384 under a key (R439, R440). -/
opaque hmac : Nat → List Byte → Nat

/-- The Tally clocks for which updates of one contribution waited in a tile (R238): the manual fixes the rule for each element and not the order of a
tile's updates. Free; applied to the free-value counter. -/
opaque freeWaits : Nat → Nat

/-- SHA-384 of the body of a stored pattern pack (R364), by PACK_ID, TARGET and PACK_SEQ: the body is opaque to the model. -/
opaque packDigest : Nat → Nat → Nat → Nat

/-- The credits of each class that a peer's buffers give a port at bring-up (R122); the manual fixes no number. Free. -/
opaque initialCredit : Nat → Nat

/-- AES-256-GCM (R436), by the key and the IV: the ciphertext of bytes, and their 64-bit tag. -/
opaque gcmCipher : Nat → Nat → List Byte → List Byte
@[inherit_doc gcmCipher] opaque gcmTag : Nat → Nat → List Byte → Nat

/-- AES-256 key wrap (R430, R434). -/
opaque wrap : Nat → Nat → Nat
@[inherit_doc wrap] opaque unwrap : Nat → Nat → Nat

end Config
end Sys2Proof
end

