-- ==== Sys2Proof/Machine/State.lean ====
section
/-! DEFINITION. The state of one block, Leaf or Hub: every register, queue, counter, mode and pin that the manual
gives it, as plain data grouped by chapter, the queue of waiting commands, and the state after block reset.
Times are HT whole nanoseconds unless a field says otherwise. -/

set_option linter.unusedVariables false

namespace Sys2Proof.Machine

/-- Reasons for which the machine stops. -/
inductive Fault where
  /-- HT has reached 2⁶⁴ ns. Raised by the tick of an empty queue only; Table 2.3 says the point is never
  reached, so stopping there is safe. -/
  | htPastLimit
deriving DecidableEq, Repr

/-- Reasons for which a command has no meaning. -/
inductive Refusal where
  /-- The command has no meaning yet. Raised by an arm of `exec` only; safe. -/
  | notModelled (mnemonic : String)
deriving DecidableEq, Repr

/-! ## Chapter 2 and 21: time -/

/-- A stamp channel of ht_ev (R511): ht_ev_ns_c, the level of ht_ev_tgl[c], and the HT of the last stamped edge. -/
structure EvCh where
  stamp : Word := 0
  tgl : Bool := false
  last : Option HT := none
deriving DecidableEq, Repr

/-- A commanded HT step armed at this block (R36, R469, R488); `acked` is the number of blocks that have not yet
acknowledged it at the top pair. -/
structure HtStepArm where
  d : Int
  eff : HT
  src : Option CmdSrc := none
deriving DecidableEq, Repr

/-- Hall Time, its registers and shadows, and the TAI mapping (chapter 2). -/
structure TimeSt where
  ht48 : Nat := 0
  valid : Bool := false
  slew : Bool := false
  stepCnt : Nat := 0
  shHi : Word := 0
  shFrac : Word := 0
  ofs : Int := 0
  utc : Nat := 0
  leap : Nat := 0
  taiValid : Bool := false
  seq : Nat := 0
  pend : Option TaiMap := none
  shTaiHi : Word := 0
  shTaiCtl : Word := 0
  word : StatusWord := .freeRun
  changes : Nat := 0
  corr : Int := 0
  step : Option HtStepArm := none
  synLock : Bool := false
  synBack : Option HT := none
  synLost : Bool := false
  ev : Tbl EvCh := []
deriving DecidableEq, Repr

/-! ## Chapter 3: references and the DPLL -/

/-- One reference (R62, R68). `wtrStart` is when the wait-to-restore time last began; `gates` counts gates since
start-up for the exception of R69. -/
structure RefSt where
  rank : Nat := 15
  qualified : Bool := false
  disq : Bool := false
  los : Bool := false
  freqOor : Bool := false
  phaseOor : Bool := false
  wtrStart : Option HT := none
  gates : Nat := 0
  y : Rat := 0
  lastEdge : HT := 0
  lastPps : HT := 0
  lastReport : HT := 0
  ofs3Log : List (HT × Int) := []
  phase : Int := 0
deriving DecidableEq, Repr

/-- A pair of references under R73 to R75: consecutive gates above the threshold, the Disputed mark, and since when
the pair has agreed within 0.8 of the threshold. -/
structure DispSt where
  count : Nat := 0
  marked : Bool := false
  agreeSince : Option HT := none
  nDisq : Bool := false
  mDisq : Bool := false
deriving DecidableEq, Repr

/-- One counted learning bin (R82): its mean temperature in °C, its mean FCW in ppb, and the HT of its end. -/
structure Bin where
  t : Rat
  y : Rat
  at_ : HT
deriving DecidableEq, Repr

/-- The DPLL, its references, its oscillator and its holdover model (chapter 3). `pullLeft` is the phase that is still to be moved, in units of
2⁻⁴⁸ ns; `lockRun` and `unlockRun` count the ticks for which the criteria of R90 have held without interruption; `binFcw` and `binN` are the sum of FCW over the
learning bin in progress and its ticks. -/
structure DpllSt where
  state : StatusWord := .freeRun
  mode : Nat := 0
  modeRef : Nat := 0
  active : Option Nat := none
  pull : Bool := false
  pullLeft : Int := 0
  lockRun : Nat := 0
  unlockRun : Nat := 0
  fslew : Bool := false
  fcw : Int := 0
  fcwTarget : Int := 0
  fcwLog : List (HT × Int) := []
  fcwTgl : Bool := false
  shFcwHi : Word := 0
  warmN : Bool := true
  ocxoRun : Bool := true
  trusted : Bool := false
  settleStart : Option HT := none
  hist : BitVec 22 := 0
  histIe : BitVec 22 := 0
  holdEntry : Option HT := none
  holdF0 : Int := 0
  holdFe : Rat := 0
  holdSeconds : Nat := 0
  phaseErr : Int := 0
  phaseTarget : Int := 0
  uplinkInput : Bool := false
  refs : Tbl RefSt := []
  disp : Tbl DispSt := []
  cfg : RefCfg := {}
  cfgBusyUntil : HT := 0
  lastMsg : HT := 0
  msgSec : Option (Nat × HT) := none
  msgBad : Bool := false
  openAt : HT := 0
  openStatus : StatusWord := .freeRun
  openExpired : Bool := false
  model : ModelData := {}
  modelLoaded : Bool := false
  frozen : Bool := false
  usable : Bool := false
  bins : List Bin := []
  binClean : Bool := false
  binFcw : Int := 0
  binN : Nat := 0
  a1Fit : Bool := false
  b1Fit : Bool := false
  b2Fit : Bool := false
  resid : Nat := 0
  tempDie : Rat := 0
  tempExt : Rat := 0
  tempAt : HT := 0
  stale : Bool := false
deriving DecidableEq, Repr

/-! ## Chapter 4: the TDC -/

/-- One TDC channel (Table 4.5). Extended stamps are in units of 62.5 ps; `stamps` holds, oldest first, the edge index and
the stamp of the gate in units of 7.8125 ps, after the dither is subtracted, and `sample` the latest stamp of the channel in the same units. -/
structure TdcCh where
  cfg : TdcCfg := {}
  pendCfg : Option TdcCfg := none
  level : Bool := false
  holdEnd : Option Nat := none
  edges : Nat := 0
  divCnt : Nat := 0
  stamps : List (Nat × Nat) := []
  taken : Nat := 0
  gateStart : Nat := 0
  gateHt : HT := 0
  dith : Nat := 0
  lastStamp : Option Nat := none
  sample : Option Nat := none
  lastRawC : Nat := 0
  nstamp : Nat := 0
  valid : Bool := false
  wrap : Bool := false
  cap : Bool := false
  few : Bool := false
  gap : Bool := false
  fifoOvf : Bool := false
  loop : Bool := false
  gateSeq : Nat := 0
  y : Word := 0
  yPpb : Rat := 0
  calOfs : Int := 0
  calInternal : Int := 0
  fifo : List (Nat × Nat) := []
  shHi : Word := 0x80
deriving DecidableEq, Repr

/-- A calibration in progress (R114): `got` is the number of edges stamped and the sum of stamp less strike time, in units of 2⁻⁸ ns. -/
structure CalRun where
  ch : Nat
  po : Nat
  path : CalPath
  count : Nat
  start : HT
  src : CmdSrc
  got : Nat × Int := (0, 0)
deriving DecidableEq, Repr

/-- The TDC of the block (chapter 4). `coarse` counts without wrapping; COARSE is its value modulo 2³². `busFrac` is the part of a
count that the clock bus has advanced beyond it, in units of 2⁻⁵⁶ (R111). -/
structure TdcSt where
  coarse : Nat := 0
  busFrac : Nat := 0
  ch : Tbl TdcCh := []
  ancCnt : Word := 0
  ancHt : Word := 0
  cal : Option CalRun := none
deriving DecidableEq, Repr

/-! ## Chapter 5: ports and time transport -/

/-- The state of a port's bring-up (R540). -/
inductive BringUp where
  | down | locking | waiting | exchanging | complete
deriving DecidableEq, Repr

/-- What the block hands to a port, to the chord, to the fabric or to a peer for sending: the messages of Table 1.5
and of the chapters that name them. -/
inductive TxMsg where
  | timing (b : TimingBody)
  | bringUp (i : Ident)
  | exchange (nonce share : Nat)
  | arrival (slot gen id inst : Nat) (d : Option Nat)
  | release (slot gen id inst : Nat) (s : HT)
  | contribution (k : ChunkKey) (d : CollData)
  | failNotice (k : ChunkKey) (code : St)
  | replayRequest (k : ChunkKey) (attempt : Nat)
  | replayMark (k : ChunkKey) (attempt : Nat)
  | result (k : ChunkKey) (d : CollData)
  | commit (m : CommitMsg)
  | resultAck (k : ChunkKey)
  | resultCopy (r : ResultCopy)
  | copyAck (k : ChunkKey)
  | leaseRenew (f : LeaseFlit)
  | leaseClaim (f : LeaseFlit)
  | leaseRelease (f : LeaseFlit)
  | leaseConfirm (f : LeaseFlit)
  | leaseRefuse (g : Nat) (f : LeaseFlit)
  | context (m : CtxMsg)
  | taiMap (m : TaiMap)
  | distribute (id : Nat) (d : DistCmd)
  | distAck (id : Nat) (code : St) (info : AckInfo)
  | notice (n : Notice)
  | forward (block m seq tier opcode : Nat) (mirrored : Bool) (bytes : BitVec 512) (resent : Bool)
  | forwardResp (src : CmdSrc) (seq : Nat) (code : St) (results : List Byte)
  | mirror (m : MirrorMsg)
  | epochRecord (digest : Nat)
  | pack (p : Pack)
  | saveStop (slot gen handle saveId : Nat) (final : Bool)
  | owed (slot gen handle saveId inst : Nat) (chunks committed : List Nat)
  | released (slot gen handle inst : Nat) (chunks : List Nat)
  | manifest (slot gen digest label : Nat)
  | fabricWrite (addr : Nat) (bytes : List Byte) (poison : Bool) (qos : Nat)
  | plumb (b : CtlBody)
deriving DecidableEq, Repr

/-- One message handed to a port. Ports are numbered as in R152; 1000 is the fabric port. -/
structure TxItem where
  port : Nat
  msg : TxMsg
deriving DecidableEq, Repr

/-- The TYPE of a flit (Table 5.2). -/
inductive FlitType where
  | idle | timing | bringUp | control | data | mirror
deriving DecidableEq, Repr

/-- A flit as it leaves on a port (R121, R131, R132, Table 5.2). `key` and `count` are the key and the count of flits behind its tag, with the salt
of its direction in `salt`, while AUTH is 1; `body` is what it carries, absent in an idle flit. -/
structure Flit where
  type : FlitType := .idle
  cls : Nat := 0
  auth : Bool := false
  enc : Bool := false
  seq : Nat := 0
  ack : Nat := 0
  slot : Nat := 0
  gen : Nat := 0
  crCtl : Nat := 0
  crRadio : Nat := 0
  crTen : Nat := 0
  nak : Bool := false
  key : Nat := 0
  salt : Nat := 0
  count : Nat := 0
  body : Option TxMsg := none
deriving DecidableEq, Repr

/-- The keys of a port: K_down, K_up, SALT_down, SALT_up and K_wrap (R429). -/
structure PortKeys where
  down : Nat
  up : Nat
  saltDown : Nat
  saltUp : Nat
  wrap : Nat
deriving DecidableEq, Repr

/-- One Dexora port (Table 5.7 and the link rules of chapter 5). Delays, A and E are in units of 2⁻⁸ ns, TX_HT and RX stamps in units of 2⁻¹⁶ ns.
`replay` holds each numbered flit sent and not acknowledged with the HT at which it left first, `resend` those that a replay sends again;
`nakPend` says that flits are discarded until the missing one arrives, `nakOut` that the next flit carries NAK, and `retCtl`, `retRadio`,
`retTen` the credits to be returned, `withheld` those of flits (by chunk and class) that wait in the ingress buffer (R122, R266). `line` is the flit of the slot in progress, `slotNo` and `slotPeriod` the number of that slot and its period of
512 ns, `lineAcc` the line time since it began, in units of 1/257 ns, and `txCount` the count of flits sent since bring-up. -/
structure PortSt where
  bring : BringUp := .down
  up : Bool := false
  timeUsable : Bool := false
  source : Bool := false
  calibrated : Bool := false
  suspect : Bool := false
  rttStep : Bool := false
  lostFrames : Bool := false
  authFail : Bool := false
  retryDown : Bool := false
  peerMismatch : Bool := false
  plumbMismatch : Bool := false
  downCnt : Nat := 0
  rtt : Int := 0
  asym : Int := 0
  phase : Int := 0
  fecCorr : Nat := 0
  fecUncorr : Nat := 0
  replays : Nat := 0
  authFails : Nat := 0
  phyRdy : Bool := false
  rxLock : Nat := 0
  held : Bool := false
  peer : Option Ident := none
  everUp : Bool := false
  nonce : Nat := 0
  peerNonce : Nat := 0
  share : Nat := 0
  exchStart : HT := 0
  keys : Option PortKeys := none
  lastGood : HT := 0
  lastTiming : HT := 0
  timingRun : Nat := 0
  nSamples : Nat := 0
  samples : List Int := []
  stepRun : List Int := []
  sentTx : List (Nat × Nat) := []
  echoes : List (Nat × Nat) := []
  lostTiming : Bool := false
  phases : List Int := []
  rttAt : HT := 0
  peerPrimary : Bool := false
  peerEpoch : Nat := 0
  peerStatus : StatusWord := .freeRun
  lastPeriod : Option Nat := none
  txSeq : Nat := 0
  replay : List (Flit × HT) := []
  resend : List Flit := []
  rxSeq : Nat := 0
  nakPend : Bool := false
  nakOut : Bool := false
  retCtl : Nat := 0
  retRadio : Nat := 0
  retTen : Nat := 0
  withheld : List (ChunkKey × Nat) := []
  txCount : Nat := 0
  lineAcc : Nat := 0
  slotNo : Nat := 0
  slotPeriod : Nat := 0
  line : Option Flit := none
  seqReplays : Tbl Nat := []
  replayAt : List HT := []
  tagFailSeq : Option Nat := none
  creditCtl : Nat := 0
  creditRadio : Nat := 0
  creditTen : Nat := 0
  mismatchRun : Nat := 0
  lastClaim : Option HT := none
  theta : Int := 0
  refDelay : Int := 0
deriving DecidableEq, Repr

/-- The mode of the replica servo (R145). -/
inductive ServoMode where
  | tracking | pull | recovery
deriving DecidableEq, Repr

/-- A Plumb commissioning in progress (R140); `src` is absent at the parent end. `ext` and `got` are the edges stamped in steps 1 and 2 with the sum of
stamp less strike time, in units of 2⁻⁸ ns; `peer` is what the parent found: its mean of step 2 and its external-path delay. -/
structure PlumbRun where
  args : PlumbArgs
  src : Option CmdSrc := none
  start : HT
  ext : Nat × Int := (0, 0)
  got : Nat × Int := (0, 0)
  peer : Option (Int × Int) := none
deriving DecidableEq, Repr

/-- Leaf time tracking and the up- or chord servo of a Hub (R143 to R148). -/
structure TsrcSt where
  source : Option Nat := none
  mode : Nat := 0
  slope : Nat := 20
  recSlope : Nat := 1000
  switches : Nat := 0
  servo : ServoMode := .tracking
  criteria : Bool := false
  goodRun : Nat := 0
  bigRun : Nat := 0
  asymChanged : Bool := false
  /-- The input that a Hub's servo follows (R148, R407): none, the chord (`some none`), or the upper Hub in a position. -/
  input : Option (Option Nat) := none
  lastUpdate : HT := 0
  plumb : Option PlumbRun := none
  errRec : Int := 0
deriving DecidableEq, Repr

/-! ## Chapter 6: Docket and timed outputs -/

/-- The user of a strike comparator (Table 6.1). -/
inductive CmpUser where
  | free | barrier
  | queue (q : Nat)
  | pulse (n : Nat)
  | frame (c : Nat)
  | cal (po : Nat)
deriving DecidableEq, Repr

/-- A docket entry held in a queue (Table 6.2), with the strike time of its comparator once armed. -/
structure DkEntry where
  bits : BitVec 256
  armed : Option HT := none
deriving DecidableEq, Repr

/-- A Docket queue (R157 to R166). `staging` holds words 0 to 6 of the push. -/
structure DkQueue where
  owner : Option Owner := none
  paired : Bool := false
  entries : List DkEntry := []
  halted : Bool := false
  pushFull : Bool := false
  pushErr : Bool := false
  failed : Bool := false
  failTag : Nat := 0
  failCode : Nat := 0
  staging : Tbl Word := []
  lastStrike : Option HT := none
  relH : Option HT := none
deriving DecidableEq, Repr

/-- A frame launch channel (R169, R170): TAG, the tag with which it was armed, and its outputs ln_fl_go[c] and ln_fl_tag_c. -/
structure FrameCh where
  mode : Nat := 0
  armed : Option HT := none
  late : Bool := false
  tag : Nat := 0
  armTag : Nat := 0
  lo : Word := 0
  hi : Word := 0
  slot : Nat := 0
  gen : Nat := 0
  go : Bool := false
  tagOut : Nat := 0
  lastStamp : Word := 0
deriving DecidableEq, Repr

/-- A pulse output (R171 to R174) and its level po_n. -/
structure PoSt where
  mode : Nat := 0
  period : Nat := 0
  offset : Int := 0
  width : Nat := 0
  slot : Nat := 0
  gen : Nat := 0
  realign : Bool := false
  merge : Bool := false
  align : Int := 0
  high : Bool := false
  fallAt : Option HT := none
  lastRise : Option HT := none
  changedAt : Option HT := none
  alignPend : Option HT := none
  alignSrc : Option CmdSrc := none
deriving DecidableEq, Repr

/-- The strike machinery (chapter 6). `lnTick` is the tick of the last launch toggles and their lines. -/
structure DocketSt where
  comps : Tbl CmpUser := []
  queues : Tbl DkQueue := []
  lnGo : BitVec 64 := 0
  lnTick : HT := 0
  lnLines : BitVec 64 := 0
  lnMerge : Bool := false
  frames : Tbl FrameCh := []
  pos : Tbl PoSt := []
deriving DecidableEq, Repr

/-! ## Chapter 7: sync words, waiters and barriers -/

/-- A translation entry (Table 7.1); ROLE 0 none, 1 producer, 2 consumer. -/
structure TrEntry where
  valid : Bool := false
  phys : Nat := 0
  counter : Bool := false
  saturate : Bool := false
  sat : Bool := false
  role : Nat := 0
  partner : Nat := 0
  limit : Nat := 0
deriving DecidableEq, Repr

/-- A queued update of a sync word (R184): source 1 fabric completion, 3 barrier release, 4 Docket DONE; `arrived` is the tick from
which it may be applied. -/
structure SyncUpd where
  slot : Nat
  vid : Nat
  phys : Nat
  amount : Word
  source : Nat
  arrived : HT
deriving DecidableEq, Repr

/-- A waiter (R187 to R190): STATE 0 free, 1 watching, 2 gated, and its outputs. Its times are cycles of wt_clk: `gateAt` is the cycle
c + 3 of the running wait, `deadline` the last cycle on which its word may still meet the threshold, `metAt` the cycle m on which it did,
and `abortAt` the cycle on which a refused request aborts. -/
structure Waiter where
  state : Nat := 0
  last : Nat := 0
  slot : Nat := 0
  vid : Nat := 0
  phys : Nat := 0
  counter : Bool := false
  thr : Word := 0
  gate : Bool := false
  gateAt : Nat := 0
  deadline : Option Nat := none
  metAt : Option Nat := none
  abortAt : Option Nat := none
  gateOut : Bool := false
  metOut : Bool := false
  abortOut : Bool := false
deriving DecidableEq, Repr

/-- A barrier definition held at a Leaf (R198): a0, the next instance to arrive, the releases fired here. -/
structure LBar where
  d : BarrierDef
  gen : Nat
  a0 : Word
  next : Nat := 0
  fired : Nat := 0
  lastInst : Option Nat := none
  lastS : HT := 0
deriving DecidableEq, Repr

/-- A pending release in a Leaf's release table (R202), with RELEASE_ID and LAUNCH of its barrier. `fireAt` is the tick on which it fires: S,
or the tick after a late one came (R203). -/
structure Rel where
  slot : Nat
  gen : Nat
  id : Nat
  inst : Nat
  s : HT
  fireAt : HT
  port : Nat
  rid : Nat
  launch : Nat
deriving DecidableEq, Repr

/-- An instance of a barrier at a pair (R199): the children heard, the D that each pair among them
reported (in units of 2⁻⁸ ns), H and S once known. -/
structure HInst where
  n : Nat
  arrived : List Nat := []
  ds : Tbl Nat := []
  h : Option HT := none
  s : Option HT := none
  forwarded : Bool := false
deriving DecidableEq, Repr

/-- A barrier definition held at a Hub (R197). -/
structure HBar where
  d : BarrierDef
  gen : Nat
  insts : List HInst := []
  completed : Nat := 0
deriving DecidableEq, Repr

/-- Sync store, waiters and barriers (chapter 7). Translation entries are keyed by slot × 4096 + virtual ID,
barriers by slot × 64 + ID. `used` lists the words updated on this tick, `usedNext` those that a register-port update takes on the next. -/
structure SyncSt where
  words : Tbl Word := []
  trans : Tbl TrEntry := []
  sat : Bool := false
  err : Bool := false
  errVid : Nat := 0
  errSlot : Nat := 0
  errSrc : Nat := 0
  errCode : Nat := 0
  errCount : Nat := 0
  queue : List SyncUpd := []
  used : List Nat := []
  usedNext : List Nat := []
  waiters : Tbl Waiter := []
  bars : Tbl (Option LBar) := []
  rels : List Rel := []
  late : Bool := false
  split : Bool := false
  hbars : Tbl (Option HBar) := []
  completed : Nat := 0
  freeing : Tbl (List Nat) := []
  clearAt : Tbl HT := []
deriving DecidableEq, Repr

/-! ## Chapters 8 and 9: Tally tiles -/

/-- A Tally tile (Table 9.13): STATE 0 idle, 1 active, 2 spare, 3 fenced, 4 testing. -/
structure Tile where
  state : Nat := 0
  radio : Bool := false
  resFails : Nat := 0
  sumFails : Nat := 0
  holdClks : Nat := 0
  panes : Tbl Pane := []
  testPassed : Bool := false
  idleSince : HT := 0
  events : List HT := []
deriving DecidableEq, Repr

/-! ## Chapter 10: collectives -/

/-- What has come of a chunk's stream, from one contributor or, at a Leaf, of its result: its bytes from OFS 0 on, the flits (OFS, data) that came ahead of them, the length that its last flit
gives, and the ranges that came under POISON. -/
structure RxBuf where
  child : Nat := 0
  bytes : List Byte := []
  ahead : List (Nat × List Byte) := []
  len : Option Nat := none
  bad : List (Nat × Nat) := []
  aux : Word := 0
  part : Bool := false
  /-- HUGE and TINY that came with a partial (log 84). -/
  flags : Nat := 0
deriving DecidableEq, Repr

/-- A chunk at a Leaf. `buf` is the chunk's part of the source as read so far, its sections one after another, and
`bad` the ranges (offset, length) of it that were returned poisoned; `panes` hold its accumulation, as pairs (tile, pane); `stream`,
`aux` and `streamBad` are the stream once it can be sent, retained until the commit message; `part` says that it is a
partial, and `stuck` that its failure notice waits for room in the window (R262). -/
structure LChunk where
  buf : List Byte := []
  bad : List (Nat × Nat) := []
  panes : List (Nat × Nat) := []
  flags : Nat := 0
  stream : Option (List Byte) := none
  aux : Word := 0
  streamBad : List (Nat × Nat) := []
  part : Bool := false
  sent : Bool := false
  noticed : Bool := false
  stuck : Bool := false
  committed : Bool := false
  done : Bool := false
  code : St := .ok
  cflags : Nat := 0
  result : RxBuf := {}
  writing : Bool := false
  attempt : Nat := 0
  failedTiles : List Nat := []
deriving DecidableEq, Repr

/-- A collective planned at a Leaf (R254 to R259). `acc` and `ret` are the panes reserved for accumulation and for
retention (R260, R262), as pairs (tile, pane); `sent` and `committed` count modulo 2³². `stopped` and `owed` follow a save
and a resume (R358, R359). `started` counts instances started. -/
structure LColl where
  desc : BitVec 512
  w : Nat
  src : Option Nat := none
  started : Nat := 0
  running : Bool := false
  ended : Bool := false
  failed : Bool := false
  chunks : Tbl LChunk := []
  sent : Word := 0
  committed : Word := 0
  code : Nat := 0
  flags : Nat := 0
  acc : List (Nat × Nat) := []
  ret : List (Nat × Nat) := []
  noSignal : Bool := false
  stopped : Bool := false
  owed : Option (List Nat) := none
deriving DecidableEq, Repr

/-- A collective planned at a Hub (R254), with the newest instance seen (R543), the first M of that instance (R265),
the SENT and COMMITTED of this pair as a contributor (R262), the chunks of that instance that some contributor has released at a former
primary (R413), and what saving, staging and resuming it ask (R358 to R360). -/
structure HPlan where
  desc : BitVec 512
  w : Nat
  newest : Nat := 0
  m : Option (Nat × Word) := none
  sent : Word := 0
  committed : Word := 0
  ret : List (Nat × Nat) := []
  saving : Option (Nat × Option CmdSrc) := none
  stageOut : Option (Nat × CmdSrc) := none
  stageIn : Option (Nat × CmdSrc) := none
  stageInst : Option Nat := none
  resumed : Option Nat := none
  done : List Nat := []
  ackd : Nat := 0
  released : List Nat := []
deriving DecidableEq, Repr

/-- Chunk states of Table 10.5 (Unmapped chunks are not listed). -/
inductive ChunkState where
  | waiting | open_ | spilling | spilled | reloading | draining | replay | gated | forwarded | committed | failed
deriving DecidableEq, Repr

/-- A chunk held at a Hub (Table 10.5). `waiting` chunks are Unmapped with arrivals in the ingress buffer. `rx` holds
the streams in arrival, `arrived` the contributors whose stream was applied, `heard` those that sent a notice, `discard`
those whose flits are discarded until their replay mark. `image` holds spilled panes. `result` is the rounded result, or
the packed partial of a lower pair, of which `pos` bytes are sent; `msg` is the commit message, `upAttempt` the attempt that
the pair above last named. -/
structure HChunk where
  key : ChunkKey
  state : ChunkState := .waiting
  tile : Nat := 0
  panes : List Nat := []
  rx : List RxBuf := []
  arrived : List Nat := []
  heard : List Nat := []
  discard : List Nat := []
  attempt : Nat := 0
  failedTiles : List Nat := []
  failCode : Option St := none
  cflags : Nat := 0
  lastUpd : HT := 0
  image : List Pane := []
  result : List Byte := []
  partBad : List (Nat × Nat) := []
  rflags : Nat := 0
  hallmark : Option Nat := none
  msg : Option CommitMsg := none
  acked : List Nat := []
  copyAcked : Bool := false
  pos : Nat := 0
  upAttempt : Nat := 0
  noticed : Bool := false
  fromSave : Bool := false
deriving DecidableEq, Repr

/-- Collective state (chapter 10). Keys are slot × 512 + handle. -/
structure CollSt where
  leaf : Tbl (Option LColl) := []
  hub : Tbl (Option HPlan) := []
  chunks : List HChunk := []
  copies : List ResultCopy := []
  qSlot : Option Nat := none
  qState : Word := 0
  qCode : Word := 0
  qWin : Word := 0
  spills : Nat := 0
deriving DecidableEq, Repr

/-! ## Chapter 11: classes and scheduling -/

/-- A context's weight and shaper (R289, R290); tokens in units of 2⁻¹⁰ byte... held as bytes × 80. -/
structure ShapeSt where
  weight : Nat := 16
  rate : Nat := 0
  burst : Nat := 65536
  tokens80 : Nat := 5242880
  held : Bool := false
deriving DecidableEq, Repr

/-- The tags of one context queue at one scheduler (R288). -/
structure WfqTag where
  s : Word := 0
  f : Word := 0
deriving DecidableEq, Repr

/-- Class and scheduling state (chapter 11). `upSlots` is the RADIO_SLOTS of the upper pair, used on the up-groups (R281). Scheduler places: port p is p, tile ingress t is 1000 + t, the
sequencer is 2000; tags are keyed by place × 256 + slot; `awake` lists the queues that are backlogged and eligible. -/
structure SchedSt where
  radioSlots : Nat := 8
  slotsPend : Option (Nat × HT) := none
  upSlots : Nat := 8
  upSlotsPend : Option (Nat × HT) := none
  radioTiles : Nat := 8
  tilesPend : Option (Nat × HT) := none
  radioShort : Bool := false
  shape : Tbl ShapeSt := []
  virt : Tbl Word := []
  tags : Tbl WfqTag := []
  awake : List Nat := []
deriving DecidableEq, Repr

/-! ## Chapter 12: Hallmarks -/

/-- A Hallmark record (Table 12.4). -/
structure HmRec where
  hallmark : Nat
  label : Nat
  step : Nat
  chunk : Nat
  flags : Nat
  key : ChunkKey
deriving DecidableEq, Repr

/-- A signed batch (Table 12.4). -/
structure Batch where
  seq : Nat
  htFirst : HT
  htLast : HT
  pairId : Nat
  pos : Nat
  prev : Nat
  recs : List HmRec
  sig : Nat
deriving DecidableEq, Repr

/-- Assay, manifests, batches and archive (chapter 12). -/
structure HmSt where
  assay : Nat := 0
  assaySlot : Nat := 0
  failEntry : Nat := 0
  manifests : Tbl (Option (Nat × Nat)) := []
  batch : List HmRec := []
  firstHt : HT := 0
  lastHt : HT := 0
  nextSeq : Nat := 0
  prev : Nat := 0
  archive : List Batch := []
  hmWrap : Bool := false
  shadows : List HmRec := []
  shSeqHi : Word := 0
deriving DecidableEq, Repr

/-! ## Chapter 13: faults and the Daybook -/

/-- A Daybook record (Table 13.4); its CRC is a function of the other fields. -/
structure DbRec where
  ht : HT
  seq : Nat
  unit : Nat
  sub : Nat := 0
  event : Nat
  code : Nat := 0
  op : Nat := 0
  cls : Nat := 0
  temp : Nat := 0
  volt : Nat := 0
  slot : Nat := 0
  gen : Nat := 0
  handle : Nat := 0
  step : Nat := 0
  chunk : Nat := 0
  syndrome : List Byte := []
deriving DecidableEq, Repr

/-- An entry of the notice queue (R535). -/
structure NoticeEntry where
  event : Nat
  unit : Nat
  port : Nat
  self : Bool
  seqLo : Nat
deriving DecidableEq, Repr

/-- Fence maps, Daybook and notices (chapter 13, R535). `upWait` holds, oldest first, what waits for a link toward the upper pair (R26, R30): the
port it must leave on, where it is bound to one, and the message. -/
structure FaultSt where
  tilesMap : Nat := 0
  portsMap : Nat := 0
  chordMap : Nat := 0
  peerTiles : Nat := 0
  peerPorts : Nat := 0
  peerChord : Nat := 0
  peerTileSt : Tbl (Nat × List HT) := []
  noSpare : Bool := false
  poisonSeen : Bool := false
  fenceBusy : Bool := false
  dbFull : Bool := false
  buf : List DbRec := []
  nextSeq : Nat := 0
  dropped : Nat := 0
  lastEvent : Nat := 0
  lastUnit : Nat := 0
  shDbHi : Word := 0
  notices : List NoticeEntry := []
  noticeOvf : Bool := false
  upWait : List (Option Nat × TxMsg) := []
  shN1 : Word := 0
  shN2 : Word := 0
deriving DecidableEq, Repr

/-! ## Chapter 14: journal memory -/

/-- A journal channel (Table 14.7). `recent` lists the corrections of the last second as (device, page, HT), `scrub` the page and access
that the scrubber read last. -/
structure Chan where
  trained : Bool := false
  failed : Bool := false
  mark : Option Nat := none
  corr : Nat := 0
  uncorr : Nat := 0
  recent : List (Nat × Nat × HT) := []
  lastRec : Option HT := none
  doubled : Bool := false
  refreshes : Nat := 0
  lastRefresh : HT := 0
  zqs : Nat := 0
  lastZq : HT := 0
  lastMr4 : HT := 0
  phyGrants : Nat := 0
  scrub : Option (Nat × Nat) := none
  scrubAt : Option HT := none
deriving DecidableEq, Repr

/-- The state of a journal page (R351). -/
inductive PageState where
  | free
  | inUse (use : Nat)
  | retired
  | failed
deriving DecidableEq, Repr

/-- A journal page (R351, R353). `count` is the write count of the pane image that begins on it, when it is encrypted (R436). -/
structure Page where
  state : PageState := .free
  valid : Bool := false
  poison : Bool := false
  count : Option Nat := none
deriving DecidableEq, Repr

/-- The journal (chapter 14). -/
structure JournalSt where
  ready : Bool := false
  fail : Bool := false
  quotaCut : Bool := false
  ueSeen : Bool := false
  chans : Tbl Chan := []
  pages : Tbl Page := []
  banks : List (Nat × Nat) := []
  retired : List Nat := []
  scrubHours : Nat := 24
  passes : Nat := 0
  saves : Tbl (Option Save) := []
  stages : Tbl (Option Stage) := []
  spillPages : List (ChunkKey × List Nat) := []
  archivePages : List Nat := []
  writeBacks : List (Nat × Nat) := []
deriving DecidableEq, Repr

/-! ## Chapter 15: structural test -/

/-- A running test (R369). -/
structure TestRun where
  unit : UnitId
  packSlot : Nat
  prev : Nat
  src : CmdSrc
  started : Nat := 0
deriving DecidableEq, Repr

/-- Pattern packs and tests (chapter 15). -/
structure TestSt where
  packs : Tbl (Option Pack) := []
  runs : List TestRun := []
  done : Bool := false
  fail : Bool := false
  packErr : Bool := false
  lastUnit : Nat := 0
  portPassed : List Nat := []
deriving DecidableEq, Repr

/-! ## Chapter 16: clocks and power -/

/-- A stretch group (Table 16.12). `target` is the point that a change in progress goes to, `restartAt` when its clock
restarts; `interval` counts the stretched periods of the present interval of R384. -/
structure Grp where
  freq : Nat := 3
  stopped : Bool := false
  stopping : Bool := false
  pend : Option (Nat × HT) := none
  margin : Nat := 3
  stretchHigh : Bool := false
  stretches : Nat := 0
  restartAt : Option HT := none
  target : Nat := 0
  interval : Nat := 0
  intervalAt : HT := 0
deriving DecidableEq, Repr

/-- A switched power domain (R389 to R391). -/
structure Dom where
  on : Bool := false
  turningOn : Bool := false
  turningOff : Bool := false
  wanted : Bool := false
  setting : PwrSetting := .on
  idle : Nat := 1000000
deriving DecidableEq, Repr

/-- The running power step (R395): its index, the next action, and the start of a WAIT or DELAY. -/
structure StepRun where
  step : Nat
  act : Nat
  since : Option HT := none
deriving DecidableEq, Repr

/-- Clocks and power (chapter 16). -/
structure PowerSt where
  groups : Tbl Grp := []
  syncPend : Option (List Nat × HT) := none
  syncRestart : Option HT := none
  doms : Tbl Dom := []
  onTimes : List HT := []
  plan : Option Plan := none
  run : Option StepRun := none
  waiting : List Nat := []
  timeout : Bool := false
  conflict : Bool := false
  overrun : Bool := false
  unsolicited : Bool := false
  lastStep : Nat := 0
  pmReq : BitVec 80 := 0
  pmAck : BitVec 80 := 0
  ckCtl : BitVec 160 := 0
deriving DecidableEq, Repr

/-! ## Chapter 17: the pair -/

/-- Pair roles (Table 17.1). -/
inductive Role where
  | syncing | partner | primary | claiming | isolated
deriving DecidableEq, Repr

/-- The value of ROLE (Table 17.1). -/
def Role.val : Role → Nat
  | .syncing => 0 | .partner => 1 | .primary => 2 | .claiming => 3 | .isolated => 4

/-- A handover waiting for its effective HT (R416). -/
structure Handover where
  eff : HT
  src : CmdSrc
deriving DecidableEq, Repr

/-- The mirrored state of a reference (Table 17.2): qualified, Disputed, disqualified, and when its wait-to-restore time began. -/
structure MirRef where
  qualified : Bool
  disputed : Bool
  disq : Bool
  wtr : Option HT
deriving DecidableEq, Repr

/-- Pair and lease state of a Hub, and the grant of a voter (chapter 17). `confs` holds the voters that confirmed each of the latest
renewals and claims, by send HT; `mirRefs` the mirrored state of each reference,
`mirHold` the mirrored holdover entry, `mirDisp` the pairs that the primary holds Disputed, `mirTarget` its phase target; `since` is when the role was taken,
`pairEx` this Hub's nonce and private share in a pair exchange that runs (R430). -/
structure PairSt where
  role : Role := .syncing
  solo : Bool := false
  chordLost : Bool := false
  failover : Bool := false
  lapsed : Bool := false
  failovers : Nat := 0
  epoch : Nat := 0
  newest : Nat := 0
  confs : List (HT × List Nat) := []
  mirRefs : Tbl (Option MirRef) := []
  mirHold : Option HT := none
  mirDisp : List Nat := []
  mirTarget : Int := 0
  since : HT := 0
  leaseEnd : Option HT := none
  lastRenew : Option HT := none
  lastClaim : Option HT := none
  lastNewClaim : Option HT := none
  chordRenewAt : HT := 0
  chordDownAt : Option HT := none
  chordPhase : Int := 0
  peerRole : Role := .syncing
  peerMirrorVer : Nat := 0
  handover : Option Handover := none
  stopMapping : Bool := false
  mirrorDone : Bool := false
  pairKey : Nat := 0
  pairEx : Option (Nat × Nat) := none
  gEpoch : Nat := 0
  gPos : Nat := 0
  gReleased : Bool := false
  gLastRenew : HT := 0
  seenEpoch : Nat := 0
deriving DecidableEq, Repr

/-! ## Chapter 18: contexts and keys -/

/-- One context slot (Table 18.9, Table 22.4). `ports` are the child indices of the participants at a Hub (R19, R23) and `leaves` the Leaves of the job below
each of them, above tier 1 (R208, R544); `clearReq`
says that a clear was ordered and its clear tick has not come. -/
structure Ctx where
  lastGen : Nat := 0
  open_ : Bool := false
  clearReq : Bool := false
  clearing : Bool := false
  resetting : Bool := false
  tenantKeyed : Bool := false
  enc : Bool := false
  radio : Bool := false
  term : Nat := 0
  key : Nat := 0
  cmdSeq : Nat := 0
  tier : Nat := 0
  ports : List Nat := []
  leaves : Tbl Nat := []
  spanHere : Bool := false
  closing : Option CmdSrc := none
  ackTo : Option (Nat × Nat) := none
  irq : BitVec 6 := 0
  irqEn : BitVec 6 := 0
  clearedAt : HT := 0
deriving DecidableEq, Repr

/-- Keys and debug state (chapter 18). -/
structure SecSt where
  keysValid : Bool := false
  enrolled : Bool := false
  ownerValid : Bool := false
  tapLocked : Bool := true
  unlocked : Bool := false
  pufOn : Bool := true
  peerFail : Bool := false
  stale : Nat := 0
  challenge : Option Nat := none
  attKey : Nat := 0
  certs : Option (Nat × Nat) := none
  helper : Nat := 0
  kJnl : Nat := 0
  jnlCount : Nat := 0
deriving DecidableEq, Repr

/-! ## Chapter 19: the Scrivener -/

/-- A mailbox (R457, R458): STATE 0 FREE, 1 POSTED, 2 RUNNING, 3 DONE. -/
structure Mailbox where
  cmd : Tbl Word := []
  resp : List Byte := []
  copy : Tbl Word := []
  state : Nat := 0
  irq : Bool := false
  irqDone : Bool := false
  go : Bool := false
  goErr : Bool := false
  code : Nat := 0
  seq : Nat := 0
  acceptHt : HT := 0
deriving DecidableEq, Repr

/-- A command forwarded from this block and not yet answered (R461, R462). -/
structure Fwd where
  src : CmdSrc
  seq : Nat
  sentAt : HT
  tier : Nat
  opcode : Nat
  slot : Nat
  msg : TxMsg
  overChord : Bool := false
deriving DecidableEq, Repr

/-- What a distributed command replaced at a block, so that a withdrawal can put it back (R546): LAST_GEN, the shaper of the
slot, and the RADIO_SLOTS that waited. -/
structure Undo where
  gen : Nat := 0
  shape : ShapeSt := {}
  pend : Option (Nat × HT) := none
deriving DecidableEq, Repr

/-- A command being distributed by this Hub (R546): the ports not yet heard, those that accepted, and the refusals. `up` is
the port and number under which an upper Hub distributed it, when this Hub only passes it on. -/
structure Dist where
  id : Nat
  cmd : DistCmd
  src : CmdSrc
  up : Option (Nat × Nat) := none
  waiting : List Nat
  accepted : List Nat := []
  refusals : List St := []
  ownOk : Bool := true
  deadline : Option HT := none
  infos : List (Nat × AckInfo) := []
  results : List Byte := []
  undo : Undo := {}
deriving DecidableEq, Repr

/-- A distributed command that this block accepted, by the port and number under which it came. -/
structure DistSeen where
  port : Nat
  id : Nat
  cmd : DistCmd
  undo : Undo := {}
deriving DecidableEq, Repr

/-- A completion record (R462). -/
structure Completion where
  block : Nat
  m : Nat
  seq : Nat
  code : St
  results : List Byte
deriving DecidableEq, Repr

/-- A pending activation (R467): `effective` once its HT has come, `failed` when the staged image did not verify. -/
structure Activation where
  kind : Nat
  eff : HT
  src : CmdSrc
  effective : Bool := false
  failed : Bool := false
deriving DecidableEq, Repr

/-- The Scrivener and its mailboxes (chapter 19). `events` lists the tiles that wait for firmware to fence them after a restart (R453, R454).
Mailbox `m` is host mailbox m; page of slot c is 256 + c. -/
structure ScrivSt where
  mbs : Tbl Mailbox := []
  order : List Nat := []
  restarting : Bool := false
  restarts : Nat := 0
  act : Option Activation := none
  eccCorr : Nat := 0
  guardTrips : Nat := 0
  fwds : List Fwd := []
  fwdIn : List (Nat × Nat × Nat × Nat) := []
  held : List (Nat × Nat × Nat) := []
  lastDone : Option (CmdSrc × St × List Byte) := none
  dists : List Dist := []
  seen : List DistSeen := []
  nextDist : Nat := 0
  completions : List Completion := []
  watchdog : HT := 0
  epochLog : List (Nat × Nat × Nat) := []
  epochAt : HT := 0
  epochLast : Option Nat := none
  epochMismatch : Bool := false
  mismatches : Nat := 0
  fwVersion : Nat := 0
  fwSvn : Nat := 0
  fwDigest : Nat := 0
  cfgDigest : Nat := 0
  mirrorVer : Nat := 0
  minSvn : Nat := 0
  staged : List Nat := []
  restartAt : HT := 0
  events : List Nat := []
  accepting : Bool := true
deriving DecidableEq, Repr

/-! ## Chapter 20: start-up and flash -/

/-- A boot record (Table 20.2), without its MAGIC and CRC. -/
structure BootRec where
  gen : Word := 0
  fwActive : Nat := 0
  cfgActive : Nat := 0
  trial : Bool := false
  trialRestarts : Nat := 0
  trialHt : HT := 0
deriving DecidableEq, Repr

/-- The contents of the flash that the block reads back (Table 21.10). `boots` holds the two copies of the boot record (R476), by their order in
flash; a copy that is absent is one whose MAGIC or CRC is wrong. -/
structure Flash where
  boots : Tbl (Option BootRec) := []
  helper : Option Nat := none
  certs : Option (Nat × Nat) := none
  fw : Tbl (Option Image) := []
  cfg : Tbl (Option Image) := []
  checkpoint : Option HT := none
  checkpointAt : HT := 0
  model : Option ModelData := none
  modelAt : HT := 0
  tilesMap : Nat := 0
  portsMap : Nat := 0
  chordMap : Nat := 0
  retired : List Nat := []
  banks : List (Nat × Nat) := []
  marks : Tbl (Option Nat) := []
  listOk : Bool := true
  epoch : Nat := 0
  asyms : List (Nat × Ident × Ident × Int) := []
  daybook : List DbRec := []
  packs : Tbl (Option Pack) := []
deriving DecidableEq, Repr

/-- Start-up state (Table 20.9), the configuration image in force, and the pins of the flash interface (R518): between accesses xs_sck is 0 and xs_cs_n is 1. -/
structure BootSt where
  stage : Nat := 0
  cfgValid : Bool := false
  fwFallback : Bool := false
  cfgFallback : Bool := false
  soloLoad : Bool := false
  selfReset : Bool := false
  stage3At : HT := 0
  cfg : CfgFields := {}
  leafIndex : Nat := 0
  placeValid : Bool := false
  pairId : Nat := 0
  xsSck : Bool := false
  xsCsN : Bool := true
  xsRstN : Bool := false
deriving DecidableEq, Repr

/-! ## Chapters 21 and 22: integration status and interrupts -/

/-- Integration status and interrupt registers (Tables 21.15 and 22.4). -/
structure IrqSt where
  synUnlock : Bool := false
  ocxoLoss : Bool := false
  phyDown : Bool := false
  evOvf : BitVec 4 := 0
  rdErr : Bool := false
  wrErr : Bool := false
  fbPoison : Bool := false
  flashErr : Bool := false
  en : BitVec 21 := 0
  force : BitVec 21 := 0
  timeChg : Bool := false
  taiApplied : Bool := false
  htStep : Bool := false
  scrivRestart : Bool := false
deriving DecidableEq, Repr

/-- The answer of the register port to the last transfer (R507). -/
structure RgResp where
  rdata : Word := 0
  err : Bool := false
deriving DecidableEq, Repr

/-! ## The state of the block -/

/-- The state of one block. `tx` is what the block has handed to its ports, oldest first; `freeCtr` is the model's
own counter of free values, and `pending` its queue of waiting commands. -/
structure State where
  params : Params
  time : TimeSt := {}
  dpll : DpllSt := {}
  tdc : TdcSt := {}
  ports : Tbl PortSt := []
  tsrc : TsrcSt := {}
  docket : DocketSt := {}
  sync : SyncSt := {}
  tiles : Tbl Tile := []
  coll : CollSt := {}
  sched : SchedSt := {}
  hm : HmSt := {}
  flt : FaultSt := {}
  jm : JournalSt := {}
  test : TestSt := {}
  pwr : PowerSt := {}
  pair : PairSt := {}
  ctx : Tbl Ctx := []
  sec : SecSt := {}
  scriv : ScrivSt := {}
  boot : BootSt := {}
  flash : Flash := {}
  irq : IrqSt := {}
  rg : RgResp := {}
  tx : List TxItem := []
  freeCtr : Nat := 0
  pending : List Instr := []
deriving DecidableEq, Repr

/-- The state after block reset of an instance with the given parameters and flash contents, with HT 0 and VALID 0
(R37, R474). The registers whose reset value is a parameter take it from `p`. -/
def State.resetOf (p : Params) (f : Flash) : State :=
  { params := p
    flash := f
    sched := { radioTiles := p.defRadioTiles }
    pwr := { pmReq := p.pmReqReset, ckCtl := p.ckCtlReset } }

/-- The state right after reset: a Hub-64 with the default parameters and an empty flash. -/
def State.reset : State := State.resetOf { config := .hub64 } {}

end Sys2Proof.Machine
end

