-- ==== Sys2Proof/WellFormed.lean ====
section
/-! DEFINITION. Which commands are well formed: every operand fits the field that the manual gives it. A value
that the manual lets a command carry and then refuses (with ST_RANGE, say) is well formed. -/

set_option linter.unusedVariables false

namespace Sys2Proof

/-- `n` fits an unsigned field of `w` bits. -/
def fits (w n : Nat) : Bool := decide (n < 2 ^ w)

/-- `v` fits a two's complement field of `w` bits. -/
def fitsInt (w : Nat) (v : Int) : Bool := decide (-(2 : Int) ^ (w - 1) ≤ v) && decide (v < (2 : Int) ^ (w - 1))

/-- A source of commands: host mailbox 0 to 15, the page of slot 0 to 255, or a forward (R457, R461). -/
def CmdSrc.wf : CmdSrc → Bool
  | .host m => decide (m < 16)
  | .page c => decide (c < 256)
  | .forward b m q => fits 32 b && fits 16 m && fits 32 q

/-- A command header: SLOT 8 bits, GEN 16 bits (Table 19.3), rg_ctx 8 bits (R507). -/
def CmdHdr.wf (h : CmdHdr) : Bool := h.src.wf && decide (h.access < 256) && decide (h.slot < 256) && fits 16 h.gen &&
  (match h.guard with | some g => fits 16 g.1 && fits 32 g.2 | none => true)

/-- A chunk identity (R321). -/
def ChunkKey.wf (k : ChunkKey) : Bool :=
  decide (k.slot < 256) && fits 16 k.gen && decide (k.handle < 512) && fits 32 k.inst && fits 32 k.chunk

/-- A TAI mapping: OFS 64-bit signed, UTC_OFS 8 bits, LEAP 2 bits (R48). -/
def TaiMap.wf (m : TaiMap) : Bool := fitsInt 64 m.ofs && decide (m.utc < 256) && decide (m.leap < 4) && fits 64 m.eff

/-- Identity fields of a bring-up flit (R25). -/
def Ident.wf (i : Ident) : Bool :=
  decide (i.config < 4) && decide (i.tier < 16) && fits 32 i.pairId && decide (i.pos < 2) && decide (i.port < 1024)

/-- A lease flit: a 32-bit LEASE_EPOCH and a send HT. -/
def LeaseFlit.wf (f : LeaseFlit) : Bool := fits 32 f.epoch && fits 64 f.sendHt

/-- The data of a collective flit (Table 10.4). -/
def CollData.wf (d : CollData) : Bool := fits 32 d.ofs

/-- A commit message (Table 10.6). -/
def CommitMsg.wf (m : CommitMsg) : Bool := m.key.wf && fits 32 m.flags && fits 32 m.resultBytes && fits 384 m.hallmark

/-- A unit identifier (Table 13.5). -/
def UnitId.wf (u : UnitId) : Bool := decide (u.kind < 16) && fits 12 u.idx

/-- A fault notice (R535). -/
def Notice.wf (n : Notice) : Bool := fits 16 n.event && fits 16 n.unit && fits 32 n.seqLo

/-- A context message (R434). -/
def CtxMsg.wf (m : CtxMsg) : Bool := decide (m.slot < 256) && fits 16 m.gen && fits 384 m.key && decide (m.span < 4) && (match m.mask with | some k => fits 4096 k | none => true)

/-- A barrier definition (Table 7.4). -/
def BarrierDef.wf (d : BarrierDef) : Bool :=
  decide (d.id < 256) && decide (d.spanTier < 256) && fits 256 d.mask && fits 16 d.arriveId && fits 32 d.step &&
    fits 16 d.releaseId && fits 64 d.launch && fits 32 d.margin

/-- A wait request at the wait port (R187). -/
def WaitReq.wf (r : WaitReq) : Bool := decide (r.waiter < 1024) && decide (r.ctx < 256) && decide (r.vid < 4096) && fits 32 r.tmo

/-- A failed comparison of a tile (Table 13.1). -/
def TileCheck.optWf : Option TileCheck → Bool
  | none => true
  | some t => decide (t.check < 256) && decide (t.pane < 1024)

/-- What an access returns (R346): wrong symbols lie in one of 8 codewords and one of 20 devices. -/
def JournalErr.wf (e : JournalErr) : Bool := e.errs.all (fun x => decide (x.cw < 8) && decide (x.dev < 20))

/-- The owner of a queue (R157). -/
def Owner.wf : Owner → Bool
  | .firmware => true
  | .ctx c g => decide (c < 256) && fits 16 g

/-- The arguments of CMD_PULSE_CONFIG (Table 6.8). -/
def PulseArgs.wf (a : PulseArgs) : Bool :=
  decide (a.mode < 256) && fits 64 a.period && fitsInt 64 a.offset && fits 32 a.width && decide (a.slot < 256) && fits 16 a.gen

/-- The configuration of a TDC channel (Table 4.4). -/
def TdcCfg.wf (c : TdcCfg) : Bool := decide (c.src < 256) && decide (c.edge < 256) && decide (c.hyst < 256) && fits 32 c.holdoff && fits 32 c.div && fits 32 c.gateMs && fits 32 c.fnom

/-- The arguments of CMD_PLUMB MEASURE (Table 5.6). -/
def PlumbArgs.wf (a : PlumbArgs) : Bool :=
  decide (a.port < 1024) && decide (a.poChild < 256) && decide (a.chChild < 256) && decide (a.poParent < 256) &&
    decide (a.chParent < 256) && fits 16 a.count

/-- The header of a numbered flit (Table 5.2): 12-bit SEQ and ACK, 6-bit credits, a count of codewords. -/
def Link.wf (l : Link) : Bool :=
  decide (l.port < 1024) && fits 12 l.seq && fits 12 l.ack && decide (l.crCtl < 64) && decide (l.crRadio < 64) && decide (l.crTen < 64) && fits 16 l.corr

/-- A timing flit (Table 5.3). -/
def TimingBody.wf (b : TimingBody) : Bool := fits 80 b.txHt && fits 80 b.echoTx && fits 32 b.echoDwell && fits 32 b.epoch && decide (b.stepCnt < 256)

/-- The contents of a control flit: slot 8 bits, generation 16 bits, handle 9 bits, digest 384 bits, LABEL 64 bits. -/
def CtlBody.wf : CtlBody → Bool
  | .idle => true
  | .manifest ch c g dg l => decide (ch < 1024) && decide (c < 256) && fits 16 g && fits 384 dg && fits 64 l
  | .saveStop c g h i _ => decide (c < 256) && fits 16 g && decide (h < 512) && decide (i < 256)
  | .released c g h n ks => decide (c < 256) && fits 16 g && decide (h < 512) && fits 32 n && ks.all (fun k => fits 32 k)
  | .owed c g h i n ks cs => decide (c < 256) && fits 16 g && decide (h < 512) && decide (i < 256) && fits 32 n && ks.all (fun k => fits 32 k) && cs.all (fun k => fits 32 k)
  | .plumbStart po ch n t => decide (po < 256) && decide (ch < 256) && fits 16 n && fits 64 t
  | .plumbFail _ => true
  | .plumbMeans m e => fitsInt 64 m && fitsInt 64 e
  | .plumbEnd a => (match a with | some v => fitsInt 32 v | none => true)

/-- A distributed command (R546). -/
def DistCmd.wf : DistCmd → Bool
  | .barrierDefine c g d => decide (c < 256) && fits 16 g && d.wf
  | .barrierDelete c g i => decide (c < 256) && fits 16 g && decide (i < 64)
  | .collOpen _ w => fits 16 w
  | .collClose c g h => decide (c < 256) && fits 16 g && decide (h < 512)
  | .ctxOpen m => m.wf
  | .ctxClose c g k => decide (c < 256) && fits 16 g && fits 16 k
  | .ctxShape c g w _ _ _ => decide (c < 256) && fits 16 g && fits 16 w
  | .classConfig r e => decide (r < 256) && fits 64 e
  | .htStep d e => fitsInt 64 d && fits 64 e
  | .slotReset c => decide (c < 256)
  | .withdraw i => fits 40 i
  | .confirm i => fits 40 i

/-- What an acknowledgement carries. -/
def AckInfo.wf (a : AckInfo) : Bool := fits 384 a.digest && fits 64 a.label && fits 16 a.panes && fits 32 a.leaves

/-- The participants of CMD_CTX_OPEN (R433). -/
def CtxOpenArgs.wf (a : CtxOpenArgs) : Bool := decide (a.spanTier < 256) && fits 4096 a.mask

/-- The configuration of the references (Table 3.7): four priorities. -/
def RefCfg.wf (c : RefCfg) : Bool := c.prio.length == 4 && c.ssmII.length == 3

/-- A command is well formed when each operand fits its field. -/
def Instr.wf : Instr → Bool
  | .powerOnReset => true
  | .blockReset => true
  | .startUp _ _ _ => true
  | .soloStartTimeout => true
  | .fwTrialClear => true
  | .htCheckpoint => true
  | .synLockFall => true
  | .synLockRestored => true
  | .ocxoLoss => true
  | .ocxoWarmChange _ => true
  | .ocxoSettleExpiry => true
  | .refLoss n => decide (n < 4)
  | .xsStatusMessage _ => true
  | .statusMessageTimeout => true
  | .qlTimeout n => decide (n < 4)
  | .tempTimeout => true
  | .waitToRestoreExpiry n => decide (n < 4)
  | .disputeClear n m => decide (n < 4) && decide (m < 4)
  | .lockCriteriaMet => true
  | .unlockCriteriaMet => true
  | .learningBinEnd _ => true
  | .modelFlashWrite => true
  | .holdoverLimitExpiry => true
  | .openLoopTimeout => true
  | .cmdTaiMap h _ utc leap eff => h.wf && decide (utc < 256) && decide (leap < 4) && fits 64 eff
  | .taiMapApply => true
  | .taiMapReceive l m => l.wf && m.wf
  | .cmdRefConfig h c => h.wf && c.wf
  | .cmdRefReport h _ => h.wf
  | .cmdDpllMode h mode ref => h.wf && decide (mode < 8) && decide (ref < 8)
  | .cmdDpllFcw h _ status => h.wf && decide (status < 8)
  | .holdoverModelRead h => h.wf
  | .holdoverModelLoad h _ => h.wf
  | .holdoverModelClear h => h.wf
  | .holdoverModelFreeze h => h.wf
  | .holdoverModelResume h => h.wf
  | .tdcEdgeAccept ch _ _ _ => decide (ch < 32)
  | .holdoffEnd ch _ => decide (ch < 32)
  | .tdcGateEnd ch => decide (ch < 32)
  | .tdcAnchorLatch => true
  | .cmdTdcConfig h ch c => h.wf && decide (ch < 256) && c.wf
  | .cmdTdcCal h ch po _ count => h.wf && decide (ch < 256) && decide (po < 256) && fits 16 count
  | .tdcCalComplete => true
  | .plumbMeasure h a => h.wf && a.wf
  | .plumbComplete => true
  | .plumbLoad h port _ => h.wf && decide (port < 1024)
  | .plumbRead h port => h.wf && decide (port < 1024)
  | .plumbClearSuspect h port => h.wf && decide (port < 1024)
  | .cmdTsrcConfig h mode slope recSlope => h.wf && decide (mode < 8) && fits 16 slope && fits 16 recSlope
  | .cmdHtStep h _ _ eff => h.wf && fits 64 eff
  | .htStepApply => true
  | .htStepArmingDeadline => true
  | .portBringUpStart p => decide (p < 1024)
  | .bringUpFlitReceive p i => decide (p < 1024) && i.wf
  | .keyExchangeStart p => decide (p < 1024)
  | .keyExchangeReceive p _ _ => decide (p < 1024)
  | .phyDown p => decide (p < 1024)
  | .timingFlitSend p k => decide (p < 1024) && decide (k < 256)
  | .timingFlitReceive l b _ _ k => l.wf && b.wf && decide (k < 256)
  | .controlFlitReceive l slot gen body => l.wf && decide (slot < 256) && fits 16 gen && body.wf
  | .corruptFlitReceive p _ _ _ corr => decide (p < 1024) && fits 16 corr
  | .portNoFlitTimeout p => decide (p < 1024)
  | .portTimingLoss p => decide (p < 1024)
  | .servoUpdate => true
  | .rttEstimateUpdate p => decide (p < 1024)
  | .docketPushWord q w _ access => decide (q < 64) && decide (w < 8) && decide (access < 256)
  | .docketPushCommit q _ access => decide (q < 64) && decide (access < 256)
  | .docketEntryReady q => decide (q < 64)
  | .docketStrike q => decide (q < 64)
  | .docketFlush q access => decide (q < 64) && decide (access < 256)
  | .docketResume q access => decide (q < 64) && decide (access < 256)
  | .docketBind h q o _ => h.wf && decide (q < 64) && o.wf
  | .docketLoad h q o _ count _ => h.wf && decide (q < 64) && o.wf && fits 16 count
  | .docketUnbind h q o => h.wf && decide (q < 64) && o.wf
  | .frameStrikeArm c _ access => decide (c < 4) && decide (access < 256)
  | .frameDirectStrike c => decide (c < 4)
  | .pulseEdge n => decide (n < 8)
  | .pulseWidthEnd n => decide (n < 8)
  | .cmdPulseConfig h a => h.wf && a.wf
  | .cmdPulseAlign h mask eff => h.wf && fits 32 mask && fits 64 eff
  | .pulseAlignApply n => decide (n < 8)
  | .syncSet ctx vid _ => decide (ctx < 256) && fits 12 vid
  | .syncAdd ctx vid _ => decide (ctx < 256) && fits 12 vid
  | .syncSubtract ctx vid _ => decide (ctx < 256) && fits 12 vid
  | .syncReadIncrement page ctx vid => fits 32 page && decide (ctx < 256) && fits 12 vid
  | .syncUpdateApply phys => fits 16 phys
  | .waitRequest r => r.wf
  | .waitTimeout w => decide (w < 1024)
  | .waitCancel w access => decide (w < 1024) && decide (access < 256)
  | .syncMap h first count _ _ => h.wf && fits 12 first && fits 16 count
  | .syncUnmap h first count => h.wf && fits 12 first && fits 16 count
  | .syncMapRead h first count => h.wf && fits 12 first && fits 16 count
  | .syncSetMode h first count _ _ => h.wf && fits 12 first && fits 16 count
  | .syncPairDefine h producer consumer n => h.wf && fits 12 producer && fits 12 consumer && fits 32 n
  | .syncPairDelete h producer consumer => h.wf && fits 12 producer && fits 12 consumer
  | .contextClear slot => decide (slot < 256)
  | .contextClearComplete slot => decide (slot < 256)
  | .paneClearAfterTeardown tile pane => decide (tile < 64) && decide (pane < 1024)
  | .slotResetComplete slot => decide (slot < 256)
  | .cmdBarrierDefine h d => h.wf && d.wf
  | .cmdBarrierDelete h id => h.wf && decide (id < 64)
  | .barrierArrivalReceive l slot gen id inst _ => l.wf && decide (slot < 256) && fits 16 gen && decide (id < 64) && fits 32 inst
  | .barrierReleaseReceive l slot gen id inst s => l.wf && decide (slot < 256) && fits 16 gen && decide (id < 64) && fits 32 inst && fits 64 s
  | .barrierReleaseFire => true
  | .collPlanOpen h addr _ w => h.wf && fits 64 addr && fits 16 w
  | .collPlanClose h handle => h.wf && decide (handle < 512)
  | .cmdCollBind h handle src => h.wf && decide (handle < 512) && fits 64 src
  | .collStart ctx _ => decide (ctx < 256)
  | .collQuery ctx _ => decide (ctx < 256)
  | .chunkSend slot handle chunk => decide (slot < 256) && decide (handle < 512) && fits 32 chunk
  | .contributionFlitReceive l k d fail => l.wf && k.wf && d.wf && TileCheck.optWf fail
  | .chunkMap k => k.wf
  | .spillReloadComplete k _ => k.wf
  | .contributionNoticeReceive l k _ => l.wf && k.wf
  | .drainComplete k fail => k.wf && TileCheck.optWf fail
  | .resultCopyReceive l r => l.wf && r.msg.wf
  | .resultCopyAck l k => l.wf && k.wf
  | .replayRequestReceive l k attempt _ => l.wf && k.wf && decide (attempt < 256)
  | .replayMarkReceive l k attempt => l.wf && k.wf && decide (attempt < 256)
  | .resultFlitReceive l k d => l.wf && k.wf && d.wf
  | .commitMessageReceive l epoch m => l.wf && fits 32 epoch && m.wf
  | .resultAckReceive l k => l.wf && k.wf
  | .fabricReadResponse k addr _ fail => k.wf && fits 64 addr && TileCheck.optWf fail
  | .fabricWriteResponse k _ => k.wf
  | .cmdClassConfig h _ radioSlots radioTiles eff => h.wf && fits 16 radioSlots && fits 16 radioTiles && fits 64 eff
  | .radioSlotsApply => true
  | .radioTilesApply => true
  | .cmdCtxShape h weight _ _ _ => h.wf && fits 16 weight
  | .shaperEligible slot => decide (slot < 256)
  | .hallmarkBatchClose => true
  | .cmdHallmarkRead h first count addr len _ _ => h.wf && fits 64 first && fits 16 count && fits 64 addr && fits 32 len
  | .manifestRegister h _ _ _ => h.wf
  | .manifestVerify h _ _ => h.wf
  | .manifestRead h => h.wf
  | .fenceTileFence h u => h.wf && u.wf
  | .fenceTileUnfence h u => h.wf && u.wf
  | .fenceTileRead h => h.wf
  | .cmdDaybookRead h first count addr len _ => h.wf && fits 64 first && fits 16 count && fits 64 addr && fits 32 len
  | .daybookRecordWrite _ => true
  | .faultNoticeReceive l n => l.wf && n.wf
  | .journalSelfTest _ _ _ => true
  | .journalRead use page acc e => decide (use < 8) && fits 32 page && decide (acc < 32) && e.wf
  | .scrubRead page acc e => fits 32 page && decide (acc < 32) && e.wf
  | .channelFailure c => decide (c < 10)
  | .dramRefresh c => decide (c < 10)
  | .mr4Read c _ => decide (c < 10)
  | .zqCalibration c => decide (c < 10)
  | .phyUpdateRequest c => decide (c < 10)
  | .ledgerSave h handle saveId => h.wf && decide (handle < 512) && fits 16 saveId
  | .ledgerSaveDelete h saveId => h.wf && fits 16 saveId
  | .cmdLedgerResume h saveId handle _ _ _ => h.wf && fits 16 saveId && decide (handle < 512)
  | .journalStageOut h handle setId => h.wf && decide (handle < 512) && fits 16 setId
  | .journalStageIn h handle setId => h.wf && decide (handle < 512) && fits 16 setId
  | .journalStageDelete h setId => h.wf && fits 16 setId
  | .journalRetirePage h page _ => h.wf && fits 32 page
  | .journalRetireBank h c b _ => h.wf && decide (c < 256) && decide (b < 256)
  | .journalRetireMark h c dev => h.wf && decide (c < 256) && decide (dev < 256)
  | .journalRetireUnmark h c dev => h.wf && decide (c < 256) && decide (dev < 256)
  | .journalRetireRead h => h.wf
  | .cmdJournalConfig h hours => h.wf && fits 16 hours
  | .patternLoad h _ _ _ => h.wf
  | .packReceive l _ => l.wf
  | .patternDelete h slot => h.wf && decide (slot < 256)
  | .patternRead h => h.wf
  | .testTileRun h u packId => h.wf && u.wf && fits 32 packId
  | .testTileAbort h u => h.wf && u.wf
  | .testComplete u _ => u.wf
  | .monitorFire tile _ => decide (tile < 64)
  | .stretchIntervalEnd group => decide (group < 16)
  | .tallyClockSet h group freq eff => h.wf && decide (group < 256) && decide (freq < 256) && fits 64 eff
  | .tallyClockSync h _ eff => h.wf && fits 64 eff
  | .tallyClockMargin h group margin => h.wf && decide (group < 256) && decide (margin < 256)
  | .tallyClockRead h => h.wf
  | .tallySetEffective group => decide (group < 16)
  | .groupQuiesced group => decide (group < 16)
  | .tallySyncEffective => true
  | .cmdPowerSelf h domain _ _ => h.wf && decide (domain < 128)
  | .tileAutoIdleOff tile => decide (tile < 64)
  | .domainPowerOnComplete domain => decide (domain < 128)
  | .powerPlanLoad h _ => h.wf
  | .powerPlanSchedule h q step strike => h.wf && decide (q < 64) && decide (step < 256) && fits 64 strike
  | .powerPlanRead h => h.wf
  | .powerStepStart => true
  | .pmAckChange k _ => decide (k < 80)
  | .powerDelayExpiry => true
  | .powerWaitTimeout => true
  | .leaseRenewalSend => true
  | .leaseRenewalReceive l f => l.wf && f.wf
  | .leaseClaimReceive l f => l.wf && f.wf
  | .leaseReleaseReceive l f => l.wf && f.wf
  | .leaseConfirmationReceive l f => l.wf && f.wf
  | .leaseRefusalReceive l g f => l.wf && fits 32 g && f.wf
  | .leaseLapse => true
  | .chordRenewalTimeout => true
  | .leaseClaimSend => true
  | .chordDownSolo => true
  | .mirrorFlitReceive l _ => l.wf
  | .epochRecordClose _ => true
  | .pairIsolate h => h.wf
  | .pairRejoin h => h.wf
  | .pairHandover h eff => h.wf && fits 64 eff
  | .handoverEffective => true
  | .pairRead h => h.wf
  | .attestEnroll h => h.wf
  | .attestReport h _ _ => h.wf
  | .attestCertLoad h _ _ => h.wf
  | .attestCertRead h => h.wf
  | .cmdCtxOpen h a => h.wf && a.wf
  | .contextMessageReceive l m => l.wf && m.wf
  | .cmdCtxClose h => h.wf
  | .debugChallenge h => h.wf
  | .debugUnlock h _ => h.wf
  | .mailboxGo _ access => decide (access < 256)
  | .mailboxAbort _ access => decide (access < 256)
  | .mailboxDoneClear _ access => decide (access < 256)
  | .mailboxAccept => true
  | .forwardedCommandReceive l block m seq tier opcode _ _ _ => l.wf && fits 32 block && fits 16 m && fits 32 seq && decide (tier < 16) && fits 16 opcode
  | .forwardResponseReceive l src seq _ _ => l.wf && src.wf && fits 32 seq
  | .forwardTimeout src => src.wf
  | .distributionReceive l id d => l.wf && fits 40 id && d.wf
  | .distributionAckReceive l id _ info => l.wf && fits 40 id && info.wf
  | .watchdogExpiry => true
  | .sramDoubleError => true
  | .badFetch => true
  | .scrivenerRestartComplete _ => true
  | .cmdFwStage h kind _ _ => h.wf && decide (kind < 256)
  | .cmdFwActivate h kind eff => h.wf && decide (kind < 256) && fits 64 eff
  | .fwActivateEffective => true
  | .htLoRead => true
  | .taiOfsLoRead => true
  | .fcwLoRead access => decide (access < 256)
  | .tdcStampLoRead ch access => decide (ch < 32) && decide (access < 256)
  | .hmSeqLoRead access => decide (access < 256)
  | .dbSeqLoRead access => decide (access < 256)
  | .noticeRead access => decide (access < 256)
  | .registerWrite addr _ access => fits 24 addr && decide (access < 256)
  | .htEvEdge c => decide (c < 4)
  | .temperatureExcursion _ => true
  | .ocxoClockReturn => true
  | .sramSingleBitError => true
  | .phasePullEnd => true
  | .frequencySlewEnd => true
  | .paneSpillComplete k => k.wf
  | .domainPowerOffComplete domain => decide (domain < 128)
  | .activationCommandWaitExpiry => true

end Sys2Proof
end

