-- ==== Sys2Proof/Machine/Ops.lean ====
section
/-! DEFINITION. The named operations over the state that the meanings share: reading and changing one unit, bytes and
checks, Daybook records and notices, sticky event bits, and handing messages to ports. -/

set_option linter.unusedVariables false

namespace Sys2Proof.Machine

/-- The outcome of a command or step of this model. -/
abbrev Out := Host.Outcome State Fault Refusal

/-! ## Units -/

/-- Hall Time in whole nanoseconds (R33). -/
def State.htNs (s : State) : HT := s.time.ht48 / 2 ^ 48

/-- What local time read port `r` presents (R46, R47): HT whole ns, its fraction, VALID and STEP_CNT of the present tick (log 96); a port that the instance
does not have presents nothing. -/
def State.htPort (s : State) (r : Nat) : Option (Nat × Nat × Bool × Nat) :=
  if r < s.params.htPorts then some (s.htNs, s.time.ht48 / 2 ^ 32 % 65536, s.time.valid, s.time.stepCnt) else none

/-- The port with register index `p` (R152). -/
def State.port (s : State) (p : Nat) : PortSt := s.ports.get {} p
/-- Change one port. -/
def State.modPort (s : State) (p : Nat) (f : PortSt → PortSt) : State :=
  { s with ports := s.ports.set {} p (f (s.port p)) }

/-- Tally tile `t`. -/
def State.tile (s : State) (t : Nat) : Tile := s.tiles.get {} t
/-- Change one tile. -/
def State.modTile (s : State) (t : Nat) (f : Tile → Tile) : State :=
  { s with tiles := s.tiles.set {} t (f (s.tile t)) }

/-- Context slot `c`. -/
def State.slot (s : State) (c : Nat) : Ctx := s.ctx.get {} c
/-- Change one context slot. -/
def State.modSlot (s : State) (c : Nat) (f : Ctx → Ctx) : State :=
  { s with ctx := s.ctx.set {} c (f (s.slot c)) }

/-- Docket queue `q`. -/
def State.queue (s : State) (q : Nat) : DkQueue := s.docket.queues.get {} q
/-- Change one Docket queue. -/
def State.modQueue (s : State) (q : Nat) (f : DkQueue → DkQueue) : State :=
  { s with docket := { s.docket with queues := s.docket.queues.set {} q (f (s.queue q)) } }

/-- The user of comparator `c` (Table 6.1). -/
def State.comp (s : State) (c : Nat) : CmpUser := s.docket.comps.get .free c
/-- Give a comparator to a user. -/
def State.setComp (s : State) (c : Nat) (u : CmpUser) : State :=
  { s with docket := { s.docket with comps := s.docket.comps.set .free c u } }

/-- Frame channel `c`. -/
def State.frame (s : State) (c : Nat) : FrameCh := s.docket.frames.get {} c
/-- Change one frame channel. -/
def State.modFrame (s : State) (c : Nat) (f : FrameCh → FrameCh) : State :=
  { s with docket := { s.docket with frames := s.docket.frames.set {} c (f (s.frame c)) } }

/-- Pulse output `n`. -/
def State.po (s : State) (n : Nat) : PoSt := s.docket.pos.get {} n
/-- Change one pulse output. -/
def State.modPo (s : State) (n : Nat) (f : PoSt → PoSt) : State :=
  { s with docket := { s.docket with pos := s.docket.pos.set {} n (f (s.po n)) } }

/-- TDC channel `c`. -/
def State.tdcCh (s : State) (c : Nat) : TdcCh := s.tdc.ch.get {} c
/-- Change one TDC channel. -/
def State.modTdc (s : State) (c : Nat) (f : TdcCh → TdcCh) : State :=
  { s with tdc := { s.tdc with ch := s.tdc.ch.set {} c (f (s.tdcCh c)) } }

/-- Reference `n`. -/
def State.ref (s : State) (n : Nat) : RefSt := s.dpll.refs.get {} n
/-- Change one reference. -/
def State.modRef (s : State) (n : Nat) (f : RefSt → RefSt) : State :=
  { s with dpll := { s.dpll with refs := s.dpll.refs.set {} n (f (s.ref n)) } }

/-- Waiter `w`. -/
def State.waiter (s : State) (w : Nat) : Waiter := s.sync.waiters.get {} w
/-- Change one waiter. -/
def State.modWaiter (s : State) (w : Nat) (f : Waiter → Waiter) : State :=
  { s with sync := { s.sync with waiters := s.sync.waiters.set {} w (f (s.waiter w)) } }

/-- Mailbox `m`: host mailbox m, or 256 + slot for the page of a slot. -/
def State.mb (s : State) (m : Nat) : Mailbox := s.scriv.mbs.get {} m
/-- Change one mailbox. -/
def State.modMb (s : State) (m : Nat) (f : Mailbox → Mailbox) : State :=
  { s with scriv := { s.scriv with mbs := s.scriv.mbs.set {} m (f (s.mb m)) } }

/-- Journal channel `c`. -/
def State.chan (s : State) (c : Nat) : Chan := s.jm.chans.get {} c
/-- Change one journal channel. -/
def State.modChan (s : State) (c : Nat) (f : Chan → Chan) : State :=
  { s with jm := { s.jm with chans := s.jm.chans.set {} c (f (s.chan c)) } }

/-- Journal page `p`. -/
def State.jpage (s : State) (p : Nat) : Page := s.jm.pages.get {} p
/-- Change one journal page. -/
def State.modPage (s : State) (p : Nat) (f : Page → Page) : State :=
  { s with jm := { s.jm with pages := s.jm.pages.set {} p (f (s.jpage p)) } }

/-- Stretch group `g`. -/
def State.grp (s : State) (g : Nat) : Grp := s.pwr.groups.get {} g
/-- Change one stretch group. -/
def State.modGrp (s : State) (g : Nat) (f : Grp → Grp) : State :=
  { s with pwr := { s.pwr with groups := s.pwr.groups.set {} g (f (s.grp g)) } }

/-- Switched power domain `d`. -/
def State.dom (s : State) (d : Nat) : Dom := s.pwr.doms.get {} d
/-- Change one power domain. -/
def State.modDom (s : State) (d : Nat) (f : Dom → Dom) : State :=
  { s with pwr := { s.pwr with doms := s.pwr.doms.set {} d (f (s.dom d)) } }

/-- Whether the block is a Hub. -/
def State.isHub (s : State) : Bool := s.params.hub

/-! ## Outputs and free values -/

/-- Whether a message travels in numbered flits (R129): timing, bring-up and key exchange flits and fabric writes do not. The
model sends each numbered message as one flit (log 22). -/
def TxMsg.numbered : TxMsg → Bool
  | .timing _ => false
  | .bringUp _ => false
  | .exchange _ _ => false
  | .fabricWrite _ _ _ _ => false
  | _ => true

/-- Whether a collective of this block has CLASS radio. -/
def State.radioKey (s : State) (k : ChunkKey) : Bool :=
  let i := k.slot * 512 + k.handle
  let d : Option (BitVec 512) := if s.params.hub then (s.coll.hub.get none i).map (·.desc) else (s.coll.leaf.get none i).map (·.desc)
  match d with | some d => (d.extractLsb' 282 2).toNat == 2 | none => false

/-- The class of a message (Table 11.1): 0 timing and bring-up, 1 control, 2 radio, 3 tenant. Contributions and results carry the class of
their collective; an exchange over a port that is up travels as control (log 22). -/
def State.classOf (s : State) (m : TxMsg) : Nat :=
  match m with
  | .contribution k _ => if s.radioKey k then 2 else 3
  | .result k _ => if s.radioKey k then 2 else 3
  | .timing _ => 0
  | .bringUp _ => 0
  | _ => 1

/-- The credits that a port holds of a class (R122). -/
def PortSt.credit (o : PortSt) (c : Nat) : Nat := if c = 1 then o.creditCtl else if c = 2 then o.creditRadio else o.creditTen

/-- A port uses a credit of a class. -/
def PortSt.takeCredit (o : PortSt) (c : Nat) : PortSt :=
  if c = 1 then { o with creditCtl := o.creditCtl - 1 }
  else if c = 2 then { o with creditRadio := o.creditRadio - 1 }
  else { o with creditTen := o.creditTen - 1 }

/-- A port owes its peer a credit for a flit of a class that it has moved out of its input buffer (R122). -/
def PortSt.oweCredit (o : PortSt) (c : Nat) : PortSt :=
  if c = 1 then { o with retCtl := o.retCtl + 1 }
  else if c = 2 then { o with retRadio := o.retRadio + 1 }
  else { o with retTen := o.retTen + 1 }

/-- Take back a credit that is owed. -/
def PortSt.dueCredit (o : PortSt) (c : Nat) : PortSt :=
  if c = 1 then { o with retCtl := o.retCtl - 1 }
  else if c = 2 then { o with retRadio := o.retRadio - 1 }
  else { o with retTen := o.retTen - 1 }

/-- Hand a message to a port: it waits in `tx` for its slot (R279). A port that is down carries none but bring-up and exchange flits (R130),
and an Isolated Hub sends none but over the chord (R415). -/
def State.send (s : State) (p : Nat) (m : TxMsg) : State :=
  if m.numbered && !((s.port p).up && (!decide (s.pair.role = .isolated) || s.params.isChord p)) then s
  else { s with tx := s.tx ++ [({ port := p, msg := m } : TxItem)] }

/-- Keep a message until a link toward the upper pair is up (R26, R30): the one on which it must leave, or the one to the serving Hub. -/
def State.hold (s : State) (p : Option Nat) (m : TxMsg) : State := { s with flt := { s.flt with upWait := s.flt.upWait ++ [(p, m)] } }

/-- Hand a message to a port, or keep it until the port is up. -/
def State.sendOrHold (s : State) (p : Nat) (m : TxMsg) : State := if (s.port p).up then s.send p m else s.hold (some p) m

/-- Hand one message to each of several ports. -/
def State.sendAll (s : State) (ps : List Nat) (m : TxMsg) : State := ps.foldl (fun s p => s.send p m) s

/-- The number that stands for the fabric port in `tx`. -/
def fabricPort : Nat := 1000

/-- The requests of a transfer (R509): none crosses a 4 KiB boundary. A request starts on the multiple of 128 bytes at or below its first byte, and its byte
enables say which bytes are written. -/
def fabricPieces : Nat → Nat → List Byte → List (Nat × List Byte)
  | 0, _, _ => []
  | n + 1, a, l =>
    let k := 4096 - a % 4096
    if l.length ≤ k then [(a, l)] else (a, l.take k) :: fabricPieces n (a + k) (l.drop k)

/-- Write bytes at an address on the fabric, in order (R272, R509), under a class: 1 firmware, 2 radio, 3 tenant (Table 21.5). -/
def State.fabricWrite (s : State) (addr : Nat) (l : List Byte) (poison : Bool) (qos : Nat) : State :=
  (fabricPieces (l.length + 1) addr l).foldl (fun s e => s.send fabricPort (.fabricWrite e.1 e.2 poison qos)) s

/-- The state with the free-value counter advanced. -/
def State.drawn (s : State) : State := { s with freeCtr := s.freeCtr + 1 }

/-- The chord ports that are up. -/
def State.chordUp (s : State) : List Nat :=
  if s.isHub then ((List.range 8).map (288 + ·)).filter (fun p => (s.port p).up) else []

/-- The down ports that are up. -/
def State.downUp (s : State) : List Nat :=
  if s.isHub then (List.range s.params.downPorts).filter (fun p => (s.port p).up) else []

/-- Whether lease epoch `e` is newer than `f` (R403). -/
def newerEpoch (e f : Nat) : Bool := e != 0 && (f == 0 || serialNewer (BitVec.ofNat 32 e) (BitVec.ofNat 32 f))

/-- The up ports whose peer carries PRIMARY with the newest epoch, lowest first: where contributions go (R144, R264). -/
def State.servingPorts (s : State) : List Nat :=
  let l := s.params.portList.filter (fun p => s.params.isUp p && (s.port p).up && (s.port p).peerPrimary)
  let e := l.foldl (fun e p => if newerEpoch (s.port p).peerEpoch e then (s.port p).peerEpoch else e) 0
  l.filter (fun p => (s.port p).peerEpoch == e)

/-- The port toward the upper pair's serving Hub: the lowest that carries PRIMARY with the newest epoch, else the time source
(R144, R461), while it is up. -/
def State.upPort (s : State) : Option Nat :=
  match s.servingPorts with
  | p :: _ => some p
  | [] => match s.tsrc.source with | some p => if (s.port p).up then some p else none | none => none

/-- Hand a message to the lowest chord port that is up, if any. -/
def State.sendChord (s : State) (m : TxMsg) : State :=
  match s.chordUp with
  | [] => s
  | p :: _ => s.send p m

/-- Whether the block is a Hub of the top pair: the configuration image in force says that it has no upper pair (R21). -/
def State.isTop (s : State) : Bool := s.isHub && s.boot.cfg.top

/-- Hand a message to the upper pair's serving Hub; while no link leads there it waits (R26, R30). The top pair has no upper pair. -/
def State.sendUp (s : State) (m : TxMsg) : State :=
  match s.upPort with
  | some p => s.send p m
  | none => if s.isTop then s else s.hold none m

/-- What waited for a link toward the upper pair leaves where its link is up now (R26, R30). -/
def State.flushUp (s : State) : State :=
  if s.flt.upWait.isEmpty then s
  else s.flt.upWait.foldl (fun s e => match e.1 with | some p => s.sendOrHold p e.2 | none => s.sendUp e.2)
    { s with flt := { s.flt with upWait := [] } }

/-- The tier of the block: that of its image in a Hub, 0 in a Leaf (R532). -/
def State.tier (s : State) : Nat := if s.isHub then s.boot.cfg.tier else 0

/-- Children as the mask of an open at this pair (R544): at tier 3 the first pod of each child stands for it. -/
def State.kidMask (s : State) (l : List Nat) : Nat := l.foldl (fun m k => m ||| 2 ^ (if s.tier = 3 then 64 * k else k)) 0

/-- Whether the Hub is in role Primary. -/
def State.isPrimary (s : State) : Bool := s.isHub && decide (s.pair.role = .primary)

/-- The guarded write that a change of mirrored state makes, as target, address and value (R456): the rows of Table 17.2 other than
time, journal copies and unmirrored state. The numbers are the model's. -/
def guardWrite : MirrorMsg → Option (Nat × Nat × Nat)
  | .ctxInstall m => some (1, m.slot, m.gen)
  | .ctxClear c g => some (2, c, g)
  | .barrierDef c g d _ => some (3, c * 64 + d.id, g)
  | .barrierUndef c g i => some (4, c * 64 + i, g)
  | .barrierArrival c _ i n k _ => some (5, c * 64 + i, n * 1024 + k)
  | .barrierH c _ i _ h => some (6, c * 64 + i, h)
  | .barrierRelease c _ i _ t => some (7, c * 64 + i, t)
  | .collPlan d w => some (8, (d.extractLsb' 272 8).toNat * 512 + (d.extractLsb' 416 9).toNat, w)
  | .collClose c g h => some (9, c * 512 + h, g)
  | .counters c _ h _ a b => some (10, c * 512 + h, a * 2 ^ 32 + b)
  | .shape c _ w r b => some (11, c, w + r * 2 ^ 16 + b * 2 ^ 32)
  | .radioSlots v e => some (12, v, e)
  | .radioTiles v e => some (13, v, e)
  | .fenceMap t p c => some (14, t, p + c * 2 ^ 288)
  | .manifest c _ _ l => some (15, c, l)
  | .batchSigned q _ => some (16, 0, q)
  | .lease e => some (17, 0, e)
  | .retired k => some (18, k.slot * 512 + k.handle, k.inst * 2 ^ 32 + k.chunk)
  | .tileHist t st _ => some (19, t, st)
  | .completion b _ q _ _ => some (20, b, q)
  | _ => none

/-- Enter a guarded write in the epoch record (R456). -/
def State.logWrite (s : State) (m : MirrorMsg) : State :=
  match guardWrite m with
  | some w => { s with scriv := { s.scriv with epochLog := s.scriv.epochLog ++ [w] } }
  | none => s

/-- Mirror a change of state to the partner (R411, R456): the primary's guarded write is recorded, and a message
goes over the chord to a Partner, or to a Syncing Hub as one of the running changes of R414. -/
def State.mirror (s : State) (m : MirrorMsg) : State :=
  if s.isPrimary then
    (let t := s.logWrite m
     if s.pair.solo && !decide (s.pair.peerRole = .syncing) then t else t.sendChord (.mirror m))
  else s

/-- Tell the other Hub of a change that either Hub of the pair makes (R332). -/
def State.mirrorBoth (s : State) (m : MirrorMsg) : State :=
  if s.isHub then (if s.isPrimary then s.logWrite m else s).sendChord (.mirror m) else s

/-! ## Bytes -/

/-- The `n` bytes of `v`, least significant first (R11). -/
def le : Nat → Nat → List Byte
  | 0, _ => []
  | n + 1, v => BitVec.ofNat 8 v :: le n (v / 256)

/-- The `n` bytes of `v`, most significant first. -/
def be (n v : Nat) : List Byte := (le n v).reverse

/-- The number that bytes spell, least significant first. -/
def leNat : List Byte → Nat
  | [] => 0
  | b :: r => b.toNat + 256 * leNat r

/-- Pad or cut a byte list to `n` bytes. -/
def padTo (n : Nat) (l : List Byte) : List Byte := (l ++ List.replicate (n - l.length) 0).take n

/-- The two's complement of a signed number in `w` bits. -/
def twos (w : Nat) (v : Int) : Nat := (v % (2 : Int) ^ w).toNat

/-- The signed number that the low `w` bits of `n` spell. -/
def signedOf (w n : Nat) : Int :=
  let m := n % 2 ^ w
  if w ≠ 0 ∧ 2 ^ (w - 1) ≤ m then (m : Int) - (2 : Int) ^ w else m

/-- Lay out values of given byte sizes from an offset, each at the next multiple of its size, masks at multiples of 8
(R463). -/
def layoutFrom (ofs : Nat) : List (Nat × Nat) → List Byte
  | [] => []
  | (sz, v) :: r =>
    let a := roundUp ofs (if sz > 8 then 8 else sz)
    List.replicate (a - ofs) 0 ++ le sz v ++ layoutFrom (a + sz) r

/-- The results of a command, from byte 16 of the response (R463). -/
def layout (l : List (Nat × Nat)) : List Byte := layoutFrom 16 l

/-- One step of a reflected CRC over one bit. -/
def crcBit (poly c : Nat) : Nat := if c % 2 = 1 then (c / 2) ^^^ poly else c / 2

/-- `n` steps of a reflected CRC. -/
def crcBits (poly : Nat) : Nat → Nat → Nat
  | 0, c => c
  | n + 1, c => crcBits poly n (crcBit poly c)

/-- CRC-32C (R121): reflected polynomial 0x82F63B78, initial value and final XOR of all ones. -/
def crc32c (l : List Byte) : Nat :=
  (l.foldl (fun c b => crcBits 0x82F63B78 8 (c ^^^ b.toNat)) 0xFFFFFFFF) ^^^ 0xFFFFFFFF

/-! ## The boot record (R476) -/

/-- A copy of the boot record as it stands in flash (Table 20.2): MAGIC, the fields, and CRC-32C over bytes 0 to 27. -/
def BootRec.bytes (b : BootRec) : List Byte :=
  let l := le 4 0x52425844 ++ le 4 b.gen.toNat ++ le 1 b.fwActive ++ le 1 b.cfgActive ++ le 1 (b2n b.trial + 2 * (b.trialRestarts % 4)) ++ [0] ++
    le 8 b.trialHt ++ List.replicate 8 0
  l ++ le 4 (crc32c l)

/-- The copy of the boot record that is in force, and its record: the valid one with the newer GEN, as serial numbers (R403, R476). With no
valid copy both slots A are active, and the next update writes copy 0 (DESIGN CHOICE, log 62). -/
def Flash.bootAt (f : Flash) : Nat × BootRec :=
  match f.boots.get none 0, f.boots.get none 1 with
  | some a, some b => if serialNewer b.gen a.gen then (1, b) else (0, a)
  | some a, none => (0, a)
  | none, some b => (1, b)
  | none, none => (1, {})

/-- The boot record in force. -/
def Flash.boot (f : Flash) : BootRec := f.bootAt.2

/-- An update of the boot record writes the other copy with GEN + 1 (R476). -/
def Flash.putBoot (f : Flash) (b : BootRec) : Flash :=
  { f with boots := f.boots.set none (1 - f.bootAt.1) (some { b with gen := f.boot.gen + 1 }) }

/-! ## The Daybook and the notice queue -/

/-- What a Daybook record says beside HT, SEQ, TEMP, VOLT and VALID, which the block fills (Table 13.4). -/
structure RecArgs where
  event : Nat
  unit : Nat := 0
  sub : Nat := 0
  code : Nat := 0
  op : Nat := 0
  cls : Nat := 0
  slot : Nat := 0
  gen : Nat := 0
  handle : Nat := 0
  step : Nat := 0
  chunk : Nat := 0
  syn : List Byte := []
deriving DecidableEq, Repr

/-- Add an entry to the notice queue, or set NOTICE_OVF when 256 entries are held (R535). -/
def State.pushNotice (s : State) (e : NoticeEntry) : State :=
  if s.flt.notices.length < 256 then { s with flt := { s.flt with notices := s.flt.notices ++ [e] } }
  else { s with flt := { s.flt with noticeOvf := true } }

/-- Form a Daybook record (R337, R338): it takes the next SEQ, the HT, the sensor readings (free values) and VALID;
with 256 records buffered it is dropped, DB_DROPPED rises and DB_FULL is set. A record kept enters the notice queue
(R535) and a notice of it goes to the serving Hub above, at once or when a link returns (R26). -/
def State.record (s : State) (r : RecArgs) : State :=
  let s0 := { s with flt := { s.flt with lastEvent := r.event, lastUnit := r.unit } }
  if 256 ≤ s.flt.buf.length then
    { s0 with flt := { s0.flt with dropped := (s0.flt.dropped + 1) % 2 ^ 32, dbFull := true } }
  else
    let d : DbRec :=
      { ht := s.htNs, seq := s.flt.nextSeq, unit := r.unit, sub := r.sub, event := r.event, code := r.code, op := r.op
        cls := r.cls + 128 * b2n s.time.valid
        temp := Config.freeTemp s.freeCtr % 2 ^ 16, volt := Config.freeVolt s.freeCtr % 2 ^ 16
        slot := r.slot, gen := r.gen, handle := r.handle, step := r.step, chunk := r.chunk, syndrome := padTo 16 r.syn }
    let s1 := { s0 with flt := { s0.flt with buf := s0.flt.buf ++ [d], nextSeq := s.flt.nextSeq + 1 }, freeCtr := s.freeCtr + 1 }
    let s2 := s1.pushNotice { event := r.event, unit := r.unit, port := 0, self := true, seqLo := s.flt.nextSeq % 2 ^ 32 }
    s2.sendUp (.notice { event := r.event, unit := r.unit, seqLo := s.flt.nextSeq % 2 ^ 32 })

/-- The unit identifier of a port (Table 13.5). -/
def State.portUnit (s : State) (p : Nat) : Nat :=
  if s.isHub then (if 288 ≤ p then 0x3000 + (p - 288) else 0x2000 + p) else 0x6000 + p

/-- The unit identifier of a tile (Table 13.5). -/
def State.tileUnit (s : State) (t : Nat) : Nat := if s.isHub then 0x1000 + t else 0x5000 + t

/-- The buffered records go to the flash ring, whose size the configuration image sets; the oldest are overwritten (R337). -/
def State.storeRecords (s : State) (n : Nat) : State :=
  let l := s.flash.daybook ++ s.flt.buf.take n
  { s with flash := { s.flash with daybook := l.drop (l.length - s.boot.cfg.daybookBytes / 64) }
           flt := { s.flt with buf := s.flt.buf.drop n } }

/-- The state after block reset (R474, Table 20.1): every register at its reset value, flash kept; what a power-on reset alone
clears, the levels of input pins, what was handed out, and the model's own queue and counter stay. An Isolated Hub returns in role
Isolated (Table 17.4). -/
def State.afterReset (s : State) : State :=
  let r := State.resetOf s.params s.flash
  { r with
    sec := { r.sec with unlocked := s.sec.unlocked, pufOn := s.sec.pufOn }
    time := { r.time with synLock := s.time.synLock }
    dpll := { r.dpll with warmN := s.dpll.warmN, ocxoRun := s.dpll.ocxoRun }
    pwr := { r.pwr with pmAck := s.pwr.pmAck }
    pair := { r.pair with role := if s.pair.role = .isolated then .isolated else .syncing }
    tx := s.tx, freeCtr := s.freeCtr, pending := s.pending }

/-! ## Sticky bits and context interrupts -/

/-- Set bit `b` of LF_IRQ_CTXc (Table 22.4): only in a Leaf, for slots 1 to 63. -/
def State.ctxIrq (s : State) (c b : Nat) : State :=
  if !s.isHub && decide (1 ≤ c) && decide (c < 64) then s.modSlot c (fun x => { x with irq := x.irq ||| (1#6 <<< b) }) else s

/-! ## Contexts -/

/-- Whether slot `c` and generation `g` name an open context whose clear has not begun (R432, R437). Slot 0 is
firmware's own and is always open. -/
def State.openCtx (s : State) (c g : Nat) : Bool :=
  c == 0 || ((s.slot c).open_ && !(s.slot c).clearing && decide ((s.slot c).lastGen = g))

/-- Whether every one of a list of numbers lies in another. -/
def subList (a b : List Nat) : Bool := a.all (fun x => b.contains x)

/-- Add a number to a list that has no repeats. -/
def addNew (a : List Nat) (x : Nat) : List Nat := if a.contains x then a else a ++ [x]

end Sys2Proof.Machine
end

