-- ==== Sys2Proof/Machine/Ledger.lean ====
section
/-! DEFINITION. Ledger arithmetic (chapter 8) and the operations of a Tally tile on its elements (chapter 9): decoding
of inputs, products, limbs and their resolution, residues, images, packed partials, rounding out, keys of MAX and MIN,
the exponential of EXP2-SCALED MAC, and the integer lanes. Flags are the numbers of Table 10.6: 1 INEXACT, 2 UNDERFLOW,
4 OVERFLOW, 8 INVALID, 16 HUGE, 32 TINY, 64 POISON. -/

set_option linter.unusedVariables false

namespace Sys2Proof.Machine

/-! ## Formats (Table 8.2) -/

/-- The width in bits of a format; 0 for a reserved code. -/
def fmtBits : Nat → Nat
  | 0 => 32 | 1 => 16 | 2 => 16 | 3 => 8 | 4 => 8 | 5 => 8 | 6 => 16 | 7 => 32 | 8 => 8 | 9 => 16 | 10 => 32
  | 11 => 64 | 12 => 352 | 13 => 32 | _ => 0

/-- The width in bytes of a format. -/
def fmtBytes (f : Nat) : Nat := fmtBits f / 8

/-- Whether a format is a signed integer. -/
def fmtInt (f : Nat) : Bool := decide (5 ≤ f) && decide (f ≤ 7)
/-- Whether a format is an unsigned integer. -/
def fmtUint (f : Nat) : Bool := decide (8 ≤ f) && decide (f ≤ 10)

/-- The kinds of a decoded term (R210). -/
inductive TermKind where
  | fin | pinf | ninf | nan
deriving DecidableEq, Repr

/-- A decoded term (R210): (−1)^neg × m × 2^k. -/
structure Term where
  kind : TermKind := .fin
  neg : Bool := false
  m : Nat := 0
  k : Int := 0
deriving DecidableEq, Repr

/-- Decode a float with `eb` exponent bits and `fb` fraction bits, subnormal exponent `kmin`. -/
def decodeFloat (x eb fb : Nat) (kmin : Int) (e4m3 : Bool) : Term :=
  let neg := x.testBit (eb + fb)
  let e := x / 2 ^ fb % 2 ^ eb
  let f := x % 2 ^ fb
  if e4m3 then
    if e = 15 ∧ f = 7 then { kind := .nan, neg := neg }
    else { neg := neg, m := if e = 0 then f else f + 2 ^ fb, k := if e = 0 then kmin else kmin + e - 1 }
  else if e = 2 ^ eb - 1 then { kind := if f ≠ 0 then .nan else if neg then .ninf else .pinf, neg := neg }
  else { neg := neg, m := if e = 0 then f else f + 2 ^ fb, k := if e = 0 then kmin else kmin + e - 1 }

/-- `decode` of R210. -/
def decodeTerm (x fmt : Nat) : Term :=
  match fmt with
  | 0 => decodeFloat x 8 23 (-149) false
  | 1 => decodeFloat x 8 7 (-133) false
  | 2 => decodeFloat x 5 10 (-24) false
  | 3 => decodeFloat x 4 3 (-9) true
  | 4 => decodeFloat x 5 2 (-16) false
  | 5 => let v := signedOf 8 x; { neg := decide (v < 0), m := v.natAbs }
  | 6 => let v := signedOf 16 x; { neg := decide (v < 0), m := v.natAbs }
  | 7 => let v := signedOf 32 x; { neg := decide (v < 0), m := v.natAbs }
  | _ => { m := x }

/-- `rne_shift` of R211: m ÷ 2^sh, to nearest, ties to even. -/
def rneShift (m sh : Nat) : Nat :=
  let q := m / 2 ^ sh
  let r := m % 2 ^ sh
  if 2 * r > 2 ^ sh ∨ (2 * r = 2 ^ sh ∧ q % 2 = 1) then q + 1 else q

/-- `mul` of R211, with the chunk flags it sets. -/
def mulTerm (a b : Term) : Term × Nat :=
  let neg := a.neg != b.neg
  let za := decide (a.kind = .fin) && a.m == 0
  let zb := decide (b.kind = .fin) && b.m == 0
  if a.kind = .nan ∨ b.kind = .nan then ({ kind := .nan, neg := neg }, 0)
  else if a.kind ≠ .fin ∨ b.kind ≠ .fin then
    ({ kind := if za || zb then .nan else if neg then .ninf else .pinf, neg := neg }, 0)
  else
    let m := a.m * b.m
    let k := a.k + b.k
    if m ≠ 0 ∧ (m.log2 : Int) + k ≥ 128 then ({ kind := if neg then .ninf else .pinf, neg := neg }, 16)
    else if k < -149 then
      let sh := (-149 - k).toNat
      let q := if 64 < sh then 0 else rneShift m sh
      ({ neg := neg, m := q, k := -149 }, if q * 2 ^ sh ≠ m then 32 else 0)
    else ({ neg := neg, m := m, k := k }, 0)

/-! ## Limbs (R214 to R217) -/

/-- S_i: a limb read as a signed 40-bit integer. -/
def limbInt (l : BitVec 40) : Int := l.toInt

/-- N of an element: Σ S_i × 2^(32i) (R214). -/
def limbsN : List (BitVec 40) → Int
  | [] => 0
  | l :: r => limbInt l + 4294967296 * limbsN r

/-- Add or subtract the pieces of a number at limb boundaries (R215), each piece as a whole. -/
def addPieces (neg : Bool) (n : Nat) : List (BitVec 40) → List (BitVec 40)
  | [] => []
  | l :: r =>
    let p := BitVec.ofNat 40 (n % 2 ^ 32)
    (if neg then l - p else l + p) :: addPieces neg (n / 2 ^ 32) r

/-- GUARD of a limb (Table 8.4). -/
def limbGuard (l : BitVec 40) : Int := l.toInt / 4294967296

/-- One carry step of R216: the lowest marked limb of 0 to 8 gives its GUARD to the next limb. -/
def carryStep : List (BitVec 40) → List (BitVec 40)
  | a :: b :: r =>
    if 64 ≤ limbGuard a ∨ limbGuard a ≤ -64 then
      (a &&& 0xFFFFFFFF#40) :: (b + BitVec.ofInt 40 (limbGuard a)) :: r
    else a :: carryStep (b :: r)
  | l => l

/-- Carry a signed amount through the limbs: `resolve` of R217. -/
def resolveFrom (c : Int) : List (BitVec 40) → List (BitVec 40)
  | [] => []
  | [l] => [BitVec.ofInt 40 (limbInt l + c)]
  | l :: r =>
    let s := BitVec.toInt (BitVec.ofInt 40 (limbInt l + c))
    BitVec.ofInt 40 (s % 4294967296) :: resolveFrom (s / 4294967296) r

/-- `resolve` of R217. -/
def resolve (l : List (BitVec 40)) : List (BitVec 40) := resolveFrom 0 l

/-- Resolve the two 64-bit lanes of CSUM16 and INT-SUM: limb 0 into 1 and limb 2 into 3 only (R246). -/
def resolveLanes (l : List (BitVec 40)) : List (BitVec 40) :=
  resolve (l.take 2) ++ resolve ((l.drop 2).take 2) ++ l.drop 4

/-! ## The flag word (R212, Table 8.3) -/

/-- PINF of a flag word. -/
def fwPinf (f : BitVec 40) : Nat := f.toNat % 256
/-- NINF of a flag word. -/
def fwNinf (f : BitVec 40) : Nat := f.toNat / 256 % 256
/-- NAN of a flag word. -/
def fwNan (f : BitVec 40) : Bool := f.getLsbD 16
/-- POISON of a flag word. -/
def fwPoison (f : BitVec 40) : Bool := f.getLsbD 17
/-- A flag word from its fields; counts saturate at 255. -/
def mkFw (p n : Nat) (nan poison : Bool) : BitVec 40 :=
  BitVec.ofNat 40 (satN 255 p + 256 * satN 255 n + 65536 * b2n nan + 131072 * b2n poison)

/-- Combination of two flag words (R212). -/
def fwJoin (a b : BitVec 40) : BitVec 40 :=
  mkFw (fwPinf a + fwPinf b) (fwNinf a + fwNinf b) (fwNan a || fwNan b) (fwPoison a || fwPoison b)

/-- What a non-finite term adds to the flag word. -/
def fwNote (f : BitVec 40) : TermKind → BitVec 40
  | .fin => f
  | .pinf => mkFw (fwPinf f + 1) (fwNinf f) (fwNan f) (fwPoison f)
  | .ninf => mkFw (fwPinf f) (fwNinf f + 1) (fwNan f) (fwPoison f)
  | .nan => mkFw (fwPinf f) (fwNinf f) true (fwPoison f)

/-- Write both copies of a flag word. -/
def Elem.setFlag (e : Elem) (f : BitVec 40) : Elem := { e with flag := f, flag2 := f }

/-- Mark an element poisoned (R334). -/
def Elem.poison (e : Elem) : Elem := e.setFlag (mkFw (fwPinf e.flag) (fwNinf e.flag) (fwNan e.flag) true)

/-! ## Residues (R220) -/

/-- r(v) = v mod 65535, in 0 to 65534. -/
def res (v : Int) : Nat := (v % 65535).toNat

/-- `res_element`: the residue of an element from its limbs. -/
def resElement (l : List (BitVec 40)) : Nat := (l.map (fun x => res (limbInt x))).sum % 65535

/-- `res_term`: the residue of an addend from its decoded term. -/
def resTerm (t : Term) : Nat :=
  if t.kind ≠ .fin then 0
  else
    let v := (t.m % 65535) * 2 ^ ((t.k + 149) % 16).toNat % 65535
    if t.neg then (65535 - v) % 65535 else v

/-- The product of the second, independent rounding unit (R221): it adds just under half, and 1 more to an odd quotient, before it shifts. -/
def rneShift2 (m sh : Nat) : Nat := if 64 < sh then 0 else (m + (2 ^ (sh - 1) - 1) + m / 2 ^ sh % 2) / 2 ^ sh

/-- The residue of a product (R221): from its factors, or of a product rounded under TINY from the second rounding unit. -/
def resProduct (a b : Term) : Nat :=
  let t := (mulTerm a b).1
  let k := a.k + b.k
  if t.kind ≠ .fin then 0
  else
    let v := if k < -149 then rneShift2 (a.m * b.m) (-149 - k).toNat % 65535
      else (a.m % 65535) * (b.m % 65535) * 2 ^ ((k + 149) % 16).toNat % 65535
    if t.neg then (65535 - v) % 65535 else v

/-! ## Updates -/

/-- `ledger_add` of R210 on limbs, followed by the carry step of the free clock (R216, R238). -/
def Elem.add (e : Elem) (t : Term) : Elem :=
  if t.kind ≠ .fin then e.setFlag (fwNote e.flag t.kind)
  else { e with limbs := carryStep (addPieces t.neg (t.m * 2 ^ (t.k + 149).toNat) e.limbs) }

/-- The canonical limbs of N: nine 32-bit values and a signed last limb (R217). -/
def limbsOf : Nat → Int → List (BitVec 40)
  | 0, _ => []
  | 1, v => [BitVec.ofInt 40 v]
  | n + 1, v => BitVec.ofInt 40 (v % 4294967296) :: limbsOf n (v / 4294967296)

/-- Combine a Ledger value (N, flag word) into an element (R212). -/
def Elem.combine (e : Elem) (n : Int) (f : BitVec 40) : Elem :=
  { (e.setFlag (fwJoin e.flag f)) with limbs := carryStep (List.zipWith (· + ·) e.limbs (limbsOf 10 n)) }

/-- Add an integer into the 64-bit lane at limb 2·`lane` (R246, R248): its pieces are added or subtracted as wholes (R215), and limb 2·`lane`
alone can be marked for a carry step (R216, R246). -/
def Elem.addLane (e : Elem) (lane : Nat) (v : Int) : Elem :=
  { e with limbs := e.limbs.take (2 * lane) ++ carryStep (addPieces (decide (v < 0)) v.natAbs ((e.limbs.drop (2 * lane)).take 2)) ++ e.limbs.drop (2 * lane + 2) }

/-- A free clock of an element (R216, R238): the carry step of its lowest marked limb. The top limb of a 64-bit lane is never marked (R246). -/
def Elem.freeClock (lanes : Bool) (e : Elem) : Elem :=
  { e with limbs := if lanes then carryStep (e.limbs.take 2) ++ carryStep ((e.limbs.drop 2).take 2) ++ e.limbs.drop 4 else carryStep e.limbs }

/-- The value of a 64-bit lane. -/
def Elem.lane (e : Elem) (lane : Nat) : Int := limbsN ((e.limbs.drop (2 * lane)).take 2)

/-- N of an element. -/
def Elem.n (e : Elem) : Int := limbsN e.limbs

/-! ## Ledger images and packed partials (R218, R219, R226 to R228) -/

/-- The 44-byte Ledger image of a value (Table 8.5). -/
def imageBytes (n : Int) (f : BitVec 40) : List Byte :=
  le 40 (twos 320 n) ++ le 1 (fwPinf f) ++ le 1 (fwNinf f) ++ le 1 (b2n (fwNan f) + 2 * b2n (fwPoison f)) ++ [0]

/-- Whether N lies within R208: bits [319:308] all equal. -/
def nOk (n : Int) : Bool := decide (-(2 : Int) ^ 308 ≤ n) && decide (n < (2 : Int) ^ 308)

/-- Read a Ledger image; `none` where R219 refuses it. -/
def readImage (l : List Byte) : Option (Int × BitVec 40) :=
  let n := signedOf 320 (fieldAt' l 0 40)
  let fl := fieldAt' l 42 1
  if l.length ≠ 44 ∨ 4 ≤ fl ∨ fieldAt' l 43 1 ≠ 0 ∨ !nOk n then none
  else some (n, mkFw (fieldAt' l 40 1) (fieldAt' l 41 1) (fl % 2 == 1) (fl / 2 == 1))
where
  fieldAt' (l : List Byte) (o n : Nat) : Nat := leNat ((l.drop o).take n)

/-- The number of trailing zeros of a nonzero number, up to `k`. -/
def ctzUpTo (n : Int) : Nat → Nat → Nat
  | 0, c => c
  | k + 1, c => if n % 2 = 0 then ctzUpTo (n / 2) k (c + 1) else c

/-- `pack` of R227. -/
def packElem (n : Int) (f : BitVec 40) : List Byte :=
  if f ≠ 0 then 0xFF#8 :: imageBytes n f
  else if n = 0 then [0xFE#8]
  else
    let off := ctzUpTo n 224 0
    let w := n / (2 : Int) ^ off
    if -(2 : Int) ^ 95 ≤ w ∧ w < (2 : Int) ^ 95 then BitVec.ofNat 8 off :: le 12 (twos 96 w)
    else 0xFF#8 :: imageBytes n f

/-- Read one Ledger-packed element from the front of a byte list (R226, R228): the value and the rest; `none` where the
partial is corrupt or ends early. -/
def unpackElem (l : List Byte) : Option ((Int × BitVec 40) × List Byte) :=
  match l with
  | [] => none
  | c :: r =>
    if c = 0xFE#8 then some ((0, 0), r)
    else if c = 0xFF#8 then
      (if r.length < 44 then none else (readImage (r.take 44)).map (fun v => (v, r.drop 44)))
    else if c.toNat ≤ 0xE0 then
      if r.length < 12 then none
      else
        let n := signedOf 96 (leNat (r.take 12)) * (2 : Int) ^ c.toNat
        if n.natAbs < 2 ^ 308 then some ((n, 0), r.drop 12) else none
    else none

/-- Read `k` packed elements that fill a byte list. -/
def unpackAll : Nat → List Byte → Option (List (Int × BitVec 40))
  | 0, l => if l.isEmpty then some [] else none
  | k + 1, l =>
    match unpackElem l with
    | none => none
    | some (v, r) => (unpackAll k r).map (v :: ·)

/-! ## Rounding out (R222 to R225) -/

/-- A float format of R223: precision, emin, emax, the largest significand, exponent and fraction widths. -/
structure FpFmt where
  p : Nat
  emin : Int
  emax : Int
  maxsig : Nat
  eb : Nat
  fb : Nat
deriving DecidableEq, Repr

/-- The float format of a code. -/
def fpFmt : Nat → Option FpFmt
  | 0 => some { p := 24, emin := -126, emax := 127, maxsig := 16777215, eb := 8, fb := 23 }
  | 1 => some { p := 8, emin := -126, emax := 127, maxsig := 255, eb := 8, fb := 7 }
  | 2 => some { p := 11, emin := -14, emax := 15, maxsig := 2047, eb := 5, fb := 10 }
  | 3 => some { p := 4, emin := -6, emax := 8, maxsig := 14, eb := 4, fb := 3 }
  | 4 => some { p := 3, emin := -14, emax := 15, maxsig := 7, eb := 5, fb := 2 }
  | 11 => some { p := 53, emin := -1022, emax := 1023, maxsig := 9007199254740991, eb := 11, fb := 52 }
  | _ => none

/-- The sign bit of a float format. -/
def FpFmt.sign (f : FpFmt) (neg : Bool) : Nat := b2n neg * 2 ^ (f.eb + f.fb)

/-- The encoding of a finite nonzero value sig × 2^q. -/
def FpFmt.encode (f : FpFmt) (neg : Bool) (sig : Nat) (q : Int) : Nat :=
  if sig < 2 ^ (f.p - 1) then f.sign neg + sig
  else f.sign neg + (q + (f.p : Int) - 1 - f.emin + 1).toNat * 2 ^ f.fb + (sig - 2 ^ (f.p - 1))

/-- The encoding of infinity; E4M3 has none. -/
def FpFmt.inf (f : FpFmt) (neg : Bool) : Nat := f.sign neg + (2 ^ f.eb - 1) * 2 ^ f.fb

/-- The quiet NaN of a float format (Table 8.7). -/
def qnan : Nat → Nat
  | 0 => 0x7FC00000 | 1 => 0x7FC0 | 2 => 0x7E00 | 3 => 0x7F | 4 => 0x7E | 11 => 0x7FF8000000000000 | _ => 0

/-- Whether a remainder rounds up in a mode (R222). -/
def roundsUp (mode : Nat) (neg : Bool) (sig rem sh : Nat) : Bool :=
  match mode with
  | 0 => decide (2 * rem > 2 ^ sh) || (decide (2 * rem = 2 ^ sh) && sig % 2 == 1)
  | 1 => decide (2 * rem ≥ 2 ^ sh)
  | 3 => !neg
  | 4 => neg
  | _ => false

/-- The output of a rounded magnitude above the largest finite value (Table 8.7). -/
def fpOverflow (f : FpFmt) (code mode : Nat) (neg : Bool) : Nat :=
  let big := f.encode neg f.maxsig (f.emax - ((f.p : Int) - 1))
  if code = 3 then big
  else if mode = 0 ∨ mode = 1 ∨ (mode = 3 ∧ !neg) ∨ (mode = 4 ∧ neg) then f.inf neg else big

/-- `round_out` of R223 for a float format: the encoding and the flags. -/
def roundFloat (f : FpFmt) (code mode : Nat) (n : Int) : Nat × Nat :=
  if n = 0 then (0, 0)
  else
    let neg := decide (n < 0)
    let m := n.natAbs
    let q : Int := max ((m.log2 : Int) - 149) f.emin - ((f.p : Int) - 1)
    let sh := q + 149
    let sig0 := if 0 < sh then m / 2 ^ sh.toNat else m * 2 ^ (-sh).toNat
    let rem := if 0 < sh then m % 2 ^ sh.toNat else 0
    let sig1 := if rem ≠ 0 ∧ roundsUp mode neg sig0 rem sh.toNat then sig0 + 1 else sig0
    let fl := if rem ≠ 0 then
        1 + (if q = f.emin - ((f.p : Int) - 1) ∧ sig1 < 2 ^ (f.p - 1) then 2 else 0)
      else 0
    let (sig, q2) := if sig1 = 2 ^ f.p then (sig1 / 2, q + 1) else (sig1, q)
    let top := f.emax - ((f.p : Int) - 1)
    if q2 > top ∨ (q2 = top ∧ sig > f.maxsig) then (fpOverflow f code mode neg, fl ||| 5)
    else if sig = 0 then (f.sign neg, fl)
    else (f.encode neg sig q2, fl)

/-- The range of an integer format of width `w`. -/
def intLo (fmt : Nat) : Int := if fmtInt fmt then -(2 : Int) ^ (fmtBits fmt - 1) else 0
/-- The largest value of an integer format. -/
def intHi (fmt : Nat) : Int := if fmtInt fmt then (2 : Int) ^ (fmtBits fmt - 1) - 1 else (2 : Int) ^ fmtBits fmt - 1

/-- Rounding to an integer format (R223, R225): N in units of 2⁻¹⁴⁹. -/
def roundInt (fmt mode : Nat) (n : Int) : Nat × Nat :=
  let neg := decide (n < 0)
  let m := n.natAbs
  let sig0 := m / 2 ^ 149
  let rem := m % 2 ^ 149
  let sig := if rem ≠ 0 ∧ roundsUp mode neg sig0 rem 149 then sig0 + 1 else sig0
  let v : Int := if neg then -(sig : Int) else sig
  let inx := if rem ≠ 0 then 1 else 0
  if v < intLo fmt then (twos (fmtBits fmt) (intLo fmt), 4 + inx)
  else if v > intHi fmt then (twos (fmtBits fmt) (intHi fmt), 4 + inx)
  else (twos (fmtBits fmt) v, inx)

/-- The output of an element that holds (N, flag word), in a format and mode (R224, Table 8.7): the bytes and flags. -/
def roundOut (fmt mode : Nat) (n : Int) (f : BitVec 40) : List Byte × Nat :=
  let pi := decide (0 < fwPinf f); let ni := decide (0 < fwNinf f)
  let b := fmtBytes fmt
  if fmt = 12 then (imageBytes n f, 0)
  else
    match fpFmt fmt with
    | some fp =>
      if fwNan f || (pi && ni) then (le b (qnan fmt), 8)
      else if pi || ni then (if fmt = 3 then (le b 0x7F, 8) else (le b (fp.inf ni), 0))
      else let (x, fl) := roundFloat fp fmt mode n; (le b x, fl)
    | none =>
      if fwNan f || (pi && ni) then (le b 0, 8)
      else if pi then (le b (twos (fmtBits fmt) (intHi fmt)), 8)
      else if ni then (le b (twos (fmtBits fmt) (intLo fmt)), 8)
      else let (x, fl) := roundInt fmt mode n; (le b x, fl)

/-! ## MAX and MIN (R240, R241) -/

/-- A key's place in the order: totalOrder for floats, value for integers. -/
def keyRank (fmt x : Nat) : Int :=
  if fmtInt fmt then signedOf (fmtBits fmt) x
  else if fmtUint fmt then x
  else
    let w := fmtBits fmt
    if x.testBit (w - 1) then -((x % 2 ^ (w - 1) : Nat) : Int) - 1 else x

/-- The identity key (Table 9.5); `isMax` for MAX. -/
def identityKey (fmt : Nat) (isMax : Bool) : Nat :=
  match fmt with
  | 0 => if isMax then 0xFF800000 else 0x7F800000
  | 1 => if isMax then 0xFF80 else 0x7F80
  | 2 => if isMax then 0xFC00 else 0x7C00
  | 3 => if isMax then 0xFE else 0x7E
  | 4 => if isMax then 0xFC else 0x7C
  | f => if isMax then twos (fmtBits f) (intLo f) else twos (fmtBits f) (intHi f)

/-- The key that an element holds in limb 0. -/
def Elem.key (e : Elem) : Nat := (e.limbs.headD 0).toNat % 2 ^ 32

/-- Write the key. -/
def Elem.setKey (e : Elem) (k : Nat) : Elem := { e with limbs := BitVec.ofNat 40 k :: e.limbs.drop 1 }

/-- An input of MAX or MIN: the element, and the residue that RSUM gains (R235, R240). -/
def Elem.extreme (e : Elem) (fmt : Nat) (isMax : Bool) (x : Nat) : Elem × Nat :=
  if (decodeTerm x fmt).kind = .nan then (e.setFlag (fwNote e.flag .nan), 0)
  else
    let beyond := if isMax then keyRank fmt e.key < keyRank fmt x else keyRank fmt x < keyRank fmt e.key
    if beyond then (e.setKey x, res ((x : Int) - e.key)) else (e, 0)

/-! ## The exponential (R244, Table 9.6) -/

/-- The integer square root, bit by bit from bit `k`. -/
def isqrtFrom (n : Nat) : Nat → Nat → Nat
  | 0, r => r
  | k + 1, r => if (r + 2 ^ k) * (r + 2 ^ k) ≤ n then isqrtFrom n k (r + 2 ^ k) else isqrtFrom n k r

/-- Lower and upper bounds of 2^(b₁/2 + b₂/4 + …), scaled by 2^320, for the bits given first to last. -/
def expBounds : List Bool → Nat → Nat → Nat → Nat → Nat × Nat
  | [], _, _, lo, hi => (lo, hi)
  | b :: r, cl, cu, lo, hi =>
    let cl' := isqrtFrom (cl * 2 ^ 320) 322 0
    let cu' := isqrtFrom (cu * 2 ^ 320) 322 0 + 1
    expBounds r cl' cu' (if b then lo * cl' / 2 ^ 320 else lo) (if b then hi * cu' / 2 ^ 320 + 1 else hi)

/-- The nearest integer to 2^(t + fn ÷ 2^k), 0 < fn < 2^k, −1 ≤ t: the bounds decide it, and where they do not the exact
comparison 2^(fn + (t + 1)·2^k) > (2a + 1)^(2^k) does. -/
def expSig (t : Int) (fn k : Nat) : Nat :=
  let bits := (List.range k).map (fun i => fn.testBit (k - 1 - i))
  let (lo, hi) := expBounds bits (2 ^ 321) (2 ^ 321) (2 ^ 320) (2 ^ 320)
  let near (x : Nat) : Nat := (x * 2 ^ (t + 2).toNat / 2 ^ 321 + 1) / 2
  let a := near lo
  if a = near hi then a
  else if (2 * a + 1) ^ (2 ^ k) < 2 ^ (fn + (t + 1).toNat * 2 ^ k) then a + 1 else a

/-- e_t of Table 9.6, as an FP32 encoding, and HUGE. -/
def exp2Of (s m : Nat) : Nat × Nat :=
  let a := decodeTerm s 0; let b := decodeTerm m 0
  if a.kind = .nan ∨ b.kind = .nan then (0x7FC00000, 0)
  else if (a.kind = .pinf ∧ b.kind = .pinf) ∨ (a.kind = .ninf ∧ b.kind = .ninf) then (0x7FC00000, 0)
  else if a.kind = .pinf ∨ b.kind = .ninf then (0x7F800000, 0)
  else if a.kind = .ninf ∨ b.kind = .pinf then (0, 0)
  else
    let v (t : Term) : Int := (if t.neg then -1 else 1) * ((t.m * 2 ^ (t.k + 149).toNat : Nat) : Int)
    let d := v a - v b                                   -- s_t − M in units of 2⁻¹⁴⁹
    if d ≤ -150 * (2 : Int) ^ 149 then (0, 0)
    else if 128 * (2 : Int) ^ 149 ≤ d then (0x7F800000, 16)
    else
      let n := d / (2 : Int) ^ 149
      let f := (d % (2 : Int) ^ 149).toNat
      let z := if f = 0 then 149 else ctzUpTo f 149 0
      let q : Int := max n (-126) - 23
      let sig := if f = 0 then 2 ^ (n - q).toNat else expSig (n - q) (f / 2 ^ z) (149 - z)
      if 2 ^ 24 ≤ sig then
        (if n = 127 then (0x7F800000, 16) else (((n + 1) + 127).toNat * 2 ^ 23, 0))
      else if sig < 2 ^ 23 then (sig, 0)
      else ((q + 23 + 127).toNat * 2 ^ 23 + (sig - 2 ^ 23), 0)

end Sys2Proof.Machine
end

