-- ==== Sys2Proof/Machine/Cmd.lean ====
section
/-! DEFINITION. How a mailbox command is checked, routed, run and completed (R458 to R464, R470, R479, R480): the
checks of R460 that come before a command's own, the routes of R461 and R401, the response of Table 19.3. -/

set_option linter.unusedVariables false

namespace Sys2Proof.Machine

/-- Who may issue a command (Table 19.7): O operator accesses, C also the page of the context named, A any mailbox. -/
inductive Issuer where
  | op | ctx | any
deriving DecidableEq, Repr

/-- A row of Table 19.7. `span`: issued to the serving Hub of a span pair. `mirrored`: it changes mirrored state, so
only a primary runs it (R401). `read`: a READ operation or another one that an unconfigured block accepts (R480).
`recovery`: accepted in recovery (R479). `flash`: it writes flash (R519). -/
structure CmdInfo where
  opcode : Nat
  hub : Bool := true
  leaf : Bool := true
  iss : Issuer := .op
  span : Bool := false
  mirrored : Bool := false
  read : Bool := false
  recovery : Bool := false
  flash : Bool := false
deriving DecidableEq, Repr

/-- What the body of a command answers: it completes with a code and results, or it keeps running. -/
inductive CmdRes where
  | done (s : State) (c : St) (out : List Byte)
  | wait (s : State)
deriving DecidableEq, Repr

/-- The mailbox of a source in this block. -/
def mbOf : CmdSrc → Option Nat
  | .host m => some m
  | .page c => some (256 + c)
  | .forward _ _ _ => none

/-- The bytes of a mailbox copy from 16 words. -/
def copyBytes (t : Tbl Word) : List Byte := (List.range 16).flatMap (fun w => le 4 (t.get 0 w).toNat)

/-- `n` bytes from offset `o` of a byte list, as a number. -/
def fieldAt (l : List Byte) (o n : Nat) : Nat := leNat ((l.drop o).take n)

/-- K_cmd of a context (R439). -/
def kCmd (c : Ctx) : Nat := Config.hkdf c.key "DXCMD" []

/-- The tag over bytes 0 to 55 and CMD_SEQ: the first 8 bytes of HMAC-SHA-384 under K_cmd (R439). -/
def tagOf (c : Ctx) (l : List Byte) (seq : Nat) : Nat :=
  leNat (be 8 (Config.hmac (kCmd c) (l.take 56 ++ le 4 seq) % 2 ^ 384 / 2 ^ 320))

/-- The response area of Table 19.3 before its tag. Results that do not fit are counted at byte 16 (R464). -/
def respBody (opcode : Nat) (c : St) (seq : Nat) (acc : HT) (out : List Byte) : List Byte :=
  le 2 opcode ++ le 2 c.val ++ le 4 seq ++ le 8 acc ++ padTo 40 (if out.length ≤ 40 then out else le 4 out.length)

/-- Complete the command of mailbox `m` (R458): the response area, CODE, DONE, and the interrupt where IRQ was set.
A mailbox that is not RUNNING is left as it is. -/
def completeMb (s : State) (m opcode : Nat) (c : St) (out : List Byte) : State :=
  let b := s.mb m
  if b.state = 2 then
    let body := respBody opcode c b.seq b.acceptHt out
    let x := s.slot (m - 256)
    let tag := if 256 ≤ m ∧ x.tenantKeyed then tagOf x body b.seq else 0
    let s1 := s.modMb m (fun b => { b with resp := body ++ le 8 tag, state := 3, code := c.val, irqDone := b.irq })
    if 256 ≤ m && b.irq then s1.ctxIrq (m - 256) 4 else s1
  else s

/-- The result address of a command whose results do not fit: the 8 bytes at 16 of its copy (R464). -/
def resultAddr (s : State) (src : CmdSrc) : Nat :=
  match mbOf src with
  | some m => fieldAt (copyBytes (s.mb m).copy) 16 8
  | none => 0

/-- Answer a forwarded command (R461, R462): a completion record, mirrored before the response leaves, and the response
on the port from which the command came. -/
def completeFwd (s : State) (block m seq : Nat) (c : St) (out : List Byte) : State :=
  let s1 := { s with scriv := { s.scriv with
    completions := s.scriv.completions ++ [({ block := block, m := m, seq := seq, code := c, results := out } : Completion)] } }
  let s2 := s1.mirror (.completion block m seq c out)
  match s.scriv.fwdIn.find? (fun e => e.1 == block && e.2.1 == m && e.2.2.1 == seq) with
  | some e =>
    let s3 := s2.send e.2.2.2 (.forwardResp (.forward block m seq) seq c out)
    { s3 with scriv := { s3.scriv with fwdIn := s3.scriv.fwdIn.filter (fun x => !(x.1 == block && x.2.1 == m && x.2.2.1 == seq)) } }
  | none => s2

/-- A command completes with a code and results. The model also keeps the last completion (log 5). -/
def complete (s : State) (src : CmdSrc) (opcode : Nat) (c : St) (out : List Byte) : State :=
  let s0 := { s with scriv := { s.scriv with lastDone := some (src, c, out) } }
  let own := match src with | .forward _ _ _ => false | _ => true
  let s1 := if own && decide (40 < out.length) then s0.fabricWrite (resultAddr s src) out false 1 else s0
  match src with
  | .host m => completeMb s1 m opcode c out
  | .page p => completeMb s1 (256 + p) opcode c out
  | .forward b m q => completeFwd s1 b m q c out

/-- Whether the block is in recovery (R479). -/
def State.recovery (s : State) : Bool := s.boot.stage == 8
/-- Whether the block is unconfigured (R480). -/
def State.unconfigured (s : State) : Bool := s.boot.stage == 9

/-- Whether the issuing access has the right to run the command (R443, R445, R460, Table 19.7): host mailboxes take
operator accesses only; the page of a slot takes accesses that present the slot, no operator-only command, and only
commands that name the page's own slot or none. Rights of a forwarded command are checked again (R461). -/
def issuerOk (i : CmdInfo) (h : CmdHdr) : Bool :=
  let inner := match i.iss with
    | .op => h.access == 0
    | .ctx => h.access == 0 || h.access == h.slot
    | .any => true
  match h.src with
  | .host _ => h.access == 0
  | .page c => h.access == c && c != 0 && inner && (h.slot == 0 || h.slot == c) && !(decide (i.iss = .op))
  | .forward _ _ _ => inner

/-- How a command is routed (R461, R401). -/
inductive Route where
  | here | up | chord
  | fail (c : St)
deriving DecidableEq, Repr

/-- The route of a command: forwarded commands run here, where the command exists in this role; on a Leaf, ROUTE 0 is this block and any other goes up; on a
Hub, ROUTE 0 is this block, its own tier the pair's primary, a lower tier is ST_RANGE and a higher one goes up. A
command that changes mirrored state runs at the primary; a Hub in role Partner or Claiming forwards it over the chord,
and one in role Syncing or Isolated fails it with ST_CONFLICT (DESIGN CHOICE, log 7). -/
def route (s : State) (i : CmdInfo) (h : CmdHdr) : Route :=
  match h.src with
  | .forward _ _ _ => if (if s.isHub then i.hub else i.leaf) then .here else .fail .conflict
  | _ =>
    if !s.isHub then
      if h.route = 0 then (if i.leaf then .here else .fail .conflict) else .up
    else if !i.hub then .fail .conflict
    else if h.route = 0 then
      if i.span then .fail .range
      else if i.mirrored && !s.isPrimary then
        (if s.pair.role = .partner ∨ s.pair.role = .claiming then .chord else .fail .conflict)
      else .here
    else if h.route = s.tier then (if s.isPrimary then .here else .chord)
    else if h.route < s.tier then .fail .range
    else .up

/-- The checks of R460 before the command's own, in their order: the first that fails gives the code. In recovery every
command but those of R479 is ST_BUSY, and an unconfigured block refuses with ST_CONFLICT what R480 does not list. -/
def gate (i : CmdInfo) (h : CmdHdr) (s : State) : Option St :=
  if s.recovery && !i.recovery then some .busy
  else if !h.reservedOk then some .range
  else
    match route s i h with
    | .fail c => some c
    | _ =>
      if s.unconfigured && !i.read then some .conflict
      else if !issuerOk i h then some .auth
      else if !h.tagOk then some .auth
      else if h.slot ≠ 0 ∨ h.gen ≠ 0 then
        (if (s.slot h.slot).open_ && decide ((s.slot h.slot).lastGen = h.gen) && !(s.slot h.slot).resetting && h.slot != 0 then none
         else some .genWrap)
      else none

/-- The pair of this block (R21, R532): a Hub's from the configuration image in force, and 0 before there is one; a Leaf's pod pair from the
bring-up fields of its first port. -/
def State.ownPair (s : State) : Nat :=
  if s.isHub then (if s.boot.cfgValid then s.boot.cfg.pairId else 0) else s.boot.pairId

/-- Whether the pair and the place of this block are known (R532). -/
def State.placeKnown (s : State) : Bool := if s.isHub then s.boot.cfgValid else s.boot.placeValid

/-- A number that names this block in forwarded commands (R461). -/
def State.blockId (s : State) : Nat :=
  s.ownPair * 1024 + (if s.isHub then 512 + s.boot.cfg.pos else s.boot.leafIndex)

/-- Forward a command with its mailbox copy (R461): up to the primary of the upper pair, or over the chord; it then
waits for the response. -/
def forwardCmd (s : State) (i : CmdInfo) (h : CmdHdr) (overChord : Bool) : State :=
  let m := (mbOf h.src).getD 0
  let b := s.mb m
  let tier := if h.route = 0 then s.tier else h.route
  let msg := TxMsg.forward s.blockId m b.seq tier i.opcode i.mirrored (BitVec.ofNat 512 (leNat (copyBytes b.copy))) false
  let s1 := { s with scriv := { s.scriv with
    fwds := s.scriv.fwds ++ [({ src := h.src, seq := b.seq, sentAt := s.htNs, tier := tier, opcode := i.opcode, slot := h.slot, msg := msg, overChord := overChord } : Fwd)] } }
  if overChord then s1.sendChord msg else s1.sendUp msg

/-- Whether a forwarded command began at this block. -/
def Fwd.own (f : Fwd) : Bool := match f.src with | .forward _ _ _ => false | _ => true

/-- A forwarded command as it is sent again. -/
def TxMsg.again : TxMsg → TxMsg
  | .forward b m q t o x l _ => .forward b m q t o x l true
  | x => x

/-- Every command that this block forwarded up and that is still unanswered is sent again to the new primary above (R462). -/
def State.resendForwards (s : State) : State :=
  s.scriv.fwds.foldl (fun s f => if f.overChord || !f.own then s else s.sendUp f.msg.again) s

/-- What a command answers: it fails and changes nothing. -/
def CmdRes.err (s : State) (c : St) : CmdRes := .done s c []
/-- A command completes with ST_OK. -/
def CmdRes.ok (s : State) (out : List Byte) : CmdRes := .done s .ok out

/-- A failed fabric read of a command (R545): its code, and the bit that it sets (R509): ST_RANGE on an error beat, ST_POISON on a poisoned
one. -/
def readFailed {α : Type} (s : State) : FabRead α → Option (State × St)
  | .ok _ => none
  | .poison => some ({ s with irq := { s.irq with fbPoison := true } }, .poison)
  | .err => some ({ s with irq := { s.irq with rdErr := true } }, .range)

/-- Two reads of one command: an error beat in either prevails over a poisoned one (R545). -/
def bothReads {α : Type} : FabRead Unit → FabRead α → FabRead Unit
  | .err, _ => .err
  | _, .err => .err
  | .poison, _ => .poison
  | _, .poison => .poison
  | .ok _, .ok _ => .ok ()

/-- What a command's own fabric read gives (R545): the data, or the code of its failure; a failed read changes nothing but its bit. -/
def withRead {α : Type} (s : State) (r : FabRead α) (k : α → CmdRes) : CmdRes :=
  match r with
  | .ok v => k v
  | .poison => .err { s with irq := { s.irq with fbPoison := true } } .poison
  | .err => .err { s with irq := { s.irq with rdErr := true } } .range

/-- What a command answers when the fabric write of its results returned an error (R545): ST_RANGE and, as the count of what was
written, a free value up to the count asked for. -/
def writeFailed (s : State) (count : Nat) (out : Nat → List Byte) : CmdRes :=
  .done { s with irq := { s.irq with wrErr := true }, freeCtr := s.freeCtr + 1 } .range (out (Config.freeRandom s.freeCtr % (count + 1)))

/-- A guard refuses a write (R455): it is not performed, GUARD_TRIPS rises, a record of event 0x0923 holds the target and the address, and
the command completes with ST_GUARD. The write refused is the command's first one, so that none stands (DESIGN CHOICE, log 103). -/
def guardTrip (s : State) (g : Nat × Nat) : CmdRes :=
  let s1 := { s with scriv := { s.scriv with guardTrips := (s.scriv.guardTrips + 1) % 65536 } }
  .done (s1.record { event := 0x0923, code := St.guard.val, syn := le 2 g.1 ++ [0, 0] ++ le 4 g.2 }) .guard []

/-- The guard unit stands between a command and hardware control state (R455): a command that its own checks let through ends with the write
that the guard refuses. -/
def CmdRes.guarded (s : State) (g : Option (Nat × Nat)) (r : CmdRes) : CmdRes :=
  match g with
  | none => r
  | some x =>
    match r with
    | .done _ c _ => if c = .ok then guardTrip s x else r
    | .wait _ => guardTrip s x

/-- What becomes of a command that ran here to its end, before it completes: a flash write that fails twice sets FLASH_ERR and fails it
with ST_BUSY (R519), and a failed fabric write of results that do not fit the response fails it with ST_RANGE (R545). -/
def CmdRes.settled (i : CmdInfo) (h : CmdHdr) (s : State) (r : CmdRes) : CmdRes :=
  match r with
  | .done t c out =>
    if i.flash && !h.flashOk && decide (c = .ok) then .err { s with irq := { s.irq with flashErr := true } } .busy
    else if h.wrErr && (mbOf h.src).isSome && decide (c = .ok) && decide (40 < out.length) then writeFailed t out.length (fun n => le 4 n)
    else r
  | .wait _ => r

/-- Run a command: the checks of R460, the read of its parameter block (R464), then its route, and here its body behind the guard unit. -/
def runCmd (i : CmdInfo) (h : CmdHdr) (s : State) (body : State → CmdRes) : Out :=
  match gate i h s with
  | some c => .next (complete s h.src i.opcode c [])
  | none =>
    match readFailed s h.param with
    | some (t, c) => .next (complete t h.src i.opcode c [])
    | none =>
      match route s i h with
      | .up => .next (forwardCmd s i h false)
      | .chord => .next (forwardCmd s i h true)
      | .fail c => .next (complete s h.src i.opcode c [])
      | .here =>
        match ((body s).guarded s h.guard).settled i h s with
        | .done t c out => .next (complete t h.src i.opcode c out)
        | .wait t => .next t

/-- Whether a route forwards the command. -/
def Route.forwards : Route → Bool
  | .up => true
  | .chord => true
  | _ => false

/-- Run a command that reads data over the fabric (R545). A block that forwards it makes the read first, and forwards nothing when it
fails (R461); where the command runs here its body makes the read. -/
def runRead {α : Type} (i : CmdInfo) (h : CmdHdr) (s : State) (r : FabRead α) (body : State → CmdRes) : Out :=
  runCmd i (if (route s i h).forwards then { h with param := bothReads h.param r } else h) s body

end Sys2Proof.Machine
end

