-- ==== Sys2Proof/Machine/Dpll.lean ====
section
/-! DEFINITION. The DPLL, its references, its oscillator and its holdover model (chapter 3): the shared operations and
the meanings of the reference, oscillator and DPLL rows. -/

set_option linter.unusedVariables false

namespace Sys2Proof.Machine

/-! ## Shared operations -/

/-- One event of HB_DPLL_HIST (R92): its bit is set and a Daybook record of event 0x0100 + n is formed. Hubs only. -/
def State.hist (s : State) (n : Nat) : State :=
  if s.isHub then
    { s with dpll := { s.dpll with hist := s.dpll.hist ||| (1#22 <<< n) } }.record { event := 0x0100 + n, sub := n }
  else s

/-- The chord ports whose timing is usable. -/
def State.chordTime (s : State) : List Nat :=
  if s.isHub then ((List.range 8).map (288 + ·)).filter (fun p => (s.port p).timeUsable) else []

/-- The chord ports that a Hub slaves to (R407, R414): a Partner or a Claiming Hub slaves to its other Hub, a Syncing or Isolated
one while that Hub carries PRIMARY. -/
def State.slavePorts (s : State) : List Nat :=
  match s.pair.role with
  | .primary => []
  | .partner => s.chordTime
  | .claiming => s.chordTime
  | _ => s.chordTime.filter (fun p => (s.port p).peerPrimary)

/-- The time-usable ports toward the block's parent. -/
def State.usableUp (s : State) : List Nat := s.params.portList.filter (fun p => s.params.isUp p && (s.port p).timeUsable)

/-- The status word that the block reports while its synthesiser is locked (R91, R408, R30, R58). A Leaf whose source is forced to a port that is not
time-usable reports the word of its other port, which is (R144, R147). -/
def State.wordBase (s : State) : StatusWord :=
  let follow (p : Nat) : StatusWord := if s.tsrc.criteria then (s.port p).peerStatus else .acquiring
  if s.isHub then
    match s.slavePorts with
    | p :: _ => follow p
    | [] =>
      if s.isTop then s.dpll.state
      else match s.tsrc.source with
        | some q => follow q
        | none => if s.time.valid then .holdover else .freeRun
  else
    match s.tsrc.source.or s.usableUp.head? with
    | some q => follow q
    | none => if s.time.valid then .lost else .freeRun

/-- The status word that the block reports: Lost while the synthesiser has lost its lock (R503). -/
def State.wordNow (s : State) : StatusWord := if s.time.synLost then .lost else s.wordBase

/-- Bring STATE of DX_TIME_STATE up to date (R91): a change counts in CHANGES, sets TIME_CHG and is mirrored. -/
def State.refreshWord (s : State) : State :=
  let w := s.wordNow
  if w = s.time.word then s
  else
    { s with time := { s.time with word := w, changes := (s.time.changes + 1) % 65536 }
             irq := { s.irq with timeChg := true } }.mirror (.status w)

/-- The temperature in use, in °C (R85). -/
def State.tempC (s : State) : Rat := if s.dpll.cfg.tempExternal then s.dpll.tempExt else s.dpll.tempDie

/-- The age in hours on the model's scale (R81). -/
def State.ageH (s : State) (t : HT) : Rat :=
  ((t : Int) - (s.dpll.model.ageEpoch : Int) : Int) / (3600000000000 : Rat)

/-- The model's prediction in ppb (R81): a0 + a1·age + b1·(T − T0) + b2·(T − T0)². -/
def modelF (m : ModelData) (age t : Rat) : Rat := m.a0 + m.a1 * age + m.b1 * (t - m.t0) + m.b2 * (t - m.t0) * (t - m.t0)

/-- The absolute value of a rational. -/
def rabs (x : Rat) : Rat := if x < 0 then -x else x

/-- The nearest integer, halves away from zero. -/
def rround (x : Rat) : Int := if x < 0 then -((-x + 1 / 2).floor) else (x + 1 / 2).floor

/-- The limit of FCW: 50 ppm in units of 2⁻⁵⁶ (R59). -/
def fcwLimit : Int := 3602879701896

/-- Keep an FCW within ±50 ppm (R59). -/
def clampFcw (v : Int) : Int := if v > fcwLimit then fcwLimit else if v < -fcwLimit then -fcwLimit else v

/-- The FCW of a frequency offset in ppb (R59). -/
def fcwOf (y : Rat) : Int := clampFcw (rround (y * (72057594037927936 : Rat) / 1000000000))

/-- The length of an hour, in ns. -/
def hourNs : Nat := 3600000000000

/-- The counted bins that lie in the learning window (R83). -/
def State.binsNow (s : State) (l : List Bin) : List Bin := l.filter (fun x => decide (s.htNs ≤ x.at_ + s.dpll.cfg.windowH * hourNs))

/-- MODEL_USABLE by R83: the OCXO is trusted and at least 60 counted bins lie in the window or a loaded model is present. In Lost and Holdover FCW
holds once the model is unusable (R87). -/
def State.refreshModel (s : State) : State :=
  let u := s.dpll.trusted && (decide (60 ≤ (s.binsNow s.dpll.bins).length) || s.dpll.modelLoaded)
  let hold := !u && (decide (s.dpll.state = .holdover) || decide (s.dpll.state = .lost))
  if u = s.dpll.usable then s
  else { s with dpll := { s.dpll with usable := u, fcwTarget := if hold then s.dpll.fcw else s.dpll.fcwTarget } }.hist 14

/-- Whether |FCW − target| needs more than one tick at 0.1 ppm/s, which is 7 units of 2⁻⁵⁶ per tick (R76). -/
def slewNeeded (fcw target : Int) : Bool := decide ((target - fcw).natAbs > 7)

/-- Give the DPLL a new FCW target (R76): the slew limit engages when it takes more than one tick. -/
def State.fcwTo (s : State) (v : Int) : State :=
  let t := clampFcw v
  let s1 := { s with dpll := { s.dpll with fcwTarget := t } }
  if slewNeeded s.dpll.fcw t then
    (if s.dpll.fslew then s1 else { s1 with dpll := { s1.dpll with fslew := true, binClean := false } }.hist 15)
  else s1

/-- The integral of FCW over HT from `a` to `b`, from a log of changes (newest first). -/
def fcwIntegral (log : List (HT × Int)) (a b : HT) : Int :=
  match log with
  | [] => 0
  | (t, v) :: r =>
    if b ≤ a then 0
    else if t ≤ a then v * ((b : Int) - a)
    else if t < b then v * ((b : Int) - t) + fcwIntegral r a t
    else fcwIntegral r a b

/-- F0 (R86): the mean FCW over the 8 s that end 100 ms before the loss. -/
def State.meanFcw (s : State) : Int :=
  let b := s.htNs - 100000000
  let a := b - 8000000000
  if b ≤ a then s.dpll.fcw else fcwIntegral s.dpll.fcwLog a b / ((b : Int) - a)

/-- The correction of HT on the next tick toward a phase that is still to be moved, in units of 2⁻⁴⁸ ns: at most the slope, in 0.1 ns/s (R77). -/
def stepCorr (slopeTenth : Nat) (left : Int) : Int :=
  let c : Int := (slopeTenth * 2 ^ 48 / 10000000000 : Nat)
  if c < left then -c else if left < -c then c else -left

/-- The phase of HT is moved toward zero error (R77): `e` is the error in units of 2⁻⁸ ns. -/
def State.aim (s : State) (e : Int) : State :=
  { s with dpll := { s.dpll with pullLeft := e * 2 ^ 40 }, time := { s.time with corr := stepCorr s.dpll.cfg.slopeTenth (e * 2 ^ 40) } }

/-- No phase is moved any more: PULL and SLEW clear. -/
def State.stopPull (s : State) : State :=
  { s with dpll := { s.dpll with pull := false, pullLeft := 0 }, time := { s.time with corr := 0, slew := false } }

/-- FCW holds its present value. -/
def State.holdFcw (s : State) : State := { s with dpll := { s.dpll with fcwTarget := s.dpll.fcw } }

/-- A DPLL state is entered (R89, Table 3.4): the history bit of the entry, UNLOCK when Locked is left, and the entry values
of Holdover (R86, R87). -/
def State.enterNow (s : State) (w : StatusWord) : State :=
  let s1 := if s.dpll.state = .locked ∧ w ≠ StatusWord.locked then s.hist 1 else s
  let s2 := { s1 with dpll := { s1.dpll with state := w, lockRun := 0, unlockRun := 0, binClean := if w = StatusWord.locked then s1.dpll.binClean else false } }
  match w with
  | .locked => (s2.hist 0).refreshWord
  | .acquiring => s2.refreshWord
  | .lost => (s2.hist 10).refreshWord
  | .freeRun =>
    let s3 := (if s.dpll.state = .freeRun then s2 else s2.hist 11).holdFcw.stopPull
    ({ s3 with dpll := { s3.dpll with active := none } }).refreshWord
  | .holdover =>
    let s3 := (s2.hist 9).stopPull
    (({ s3 with dpll := { s3.dpll with
          holdEntry := some s.htNs, holdSeconds := 0, holdF0 := s.meanFcw
          holdFe := modelF s.dpll.model (s.ageH s.htNs) s.tempC, active := none } }).mirror
        (.holdoverEntry (some s.htNs))).refreshWord

/-- Enter a DPLL state, unless it is the present one. -/
def State.enter (s : State) (w : StatusWord) : State := if s.dpll.state = w then s else s.enterNow w

/-- Holdover when the model is usable, Free-run otherwise (R86). -/
def State.loseInput (s : State) : State := if s.dpll.usable then s.enter .holdover else s.enter .freeRun

/-- The rank of a quality level (R63, Table 3.2): the enhanced code when present, else the SSM code of option I or II;
a code not listed is rank 15. -/
def rankOf (optII : Bool) (q : QlReport) : Nat :=
  match q.eql with
  | some e => match e with
    | 0x21 => 1 | 0x20 => 2 | 0x23 => 3 | 0x22 => 10 | _ => 15
  | none =>
    if optII then match q.ssm with
      | 0x1 => 4 | 0x0 => 5 | 0x7 => 6 | 0x4 => 7 | 0xD => 9 | 0xA => 11 | 0xC => 12 | 0xE => 13 | _ => 15
    else match q.ssm with
      | 0x2 => 4 | 0x4 => 6 | 0x8 => 8 | 0xB => 11 | _ => 15

/-- The priority in force of reference `n` (Tables 3.7 and 3.9): none before start-up has run (log 72). -/
def State.prio (s : State) (n : Nat) : Nat := if s.boot.stage = 0 then 0 else (s.dpll.cfg.prio[n]?).getD 0

/-- Whether a reference carries phase (Table 3.1). -/
def phaseCarrying (n : Nat) : Bool := n == 2 || n == 3

/-- The first four conditions of R68. A pair below the top uses no reference (R29, R59), so none of its references meets them. -/
def State.refCond (s : State) (n : Nat) : Bool :=
  let r := s.ref n
  s.isTop && s.prio n != 0 && decide (r.rank < 15) && !r.los && decide (rabs r.y ≤ (s.dpll.cfg.freqAccTenthPpm : Rat) * 100)

/-- The pairs of references that include `n`, as keys 4·low + high. -/
def pairsOf (n : Nat) : List Nat := ([1, 2, 3, 6, 7, 11]).filter (fun k => k / 4 == n || k % 4 == n)

/-- Recompute DISQ of every reference from its Disputed pairs (R74): a reference that any of its pairs disqualifies is
disqualified; a new disqualification sets DISQ. -/
def State.refreshDisq (s : State) : State :=
  (List.range 4).foldl (fun s n =>
    let d := (pairsOf n).any (fun k =>
      let p := s.dpll.disp.get {} k
      p.marked && (if k / 4 == n then p.nDisq else p.mDisq))
    if d = (s.ref n).disq then s
    else
      let s1 := s.modRef n (fun r => { r with disq := d })
      (if d then s1.hist 8 else s1).mirror (.refState n (s.ref n).qualified d d (s.ref n).wtrStart)) s

/-- Clear every dispute that involves `n` (R75). -/
def State.clearDisputes (s : State) (n : Nat) : State :=
  let s1 := { s with dpll := { s.dpll with disp := (pairsOf n).foldl (fun d k => d.set {} k {}) s.dpll.disp } }
  ((pairsOf n).foldl (fun s' k => if (s.dpll.disp.get {} k).marked then s'.mirror (.dispute k false) else s') s1).refreshDisq

/-- A reference fails one of its conditions (R68): it loses qualification at once, its disputes clear (R75), and its
wait-to-restore timer restarts. The mirror carries both (R61). -/
def State.dropQual (s : State) (n : Nat) : State :=
  let was := (s.ref n).qualified
  let s1 := s.modRef n (fun r => { r with qualified := false, wtrStart := none })
  (if was then (s1.hist 3).clearDisputes n else s1).mirror (.refState n false false false none)

/-- Bring a reference's conditions up to date (R68): wait-to-restore starts when they begin to hold, and qualification
goes when one fails. -/
def State.updCond (s : State) (n : Nat) : State :=
  let oor := !decide (rabs (s.ref n).y ≤ (s.dpll.cfg.freqAccTenthPpm : Rat) * 100)
  let s1 := s.modRef n (fun r => { r with freqOor := oor })
  if s1.refCond n then
    (if (s1.ref n).qualified || (s1.ref n).wtrStart.isSome then s1
     else (s1.modRef n (fun r => { r with wtrStart := some s.htNs })).mirror (.refState n false false (s1.ref n).disq (some s.htNs)))
  else if (s1.ref n).qualified || (s1.ref n).wtrStart.isSome then s1.dropQual n else s1

/-- A reference qualifies. -/
def State.qualify (s : State) (n : Nat) : State :=
  ((s.modRef n (fun r => { r with qualified := true, wtrStart := none })).hist 4).mirror (.refState n true false (s.ref n).disq none)

/-- A new rank of a reference (R63): QL_CHANGE when it changes. -/
def State.setRank (s : State) (n rank : Nat) : State :=
  if (s.ref n).rank = rank then s.updCond n else ((s.modRef n (fun r => { r with rank := rank })).hist 5).updCond n

/-! ### Disputes and selection -/

/-- Resolve one Disputed pair (R74). -/
def State.resolvePair (s : State) (k : Nat) : State :=
  let n := k / 4; let m := k % 4
  let p := s.dpll.disp.get {} k
  if !p.marked then s
  else
    let thr : Rat := s.dpll.cfg.dispThrPpb
    let f := modelF s.dpll.model (s.ageH s.htNs) s.tempC
    let dn := rabs ((s.ref n).y - f); let dm := rabs ((s.ref m).y - f)
    let (a, b) :=
      if !s.dpll.usable then (true, true)
      else if thr < dn && thr < dm then (true, true)
      else if dn ≤ dm then (false, true) else (true, false)
    { s with dpll := { s.dpll with disp := s.dpll.disp.set {} k { p with nDisq := a, mDisq := b } } }

/-- The keys of all pairs of references. -/
def allPairs : List Nat := [1, 2, 3, 6, 7, 11]

/-- Resolve every Disputed pair (R74). -/
def State.resolveDisputes (s : State) : State := (allPairs.foldl State.resolvePair s).refreshDisq

/-- The dispute test of one pair at the end of a gate (R73), and the start of the 60 s of agreement (R75), which any marked pair may reach. A member
without a valid y of this gate counts with the y held from an earlier one: the manual does not say (DESIGN CHOICE, log 94). -/
def State.gatePair (s : State) (k : Nat) : State :=
  let n := k / 4; let m := k % 4
  let p := s.dpll.disp.get {} k
  let thr : Rat := s.dpll.cfg.dispThrPpb
  let d := rabs ((s.ref n).y - (s.ref m).y)
  let put (p : DispSt) : State := { s with dpll := { s.dpll with disp := s.dpll.disp.set {} k p } }
  if p.marked then
    put { p with agreeSince := if d ≤ thr * 4 / 5 then (match p.agreeSince with | some t => some t | none => some s.htNs) else none }
  else if (s.ref n).qualified && (s.ref m).qualified && (s.ref n).rank == (s.ref m).rank then
    if thr < d then
      if s.dpll.cfg.dispPersist ≤ p.count + 1 then
        (let s1 := put { p with count := 0, marked := true }
         let on := decide (s.dpll.active = some n) || decide (s.dpll.active = some m)
         ({ s1 with dpll := { s1.dpll with binClean := s1.dpll.binClean && !on } }.hist 7).mirror (.dispute k true))
      else put { p with count := p.count + 1 }
    else put { p with count := 0 }
  else put { p with count := 0 }

/-- `better(n, m)` of R72. -/
def State.better (s : State) (n m : Nat) : Bool :=
  if (s.ref n).rank ≠ (s.ref m).rank then decide ((s.ref n).rank < (s.ref m).rank)
  else if s.prio n ≠ s.prio m then decide (s.prio n < s.prio m)
  else decide (n < m)

/-- Whether a reference may be selected: qualified, not disqualified, not out of phase acceptance (R70), and, before the
first TAI mapping is applied, frequency-only (R486). -/
def State.selectable (s : State) (n : Nat) : Bool :=
  (s.ref n).qualified && !(s.ref n).disq && !(s.ref n).phaseOor && (s.time.taiValid || !phaseCarrying n)

/-- The choice of R71 and R72 among the selectable references. -/
def State.pick (s : State) : Option Nat :=
  let best := (List.range 4).foldl (fun (b : Option Nat) n =>
    if !s.selectable n then b
    else match b with
      | none => some n
      | some m => if s.better n m then some n else b) none
  match s.dpll.active, best with
  | some a, some b =>
    if !s.dpll.cfg.revertive && s.selectable a && decide ((s.ref a).rank ≤ (s.ref b).rank) then some a else some b
  | _, b => b

/-- The choice, passing over phase-carrying references whose phase error exceeds the phase acceptance at the moment they
would become active; each of them sets PHASE_OOR (R70). -/
def State.pickOk (s : State) : Nat → State × Option Nat
  | 0 => (s, none)
  | k + 1 =>
    match s.pick with
    | none => (s, none)
    | some n =>
      if phaseCarrying n && decide (s.dpll.active ≠ some n) &&
          decide ((s.ref n).phase.natAbs > s.dpll.cfg.phaseAccNs * 256) then
        ((s.modRef n (fun r => { r with phaseOor := true })).hist 21).pickOk k
      else (s, some n)

/-- The correction of HT per tick while a phase is pulled, in units of 2⁻⁴⁸ ns: the slope in 0.1 ns/s, against the sign
of the error (R77). -/
def pullCorr (slopeTenth : Nat) (e : Int) : Int :=
  let c : Int := (slopeTenth * 2 ^ 48 / 10000000000 : Nat)
  if e > 0 then -c else if e < 0 then c else 0

/-- Start or retarget a phase pull toward zero error (R77, R78). -/
def State.pullTo (s : State) (e : Int) : State :=
  if e = 0 then s.stopPull
  else
    let s1 := ({ s with dpll := { s.dpll with pull := true, phaseTarget := 0, binClean := false } }).aim e
    (if s.dpll.pull then s1 else s1.hist 16).mirror (.phaseTarget 0)

/-- Apply a selection (R71, R77, R88, Table 3.4). -/
def State.applySel (s : State) (sel : Option Nat) : State :=
  if sel = s.dpll.active then
    (match sel with
     | some _ => s
     | none => if s.dpll.state = .acquiring ∨ s.dpll.state = .locked then s.loseInput else s)
  else
    match sel with
    | none =>
      let s1 := { s.stopPull with dpll := { s.stopPull.dpll with active := none, binClean := false } }
      if s.dpll.state = .acquiring ∨ s.dpll.state = .locked then s1.loseInput else s1
    | some n =>
      let s1 := ({ s with dpll := { s.dpll with active := some n, binClean := false, lockRun := 0, unlockRun := 0 } }).hist 2
      let e := (s.ref n).phase
      let s2 := if phaseCarrying n then s1.pullTo e
        else { s1.stopPull with dpll := { s1.stopPull.dpll with phaseTarget := s.dpll.phaseErr } }.mirror (.phaseTarget s.dpll.phaseErr)
      let s3 := s2.fcwTo (fcwOf (s.ref n).y)
      let within := !phaseCarrying n || decide (e.natAbs ≤ 2560)
      if s.dpll.state = .locked && within then s3.refreshWord else s3.enter .acquiring

/-- Whether the references drive this Hub's DPLL: it is of the top pair, not slaved over the chord, and no Partner (R59, R61, R29, R409). -/
def State.selecting (s : State) : Bool :=
  s.isTop && s.slavePorts.isEmpty && !decide (s.pair.role = .partner)

/-- The forced reference of mode 1 (R93): followed while it is qualified and, as it becomes active, may be selected under R70 and R486. -/
def State.forced (s : State) : State × Option Nat :=
  let n := s.dpll.modeRef
  if !(s.ref n).qualified || (phaseCarrying n && !s.time.taiValid) then (s, none)
  else if phaseCarrying n && decide (s.dpll.active ≠ some n) && decide ((s.ref n).phase.natAbs > s.dpll.cfg.phaseAccNs * 256) then
    ((if (s.ref n).phaseOor then s else (s.modRef n (fun r => { r with phaseOor := true })).hist 21), none)
  else (s, some n)

/-- Run selection in the mode in force (R71, R93, Table 3.5). -/
def State.selectNow (s : State) : State :=
  if !s.selecting then s
  else
    match s.dpll.mode with
    | 0 => let (s1, n) := s.pickOk 5; s1.applySel n
    | 1 => let (s1, n) := s.forced; s1.applySel n
    | _ => s

/-- Resolve the Disputed pairs of a Hub of the top pair (R74) and run selection. -/
def State.reselect (s : State) : State := if s.isTop then s.resolveDisputes.selectNow else s

/-- A phase error taken into −500,000,000 ns to +499,999,999 ns, in units of 2⁻⁸ ns (R70). -/
def ppsError (v : Int) : Int :=
  let m := v % (1000000000 * 256 : Int)
  if 500000000 * 256 ≤ m then m - 1000000000 * 256 else m

/-- A new phase error of a phase-carrying reference: it leaves PHASE_OOR once it falls within the acceptance (R70), and the phase of HT
moves toward zero error while the reference is active (R77). -/
def State.newPhase (s : State) (n : Nat) (e : Int) : State :=
  let s1 := s.modRef n (fun r => { r with phase := e, phaseOor := r.phaseOor && decide (e.natAbs > s.dpll.cfg.phaseAccNs * 256) })
  if s.selecting && decide (s.dpll.active = some n) && decide (s.dpll.mode ≤ 1) then s1.aim e else s1

/-- A new TAI mapping or a changed compensation moves the phase error of a reference and replaces the phase target (R70, R78). The error of REF2 stays
within its range. -/
def State.movePhase (s : State) (n : Nat) (d : Int) : State :=
  let e := if n = 2 then ppsError ((s.ref n).phase + d) else (s.ref n).phase + d
  let s1 := s.newPhase n e
  if s.selecting && decide (s.dpll.active = some n) && decide (s.dpll.mode ≤ 1) then s1.pullTo e else s1

/-- The phase error of the active reference, in units of 2⁻⁸ ns: 0 for a frequency-only reference (HB_PHASE_ERR). -/
def State.phaseErrOut (s : State) : Int :=
  match s.dpll.active with
  | some n => if phaseCarrying n then (s.ref n).phase else 0
  | none => 0

/-! ## The model fit (R83) -/

/-- The dot product of two columns. -/
def dot : List Rat → List Rat → Rat
  | a :: r, b :: t => a * b + dot r t
  | _, _ => 0

/-- One elimination step: clear column 0 of every row with the pivot row, then drop it. -/
def elimRow (p r : List Rat) : List Rat :=
  match p, r with
  | a :: ps, b :: rs => (List.zipWith (fun x y => y - x * (b / a)) ps rs)
  | _, _ => r

/-- Solve a square system of `k` rows, each with its right side last; `none` when a pivot is zero. -/
def solve : Nat → List (List Rat) → Option (List Rat)
  | 0, _ => some []
  | k + 1, rows =>
    match rows with
    | [] => none
    | p :: rest =>
      match p with
      | [] => none
      | a :: ps =>
        if a = 0 then none
        else
          match solve k (rest.map (elimRow p)) with
          | none => none
          | some xs =>
            some (((ps.getLast?.getD 0) - dot ps.dropLast xs) / a :: xs)

/-- Least squares of `y` on columns, by the normal equations. -/
def leastSquares (cols : List (List Rat)) (y : List Rat) : Option (List Rat) :=
  solve cols.length (cols.map (fun c => cols.map (dot c) ++ [dot c y]))

/-- The sum of a list of rationals. -/
def rsum : List Rat → Rat
  | [] => 0
  | a :: r => a + rsum r

/-- The difference between the largest and the smallest of a list of rationals. -/
def rspan (l : List Rat) : Rat :=
  match l with
  | [] => 0
  | a :: r => (r.foldl max a) - (r.foldl min a)

/-- The largest n up to 255 with (n/100)² at most `v`: RESID (R83, Table 3.9), rounded down: the manual gives no rounding (DESIGN CHOICE, log 94). -/
def residOf (v : Rat) : Nat → Nat
  | 0 => 0
  | n + 1 => if ((n + 1 : Nat) : Rat) * ((n + 1 : Nat) : Rat) ≤ v * 10000 then n + 1 else residOf v n

/-- The least-squares fit of a0 and of the terms that are marked (a1, b1, b2), the others held fixed (R83); `none` when the system is singular. -/
def State.fitTerms (s : State) (t0 : Rat) (f : Bool × Bool × Bool) : Option (List Rat) :=
  let b := s.dpll.bins
  let m := s.dpll.model
  let age := fun (x : Bin) => s.ageH x.at_
  let fixed := fun (x : Bin) => (if f.1 then 0 else m.a1 * age x) + (if f.2.1 then 0 else m.b1 * (x.t - t0)) + (if f.2.2 then 0 else m.b2 * (x.t - t0) * (x.t - t0))
  let cols := [b.map (fun _ => (1 : Rat))] ++ (if f.1 then [b.map age] else []) ++ (if f.2.1 then [b.map (fun x => x.t - t0)] else []) ++
    (if f.2.2 then [b.map (fun x => (x.t - t0) * (x.t - t0))] else [])
  leastSquares cols (b.map (fun x => x.y - fixed x))

/-- Fit the model over the counted bins (R83). Where too few distinct samples leave the system singular, b2, then b1, then a1 are not fitted, so that a0
always is (DESIGN CHOICE, log 17). -/
def State.fitModel (s : State) : State :=
  let b := s.dpll.bins
  let m := s.dpll.model
  if b.isEmpty then s
  else
    let n : Rat := b.length
    let t0 := rsum (b.map (·.t)) / n
    let age := fun (x : Bin) => s.ageH x.at_
    let tspan := rspan (b.map (·.t))
    let f1 := decide (6 ≤ rspan (b.map age)); let fb1 := decide (1 ≤ tspan); let fb2 := decide (3 ≤ tspan)
    match [(f1, fb1, fb2), (f1, fb1, false), (f1, false, false), (false, false, false)].findSome? (fun f => (s.fitTerms t0 f).map (fun xs => (f, xs))) with
    | none => s
    | some ((f1, fb1, fb2), xs) =>
      let a0 := (xs[0]?).getD 0
      let r1 := xs.drop 1
      let (a1, r2) := if f1 then ((r1[0]?).getD 0, r1.drop 1) else (m.a1, r1)
      let (b1, r3) := if fb1 then ((r2[0]?).getD 0, r2.drop 1) else (m.b1, r2)
      let b2 := if fb2 then (r3[0]?).getD 0 else m.b2
      let m' := { m with a0 := a0, a1 := a1, b1 := b1, b2 := b2, t0 := t0, external := s.dpll.cfg.tempExternal }
      let res := b.map (fun x => let d := x.y - modelF m' (age x) x.t; d * d)
      { s with dpll := { s.dpll with model := m', a1Fit := f1, b1Fit := fb1, b2Fit := fb2, resid := residOf (rsum res / n) 255 } }

/-! ## Meanings: references -/

/-- Whether the loss of a reference is to be declared (Table 3.1): no edge for 4 nominal periods of REF0 or REF1, no pi_10m edge for 400 ns or no pi_pps
edge for 1,500,000,000 ns, no offset report within the REF3 report timeout. -/
def State.lossDue (s : State) (n : Nat) : Bool :=
  let r := s.ref n
  let c := s.dpll.cfg
  match n with
  | 0 => decide (4000000 ≤ (s.htNs - r.lastEdge) * c.nomKhz0)
  | 1 => decide (4000000 ≤ (s.htNs - r.lastEdge) * c.nomKhz1)
  | 2 => decide (r.lastEdge + 400 ≤ s.htNs) || decide (r.lastPps + 1500000000 ≤ s.htNs)
  | _ => decide (r.lastEdge + c.ref3TmoS * 1000000000 ≤ s.htNs)

/-- R62, R68: a loss is declared on reference `n`. -/
def execRefLoss (n : Nat) (s : State) : Out :=
  if s.isTop && decide (n < 4) && s.lossDue n then
    let s1 := s.modRef n (fun r => { r with los := true })
    .next (s1.updCond n).reselect
  else .next s

/-- One bit of CRC-16 with polynomial 0x1021, no reflection. -/
def crc16Bit (c : Nat) : Nat := if 0x8000 ≤ c then ((c * 2) % 65536) ^^^ 0x1021 else c * 2

/-- CRC-16 of the REF2 status message (Table 3.3). -/
def crc16 (l : List Byte) : Nat :=
  l.foldl (fun c b => (List.range 8).foldl (fun c _ => crc16Bit c) (c ^^^ (b.toNat * 256))) 0xFFFF

/-- Whether a REF2 status message is well formed (R65, R66): SYNC, VER, CRC and the reserved bits. -/
def xsOk (l : List Byte) : Bool :=
  l.length == 16 && fieldAt l 0 1 == 0xD5 && fieldAt l 1 1 == 0x58 && fieldAt l 2 1 == 1 &&
    fieldAt l 3 1 < 16 && fieldAt l 11 1 < 4 && fieldAt l 14 2 == crc16 (l.take 14)

/-- R66: no valid status message within the timeout: rank 15 and QL_TIMEOUT. -/
def execStatusMessageTimeout (s : State) : Out :=
  if s.isTop && decide (s.dpll.lastMsg + s.dpll.cfg.msgTmoS * 1000000000 ≤ s.htNs) then .next ((s.hist 6).setRank 2 15).reselect
  else .next s

/-- R64: a quality level of REF0 or REF1 not refreshed within 5 s becomes rank 15 and sets QL_TIMEOUT. -/
def execQlTimeout (n : Nat) (s : State) : Out :=
  if s.isTop && decide (n < 2) && decide ((s.ref n).lastReport + 5000000000 ≤ s.htNs) then .next ((s.hist 6).setRank n 15).reselect
  else .next s

/-- R85: the external temperature word was not refreshed within 10 s: it is held, STALE and TEMP_TIMEOUT. -/
def execTempTimeout (s : State) : Out :=
  if s.isHub && s.dpll.cfg.tempExternal && decide (s.dpll.tempAt + 10000000000 ≤ s.htNs) then
    .next ({ s with dpll := { s.dpll with stale := true } }.hist 18)
  else .next s

/-- R68: the wait-to-restore time of a reference has passed without interruption: it qualifies. -/
def execWaitToRestoreExpiry (n : Nat) (s : State) : Out :=
  if s.isHub && decide (n < 4) && s.refCond n && !(s.ref n).qualified then
    match (s.ref n).wtrStart with
    | some t => if t + s.dpll.cfg.wtrS * 1000000000 ≤ s.htNs then .next (s.qualify n).reselect else .next s
    | none => .next s
  else .next s

/-- R75: a Disputed pair has agreed within 0.8 of the threshold for 60 s: the mark and its disqualifications clear. -/
def execDisputeClear (n m : Nat) (s : State) : Out :=
  let k := if n < m then 4 * n + m else 4 * m + n
  let p := s.dpll.disp.get {} k
  if s.isHub && decide (n < 4) && decide (m < 4) && decide (n ≠ m) && p.marked then
    match p.agreeSince with
    | some t =>
      if t + 60000000000 ≤ s.htNs then
        .next (({ s with dpll := { s.dpll with disp := s.dpll.disp.set {} k {} } }.mirror (.dispute k false)).refreshDisq).reselect
      else .next s
    | none => .next s
  else .next s

/-! ## Meanings: the DPLL state -/

/-- Whether FCW and the status word come from CMD_DPLL_FCW (R94, R95): mode 4, before the open-loop timeout. -/
def State.openLoop (s : State) : Bool := s.dpll.mode == 4 && !s.dpll.openExpired

/-- R90, R89: the lock criteria have held for 10 s: Acquiring becomes Locked. -/
def execLockCriteriaMet (s : State) : Out :=
  if s.isHub && decide (s.dpll.state = .acquiring) && !s.openLoop && decide (10000000000 ≤ s.dpll.lockRun) then .next (s.enter .locked) else .next s

/-- R90, R89: the unlock criteria have held for 2 s: Locked becomes Acquiring. -/
def execUnlockCriteriaMet (s : State) : Out :=
  if s.isHub && decide (s.dpll.state = .locked) && !s.openLoop && decide (2000000000 ≤ s.dpll.unlockRun) then .next (s.enter .acquiring) else .next s

/-- Whether the conditions of R82 and R454 hold now: Locked or slaved, the active reference undisputed, no pull or slew, the OCXO trusted,
learning not frozen and the Scrivener not restarting. -/
def State.binCond (s : State) : Bool :=
  let slaved := decide (s.pair.role = .partner) && !s.chordTime.isEmpty
  (decide (s.dpll.state = .locked) || slaved) && s.dpll.trusted && !s.dpll.pull && !s.dpll.fslew &&
    !s.dpll.frozen && !s.scriv.restarting &&
    (match s.dpll.active with
     | some n => !((pairsOf n).any (fun k => (s.dpll.disp.get {} k).marked))
     | none => true)

/-- Whether a learning bin counts (R82): the conditions hold at its end, and none failed since its start, nor did the active reference
change. -/
def State.binCounts (s : State) : Bool := s.dpll.binClean && s.binCond

/-- The frequency offset in ppb of a sum of FCW over a count of ticks (R59). -/
def ppbOf (sum : Int) (n : Nat) : Rat := (sum : Rat) * 1000000000 / ((n : Nat) : Rat) / (72057594037927936 : Rat)

/-- R82, R83: the end of a 60 s learning bin with the mean temperature of its sensor; the mean FCW is that of the block over the bin. A bin that counts
joins the window and the model is fitted. The HT of a sample is the end of its bin, so AGE_EPOCH is the end of the first: the manual does not say which
instant of the bin counts (DESIGN CHOICE, log 94). -/
def execLearningBinEnd (meanTemp : Rat) (s : State) : Out :=
  if !s.isHub || decide (s.dpll.binN < 60000000000) then .next s
  else
    let s0 := if s.dpll.cfg.tempExternal then s else { s with dpll := { s.dpll with tempDie := meanTemp } }
    let next := fun (s : State) => { s with dpll := { s.dpll with binFcw := 0, binN := 0, binClean := s.binCond } }
    if s0.binCounts then
      let first := decide (s0.dpll.model = {}) && !s0.dpll.modelLoaded
      let s1 := if first then { s0 with dpll := { s0.dpll with model := { s0.dpll.model with ageEpoch := s.htNs } } } else s0
      let b : Bin := { t := meanTemp, y := ppbOf s.dpll.binFcw s.dpll.binN, at_ := s.htNs }
      .next (next ({ s1 with dpll := { s1.dpll with bins := s1.binsNow (s1.dpll.bins ++ [b]) } }.fitModel).refreshModel)
    else .next (next { s0 with dpll := { s0.dpll with bins := s0.binsNow s0.dpll.bins } }.refreshModel)

/-- R84: the model is written to flash while it is usable. Flash writes wait while the Scrivener restarts (R454). -/
def execModelFlashWrite (s : State) : Out :=
  if s.isHub && s.dpll.usable && !s.scriv.restarting then
    .next { s with flash := { s.flash with model := some s.dpll.model, modelAt := s.htNs } }
  else .next s

/-- R87: the time in holdover exceeds the holdover limit: Holdover becomes Lost. -/
def execHoldoverLimitExpiry (s : State) : Out :=
  match s.dpll.holdEntry with
  | some t =>
    if s.isHub && decide (s.dpll.state = .holdover) && !s.openLoop && decide (t + s.dpll.cfg.holdLimitS * 1000000000 < s.htNs) then
      .next (s.enter .lost)
    else .next s
  | none => .next s

/-- R87: |T − T0| exceeds the temperature excursion limit: Holdover becomes Lost. -/
def execTemperatureExcursion (temp : Rat) (s : State) : Out :=
  let s1 := if s.dpll.cfg.tempExternal then s else { s with dpll := { s.dpll with tempDie := temp } }
  if s.isHub then
    if s.dpll.state = .holdover ∧ s.openLoop = false ∧ (s.dpll.cfg.tempExcC : Rat) < rabs (s1.tempC - s.dpll.model.t0) then .next (s1.enter .lost) else .next s1
  else .next s

/-- R95: no CMD_DPLL_FCW within the open-loop timeout: OPEN_TIMEOUT, then Holdover or Free-run, in mode 4 still. Either is entered anew, whatever word
was last written. -/
def execOpenLoopTimeout (s : State) : Out :=
  if s.isHub && s.dpll.mode == 4 && !s.dpll.openExpired && decide (s.dpll.openAt + s.dpll.cfg.openTmoS * 1000000000 ≤ s.htNs) then
    .next ((({ s with dpll := { s.dpll with openExpired := true } }.hist 17)).enterNow (if s.dpll.usable then .holdover else .freeRun))
  else .next s

/-- R77, R78: the phase pull has reached its target. -/
def execPhasePullEnd (s : State) : Out :=
  if s.isHub && s.dpll.pull && decide (s.dpll.pullLeft = 0) then .next s.stopPull else .next s

/-- R76: the frequency slew has reached its target. -/
def execFrequencySlewEnd (s : State) : Out :=
  if s.isHub && s.dpll.fslew && decide (s.dpll.fcw = s.dpll.fcwTarget) then
    .next { s with dpll := { s.dpll with fslew := false } }
  else .next s

/-! ## Meanings: the oscillator -/

/-- Trust of the OCXO ends (R79, R80, R96): OCXO_COLD, the model is unusable, Holdover becomes Lost. -/
def State.endTrust (s : State) : State :=
  if s.dpll.trusted then
    let s1 := ({ s with dpll := { s.dpll with trusted := false, binClean := false } }.hist 12).refreshModel
    if s.dpll.state = .holdover ∧ s.openLoop = false then s1.enter .lost else s1
  else s

/-- R79, R80: ocxo_warm_n changes. -/
def execOcxoWarmChange (level : Bool) (s : State) : Out :=
  if !s.isHub || s.dpll.warmN == level then .next s
  else if level then .next { s.endTrust with dpll := { s.endTrust.dpll with warmN := true, settleStart := none } }
  else .next { s with dpll := { s.dpll with warmN := false, settleStart := some s.htNs } }

/-- R79: ocxo_warm_n has stayed at 0 for the settle time: the OCXO becomes trusted. -/
def execOcxoSettleExpiry (s : State) : Out :=
  match s.dpll.settleStart with
  | some t =>
    if s.isHub && !s.dpll.warmN && s.dpll.ocxoRun && !s.dpll.trusted && decide (t + s.dpll.cfg.settleMin * 60000000000 ≤ s.htNs) then
      .next ({ s with dpll := { s.dpll with trusted := true, settleStart := none } }.hist 13).refreshModel
    else .next s
  | none => .next s

/-! ## Meanings: the DPLL commands (Table 3.8) -/

/-- The ranges of Table 3.7. -/
def refCfgOk (c : RefCfg) : Bool :=
  c.prio.all (fun p => decide (p ≤ 15)) && c.prio.length == 4 && c.ssmII.length == 3 &&
  decide (1000 ≤ c.nomKhz0) && decide (c.nomKhz0 ≤ 200000) && c.nomRem0 == 0 &&
  decide (1000 ≤ c.nomKhz1) && decide (c.nomKhz1 ≤ 200000) && c.nomRem1 == 0 &&
  decide (1 ≤ c.gateMs) && decide (c.gateMs ≤ 16000) && decide (1 ≤ c.freqAccTenthPpm) && decide (c.freqAccTenthPpm ≤ 300) &&
  decide (c.wtrS ≤ 3600) && decide (100 ≤ c.phaseAccNs) && decide (c.phaseAccNs ≤ 500000) &&
  decide (5 ≤ c.dispThrPpb) && decide (c.dispThrPpb ≤ 1000) && decide (1 ≤ c.dispPersist) && decide (c.dispPersist ≤ 16) &&
  decide (1 ≤ c.slopeTenth) && decide (c.slopeTenth ≤ 500) && decide (1 ≤ c.bwMilliHz) && decide (c.bwMilliHz ≤ 10000) &&
  decide (c.ref2Comp.natAbs ≤ 100000) && decide (9600 ≤ c.xsBaud) && decide (c.xsBaud ≤ 921600) &&
  decide (2 ≤ c.msgTmoS) && decide (c.msgTmoS ≤ 10) && decide (1 ≤ c.ref3TmoS) && decide (c.ref3TmoS ≤ 60) &&
  decide (c.settleMin ≤ 120) && decide (1 ≤ c.windowH) && decide (c.windowH ≤ 168) &&
  decide (60 ≤ c.holdLimitS) && decide (c.holdLimitS ≤ 604800) && decide (1 ≤ c.tempExcC) && decide (c.tempExcC ≤ 20) &&
  decide (1 ≤ c.openTmoS) && decide (c.openTmoS ≤ 600)

/-- The TDC configuration that firmware gives fixed channel `ch` of a Hub (R100, R103, R104, Table 4.1): HOLDOFF is half
the nominal period, and DIV the smallest that keeps a gate within 65,536 stamps. -/
def hubFixedCfg (c : RefCfg) (ch : Nat) (top : Bool) : TdcCfg :=
  let f := if ch = 0 then c.nomKhz0 * 1000 else if ch = 1 then c.nomKhz1 * 1000 else if ch = 2 then 10000000 else if ch = 3 then 1 else 62500000
  let half := 500000000 / f
  let need := f * c.gateMs / 1000
  let div := if 4 ≤ ch then 31 else (need + 65535) / 65536 - 1
  { en := decide (ch < 4) || !top, src := 0, edge := 1, hyst := 1
    holdoff := if 255 < half then 255 else if half = 0 then 1 else half
    div := div, gateMs := if ch < 4 then c.gateMs else 1000, fnom := f, dither := !top && decide (4 ≤ ch), raw := false }

/-- A channel takes a configuration from the next gate boundary (R108). One that it has already changes nothing. -/
def State.giveCfg (s : State) (ch : Nat) (c : TdcCfg) : State :=
  if (s.tdcCh ch).pendCfg.getD (s.tdcCh ch).cfg = c then s else s.modTdc ch (fun t => { t with pendCfg := some c })

/-- A configuration of the references comes into force (R97): conditions, ranks and selection follow it. A changed
temperature source discards the model (R85), in flash too; the fit flags and RESID stay as they were (DESIGN CHOICE, log 94). A shorter learning window
drops bins (R83), and a changed compensation replaces the phase target (R78). -/
def State.applyRefCfg (s : State) (c : RefCfg) : State :=
  let old := s.dpll.cfg
  let s1 := { s with dpll := { s.dpll with cfg := c } }
  let s2 := (List.range 4).foldl (fun s ch => s.giveCfg ch (hubFixedCfg c ch s.isTop)) s1
  let s3 := if old.tempExternal = c.tempExternal then s2
    else { s2 with dpll := { s2.dpll with model := {}, bins := [], modelLoaded := false }, flash := { s2.flash with model := none } }
  let s4 := ({ s3 with dpll := { s3.dpll with bins := s3.binsNow s3.dpll.bins } }).refreshModel
  let s5 := if old.ref2Comp = c.ref2Comp then s4 else s4.movePhase 2 ((c.ref2Comp - old.ref2Comp) * 256)
  ((List.range 4).foldl State.updCond s5).reselect

/-- CMD_REF_CONFIG (R97, R98): the whole command is discarded on a value out of range. A configuration counts as being mirrored for exactly 2,000 ns
while a partner takes the mirror: Table 17.2 says within 2,000 ns (DESIGN CHOICE, log 94). -/
def execCmdRefConfig (h : CmdHdr) (c : RefCfg) (s : State) : Out :=
  runCmd { opcode := 0x0102, leaf := false, mirrored := true } h s fun s =>
    if !refCfgOk c then .err s .range
    else if s.htNs < s.dpll.cfgBusyUntil then .err s .busy
    else
      let mirrored := s.isPrimary && !s.pair.solo && !s.chordUp.isEmpty
      .ok (({ s with dpll := { s.dpll with cfgBusyUntil := if mirrored then s.htNs + 2000 else 0 } }.applyRefCfg c).mirror (.refConfig c)) []

/-- A quality report of a reference (R64, R67). Table 3.7 gives an SSM option for REF0 to REF2 only: a code of REF3 is read with option I (DESIGN CHOICE,
log 94). -/
def State.reportQl (s : State) (n : Nat) (q : Option QlReport) : State :=
  match q with
  | some q =>
    (s.modRef n (fun r => { r with lastReport := s.htNs })).setRank n (rankOf ((s.dpll.cfg.ssmII[n]?).getD false) q)
  | none => s

/-- A mode comes into force (R93): CMD_MODE is set when it differs from the one before. -/
def State.setMode (s : State) (mode ref : Nat) : State :=
  let s1 := { s with dpll := { s.dpll with mode := mode, modeRef := ref, openAt := s.htNs, openExpired := false } }
  if s.dpll.mode = mode then s1 else s1.hist 20

/-- What the DPLL does as its mode comes into force (Table 3.5): selection, Holdover with new entry values unless it is in Holdover already, Free-run with FCW
held, or the open loop. -/
def State.modeNow (s : State) (prev : Nat) : State :=
  match s.dpll.mode with
  | 2 => if s.dpll.state = .holdover ∧ prev ≠ 4 then s else s.enterNow .holdover
  | 3 => s.enterNow .freeRun
  | 4 => { s.stopPull with dpll := { s.stopPull.dpll with active := none } }
  | _ => s.reselect

/-- CMD_DPLL_MODE (R93): the previous mode is the result; a lower Hub accepts only Auto. -/
def execCmdDpllMode (h : CmdHdr) (mode ref : Nat) (s : State) : Out :=
  runCmd { opcode := 0x0104, leaf := false, mirrored := true } h s fun s =>
    if 4 < mode ∨ (mode = 1 ∧ 3 < ref) then .err s .range
    else if !s.isTop && mode != 0 then .err s .conflict
    else if mode = 1 ∧ !(s.ref ref).qualified then .err s .conflict
    else if mode = 2 ∧ !s.dpll.usable then .err s .conflict
    else
      let prev := s.dpll.mode
      let s1 := (s.setMode mode ref).mirror (.dpllMode mode ref)
      .ok (s1.modeNow prev) (layout [(1, prev)])

/-- A status word from its value (R94). -/
def wordOf : Nat → StatusWord
  | 1 => .acquiring | 2 => .locked | 3 => .holdover | 4 => .lost | _ => .freeRun

/-- CMD_DPLL_FCW (R94): a value beyond ±50 ppm fails with ST_RANGE; the slew limit of R76 applies. -/
def execCmdDpllFcw (h : CmdHdr) (fcw : Int) (status : Nat) (s : State) : Out :=
  runCmd { opcode := 0x0105, leaf := false } h s fun s =>
    if decide (fcw.natAbs > fcwLimit.natAbs) || decide (4 < status) then .err s .range
    else if s.dpll.mode ≠ 4 then .err s .conflict
    else
      let s1 := { s with dpll := { s.dpll with openAt := s.htNs, openExpired := false, openStatus := wordOf status } }
      .ok ((s1.enter (wordOf status)).fcwTo fcw) (layout [(8, twos 64 fcw)])

/-- The results of CMD_HOLDOVER_MODEL (Table 3.8): coefficients in units of 2⁻¹⁶ ppb, AGE_EPOCH, T0 in units of
0.125 °C, the source, the bin count and the residual. -/
def modelOut (s : State) : List Byte :=
  let m := s.dpll.model
  let q := fun (x : Rat) => twos 32 (rround (x * 65536))
  layout [(4, q m.a0), (4, q m.a1), (4, q m.b1), (4, q m.b2), (8, m.ageEpoch), (4, twos 32 (rround (m.t0 * 8))), (1, b2n m.external),
    (2, (s.binsNow s.dpll.bins).length), (1, s.dpll.resid)]

/-- Whether the DPLL is in Holdover, where load and clear fail with ST_CONFLICT (Table 3.8). -/
def State.inHoldover (s : State) : Bool := decide (s.dpll.state = .holdover)

/-- CMD_HOLDOVER_MODEL, read (R98). -/
def execHoldoverModelRead (h : CmdHdr) (s : State) : Out :=
  runCmd { opcode := 0x0106, leaf := false, read := true } h s fun s => .ok s (modelOut s)

/-- The ranges of a model that is loaded (Table 3.8): coefficients of 32 bits in units of 2⁻¹⁶ ppb, T0 of 32 bits in units of 0.125 °C, an AGE_EPOCH that has
come, and the temperature source in use, since a model of another source is discarded (R85; DESIGN CHOICE, log 95). -/
def State.modelOk (s : State) (m : ModelData) : Bool :=
  let ok := fun (x : Rat) (k : Int) => fitsInt 32 (rround (x * k))
  ok m.a0 65536 && ok m.a1 65536 && ok m.b1 65536 && ok m.b2 65536 && ok m.t0 8 && decide (m.ageEpoch ≤ s.htNs) && m.external == s.dpll.cfg.tempExternal

/-- CMD_HOLDOVER_MODEL, load (R98): a loaded model is usable once the OCXO is trusted (R84). -/
def execHoldoverModelLoad (h : CmdHdr) (m : ModelData) (s : State) : Out :=
  runCmd { opcode := 0x0106, leaf := false } h s fun s =>
    if !s.modelOk m then .err s .range
    else if s.inHoldover then .err s .conflict
    else
      let s1 := ({ s with dpll := { s.dpll with model := m, modelLoaded := true } }).refreshModel
      .ok s1 (modelOut s1)

/-- CMD_HOLDOVER_MODEL, clear (R98). -/
def execHoldoverModelClear (h : CmdHdr) (s : State) : Out :=
  runCmd { opcode := 0x0106, leaf := false } h s fun s =>
    if s.inHoldover then .err s .conflict
    else
      let s1 := ({ s with dpll := { s.dpll with model := {}, bins := [], modelLoaded := false, resid := 0, a1Fit := false, b1Fit := false, b2Fit := false } }).refreshModel
      .ok s1 (modelOut s1)

/-- CMD_HOLDOVER_MODEL, freeze learning (R98). -/
def execHoldoverModelFreeze (h : CmdHdr) (s : State) : Out :=
  runCmd { opcode := 0x0106, leaf := false } h s fun s =>
    .ok { s with dpll := { s.dpll with frozen := true, binClean := false } } (modelOut s)

/-- CMD_HOLDOVER_MODEL, resume learning (R98). -/
def execHoldoverModelResume (h : CmdHdr) (s : State) : Out :=
  runCmd { opcode := 0x0106, leaf := false } h s fun s =>
    .ok { s with dpll := { s.dpll with frozen := false } } (modelOut s)

end Sys2Proof.Machine
end

