-- ==== Sys2Proof/Machine/Port.lean ====
section
/-! DEFINITION. What every port does with the flits it receives (chapter 5): the time source, how a port goes down, retry, credits and the delivery
of numbered flits in SEQ order. -/

set_option linter.unusedVariables false

namespace Sys2Proof.Machine

/-! ## Sources (R138, R144) -/

/-- Whether this block is the child end of a port: a port toward its parent, or a chord port of the position-1 Hub (R138). -/
def State.childEnd (s : State) (p : Nat) : Bool := s.params.isUp p || (s.params.isChord p && s.boot.cfg.pos == 1)

/-- The position of the upper Hub at the other end of an up port (R19, Table 1.1). -/
def State.hubOf (s : State) (p : Nat) : Nat :=
  if s.isHub then (p - s.params.downPorts) / max 1 (s.params.upPorts / 2) else p

/-- The newest lease epoch on some ports. -/
def State.newestOn (s : State) (l : List Nat) : Nat :=
  l.foldl (fun e p => if newerEpoch (s.port p).peerEpoch e then (s.port p).peerEpoch else e) 0

/-- The time source by the rules of R144; a Hub reads LPA as the upper Hub in position 0 (R148). -/
def State.pickSource (s : State) : Option Nat :=
  let l := s.usableUp
  let a := l.filter (fun p => s.hubOf p == 0)
  let b := l.filter (fun p => s.hubOf p == 1)
  let pa := a.filter (fun p => (s.port p).peerPrimary)
  let pb := b.filter (fun p => (s.port p).peerPrimary)
  if !s.isHub && s.tsrc.mode == 1 then a.head?
  else if !s.isHub && s.tsrc.mode == 2 then b.head?
  else if !pa.isEmpty && !pb.isEmpty then
    (if newerEpoch (s.newestOn pb) (s.newestOn pa) && s.newestOn pb != s.newestOn pa then b.head? else a.head?)
  else if !pa.isEmpty then a.head?
  else if !pb.isEmpty then b.head?
  else a.head?.or b.head?

/-- Choose the time source (R144). A change of source at a Leaf counts in SWITCHES and puts the servo in Pull; without a source the
frequency is held, the pull stops and SLEW clears, and without a time-usable port the criteria are no longer met (R145 to R147, Table 5.5). -/
def State.chooseSource (s : State) : State :=
  let n := s.pickSource
  let flag (x : Option Nat) (p : Nat) : Bool := match x with
    | some q => s.params.isUp p && (s.port p).timeUsable && s.hubOf p == s.hubOf q
    | none => false
  let s1 := { s with ports := s.ports.map (fun (e : Nat × PortSt) => (e.1, { e.2 with source := flag n e.1 })) }
  let same := match s.tsrc.source, n with
    | none, none => true
    | some a, some b => s.hubOf a == s.hubOf b
    | _, _ => false
  if same then { s1 with tsrc := { s1.tsrc with source := n } }
  else
    let s2 := { s1 with tsrc := { s1.tsrc with source := n, switches := (s.tsrc.switches + 1) % 256, bigRun := 0 } }
    if s.isHub then s2
    else
      match n with
      | none => { s2 with tsrc := { s2.tsrc with servo := .tracking, criteria := s2.tsrc.criteria && !s.usableUp.isEmpty, goodRun := 0 }
                          time := { s2.time with corr := 0, slew := false } }
      | some _ =>
        { s2 with tsrc := { s2.tsrc with servo := if s.tsrc.servo = ServoMode.recovery then .recovery else .pull, goodRun := 0 }
                  time := { s2.time with slew := true, corr := if s.tsrc.servo = ServoMode.tracking then 0 else s2.time.corr } }

/-! ## A port goes down (R130, R505) -/

/-- What a port forgets when it goes down: keys, sequence numbers, what waits and its samples. -/
def PortSt.cleared (o : PortSt) : PortSt :=
  { o with
    bring := .down, up := false, timeUsable := false, source := false, keys := none, nonce := 0, peerNonce := 0, share := 0
    timingRun := 0, nSamples := 0, samples := [], stepRun := [], sentTx := [], echoes := [], phases := [], lostTiming := false
    peerPrimary := false, txSeq := 0, replay := [], resend := [], rxSeq := 0, nakPend := false, nakOut := false, seqReplays := [], replayAt := []
    retCtl := 0, retRadio := 0, retTen := 0, withheld := [], txCount := 0, line := none
    tagFailSeq := none, creditCtl := 0, creditRadio := 0, creditTen := 0, lastPeriod := none }

/-- What of the traffic of a port that goes down is kept for the time when a link is up again: arrivals and fault notices (R26, R30). An arrival of a
Leaf is bound to its port, what a Hub sends up goes to the serving Hub. -/
def State.keepUp (s : State) (p : Nat) (m : TxMsg) : Option (Option Nat × TxMsg) :=
  match m with
  | .arrival _ _ _ _ _ => if s.params.isUp p then some (if s.isHub then none else some p, m) else none
  | .notice _ => if s.params.isUp p then some (none, m) else none
  | _ => none

/-- What waited for a slot of a port, or was sent on it and not acknowledged, is lost, but for what is kept. -/
def State.dropTraffic (s : State) (p : Nat) : State :=
  let l := (s.port p).replay.filterMap (fun f => f.1.body) ++ (s.tx.filter (fun x => x.port == p)).map (·.msg)
  { s with tx := s.tx.filter (fun x => x.port != p), flt := { s.flt with upWait := s.flt.upWait ++ l.filterMap (s.keepUp p) } }

/-- A Partner that has no time-usable chord port loses slaving (R409): CHORD_LOST, and the DPLL goes on alone. -/
def State.chordLoss (s : State) : State :=
  if s.isHub && s.chordTime.isEmpty && !s.pair.chordLost && !s.isPrimary then
    let s1 := { s with pair := { s.pair with chordLost := true, chordPhase := 0 } }
    if s.dpll.uplinkInput && (s.isTop || s.tsrc.source.isNone) then
      ({ s1.stopPull with dpll := { s1.stopPull.dpll with uplinkInput := false } }).loseInput
    else s1
  else s

/-- The last chord port that is up has gone (R413). -/
def State.chordGone (s : State) (p : Nat) : State :=
  if s.params.isChord p && s.chordUp.isEmpty && s.pair.chordDownAt.isNone then { s with pair := { s.pair with chordDownAt := some s.htNs } } else s

/-- A port that was up goes down (R130, R505): DOWN_CNT, RETRY_DOWN or PHY_DOWN, a record of event 0x0202. Bring-up starts again
unless the port is held. What is kept leaves at once where another link leads to the serving Hub. -/
def State.portDown (s : State) (p : Nat) (retry : Bool) (code : St) : State :=
  if !(s.port p).up then s.modPort p (fun o => { o.cleared with held := o.held })
  else
    let s1 := (s.dropTraffic p).modPort p (fun o => { o.cleared with downCnt := (o.downCnt + 1) % 65536, retryDown := o.retryDown || retry })
    let s2 := { s1 with irq := { s1.irq with phyDown := s1.irq.phyDown || !retry } }
    let s3 := s2.record { event := 0x0202, unit := s.portUnit p, code := code.val }
    (((s3.chordGone p).chooseSource.chordLoss).refreshWord).flushUp

/-- A port is held in the link-down state (R25). -/
def State.holdPort (s : State) (p : Nat) : State := (s.dropTraffic p).modPort p (fun o => { o.cleared with held := true })

/-! ## Numbered flits and retry (R129, R130, R133) -/

/-- Drop the flits of a replay buffer that an acknowledgement covers: those up to its SEQ. -/
def ackTo (l : List (Flit × HT)) (a : Nat) : List (Flit × HT) :=
  if l.any (fun e => e.1.seq == a) then (l.dropWhile (fun e => e.1.seq != a)).drop 1 else l

/-- A replay is requested: more than 64 within 1,048,576 ns take the port down (R130). -/
def State.countReplay (s : State) (p : Nat) : State :=
  let l := (s.port p).replayAt.filter (fun t => decide (s.htNs < t + 1048576)) ++ [s.htNs]
  let s1 := s.modPort p (fun o => { o with replayAt := l })
  if 64 < l.length then s1.portDown p true .ok else s1

/-- This end requests a replay (R129): NAK in the next flit, and every flit until the missing one is discarded. -/
def State.requestReplay (s : State) (p : Nat) : State :=
  if (s.port p).nakPend then s
  else
    (s.modPort p (fun o => { o with nakPend := true, nakOut := true, replays := (o.replays + 1) % 65536 })).countReplay p

/-- A NAK arrives (R129, R130, R282): the flits from ACK + 1, which are those not acknowledged, are sent again, bit for bit, in the slots that
follow. One SEQ replayed 8 times takes the port down. -/
def State.replayFrom (s : State) (p : Nat) : State :=
  let l := (s.port p).replay.map (·.1)
  let s1 := s.modPort p (fun o => { o with
    resend := l
    seqReplays := l.foldl (fun t e => t.set 0 e.seq (t.get 0 e.seq + 1)) (o.seqReplays.filter (fun e => l.any (fun x => x.seq == e.1))) })
  if (s1.port p).seqReplays.any (fun e => decide (8 ≤ e.2)) then s1.portDown p true .ok
  else s1.countReplay p

/-- What the header of a flit with a good CRC and tag says (R122, R129, R130): it ends the wait of R130, acknowledges, returns credits and
may ask for a replay. Codewords that were corrected count (R120). -/
def State.takeHeader (s : State) (l : Link) : State :=
  let p := l.port
  let s1 := s.modPort p (fun o => { o with
    lastGood := s.htNs, fecCorr := (o.fecCorr + l.corr) % 65536, replay := ackTo o.replay l.ack
    resend := o.resend.filter (fun f => (ackTo o.replay l.ack).any (fun x => x.1.seq == f.seq))
    seqReplays := o.seqReplays.filter (fun e => (ackTo o.replay l.ack).any (fun x => x.1.seq == e.1))
    creditCtl := o.creditCtl + l.crCtl, creditRadio := o.creditRadio + l.crRadio, creditTen := o.creditTen + l.crTen })
  if l.nak then s1.replayFrom p else s1

/-- A numbered flit of a class arrives (R122, R129): its header is taken; the flit is delivered when it is the next in SEQ order, and a credit for it
is then owed. A later one is discarded and its replay requested; one that came before is discarded. -/
def State.takeFlit (s : State) (l : Link) (cls : Nat) : State × Bool :=
  let p := l.port
  if !s.params.hasPort p || !(s.port p).up then (s, false)
  else
    let s1 := s.takeHeader l
    if !(s1.port p).up then (s1, false)
    else
      let ahead := (l.seq + 4096 - (s.port p).rxSeq) % 4096
      if ahead = 0 then
        (s1.modPort p (fun o => { o.oweCredit cls with rxSeq := (o.rxSeq + 1) % 4096, nakPend := false, tagFailSeq := none }), true)
      else if ahead < 2048 then (s1.requestReplay p, false)
      else (s1, false)

/-- The meaning of a row that receives a numbered flit: what its contents do once the flit is delivered. -/
def State.received (s : State) (l : Link) (cls : Nat) (k : State → Out) : Out :=
  match s.takeFlit l cls with
  | (t, true) => k t
  | (t, false) => .next t

/-- Whether a chunk's arrivals wait in the ingress buffer (R122, R266, R293): it is not mapped, or is in the journal. -/
def HChunk.waiting (c : HChunk) : Bool :=
  c.failCode.isNone && (decide (c.state = .waiting) || decide (c.state = .spilling) || decide (c.state = .spilled) || decide (c.state = .reloading))

/-- The credit of a contribution flit that came on a port is withheld while the flit waits in the ingress buffer for its chunk to be mapped (R122, R266). -/
def State.withhold (s : State) (p cls : Nat) (k : ChunkKey) : State :=
  if s.coll.chunks.any (fun c => c.key == k && c.waiting) then s.modPort p (fun o => { o.dueCredit cls with withheld := o.withheld ++ [(k, cls)] }) else s

/-- Credits that were withheld are owed once the chunk of their flits is mapped or gone. -/
def State.creditTick (s : State) : State :=
  { s with ports := s.ports.map (fun e =>
      let (held, free) := e.2.withheld.partition (fun x => s.coll.chunks.any (fun c => c.key == x.1 && c.waiting))
      (e.1, free.foldl (fun o x => o.oweCredit x.2) { e.2 with withheld := held })) }

/-- The same for a message that has a meaning only on some ports (Table 1.5): on the others its flit is received and its contents say nothing. -/
def State.receivedIf (s : State) (ok : Bool) (l : Link) (cls : Nat) (k : State → Out) : Out :=
  s.received l cls (fun t => if ok then k t else .next t)

/-- A flit of a context that is not open here is discarded and counted (R437). -/
def State.countStale (s : State) : State := { s with sec := { s.sec with stale := (s.sec.stale + 1) % 2 ^ 32 } }

end Sys2Proof.Machine
end

