-- ==== Sys2Proof/Machine/Operands.lean ====
section
/-! DEFINITION. The operand forms that the manual lays out in bits: docket entries (Table 6.2) and collective
descriptors (Table 10.1), each field read from its place. -/

set_option linter.unusedVariables false

namespace Sys2Proof.Machine

/-! ## Docket entries (Table 6.2, Table 6.3) -/

/-- Bits [lo + w − 1 : lo] of a docket entry. -/
def ebits (e : BitVec 256) (lo w : Nat) : Nat := (e.extractLsb' lo w).toNat

/-- STRIKE. -/
def dkStrike (e : BitVec 256) : Nat := ebits e 0 64
/-- ACTION. -/
def dkAction (e : BitVec 256) : Nat := ebits e 64 4
/-- WAIT. -/
def dkWait (e : BitVec 256) : Bool := e.getLsbD 68
/-- REL. -/
def dkRel (e : BitVec 256) : Bool := e.getLsbD 69
/-- DONE. -/
def dkDone (e : BitVec 256) : Bool := e.getLsbD 70
/-- WAIT_ID. -/
def dkWaitId (e : BitVec 256) : Nat := ebits e 72 12
/-- DONE_ID. -/
def dkDoneId (e : BitVec 256) : Nat := ebits e 84 12
/-- THRESHOLD. -/
def dkThr (e : BitVec 256) : Word := e.extractLsb' 96 32
/-- ARG. -/
def dkArg (e : BitVec 256) : Nat := ebits e 128 64
/-- TAG. -/
def dkTag (e : BitVec 256) : Nat := ebits e 192 16

/-- Whether ARG has only the bits and values that its action names (Table 6.3). -/
def dkArgOk (e : BitVec 256) : Bool :=
  let a := dkArg e
  match dkAction e with
  | 0 => a == 0
  | 1 => a != 0
  | 2 => decide (a < 512)
  | 3 => decide (a < 65536)
  | 4 => a / 4 % 16384 == 0 && decide (a < 2 ^ 32)
  | 5 => a / 4 % 2 ^ 30 == 0 && decide (8 ≤ a / 2 ^ 32) && decide (a / 2 ^ 32 ≤ 1000000000)
  | _ => false

/-- Whether an entry is well formed (R15, R158 to R160): reserved fields 0, ACTION not reserved, REL with STRIKE in
range, POWER only where the queue permits it. -/
def dkEntryOk (e : BitVec 256) (power : Bool) : Bool :=
  !e.getLsbD 71 && ebits e 208 48 == 0 && dkArgOk e &&
  (!dkRel e || (decide (16 ≤ dkStrike e) && decide (dkStrike e ≤ 4294967295))) && (power || dkAction e != 3)

/-- A docket entry from its 8 words. -/
def entryOfWords (t : Tbl Word) (last : Word) : BitVec 256 :=
  BitVec.ofNat 256 ((List.range 7).foldr (fun w acc => (t.get 0 w).toNat * 2 ^ (32 * w) + acc) (last.toNat * 2 ^ 224))

end Sys2Proof.Machine
end

