-- ==== Sys2Proof/Machine/Stamps.lean ====
section
/-! DEFINITION. Stamps of the TDC (R102 to R106, R111, R113, R114): the coarse counter, how a channel takes an edge, the loopback of pulse outputs, and
what a calibration or a Plumb commissioning counts. -/

set_option linter.unusedVariables false

namespace Sys2Proof.Machine

/-- The stamp value of the present tick, in units of 62.5 ps (R105): the coarse counter and what the clock bus has advanced beyond it. -/
def State.tickBins (s : State) : Nat := s.tdc.coarse * 8 + s.tdc.busFrac * 8 / 2 ^ 56

/-- Whether an accepted edge has the selected polarity (R102): EDGE 1 rising, 2 falling, 3 both. -/
def edgeSelected (edge : Nat) (rising : Bool) : Bool := if rising then edge % 2 == 1 else edge / 2 % 2 == 1

/-- The HT of a stamp with CAL_OFS taken as 0, in units of 2⁻⁸ ns (R107): HT now less the bins passed since the stamp. -/
def State.rawHt (s : State) (stamp : Nat) : Int := (s.time.ht48 / 2 ^ 40 : Nat) - ((s.tickBins : Int) - (stamp : Int)) * 16

/-- The HT of a stamp of a channel in units of 2⁻⁸ ns (R107). -/
def State.stampHt (s : State) (ch stamp : Nat) : Int := s.rawHt stamp - (s.tdcCh ch).calOfs

/-- The raw FIFO entry of a stamp (R106): the stamp and WRAPS since the previous raw entry. -/
def TdcCh.pushRaw (t : TdcCh) (stamp : Nat) : TdcCh :=
  if !t.cfg.raw then t
  else if 64 ≤ t.fifo.length then { t with fifoOvf := true }
  else { t with fifo := t.fifo ++ [(stamp, satN 15 (stamp / 8 / 2 ^ 32 - t.lastRawC / 2 ^ 32))], lastRawC := stamp / 8 }

/-- One accepted edge of a channel (R103, R104, R109, R111): hold-off starts, the edge counts, and the first edge after a gate
boundary and every (DIV + 1)-th edge from there is stamped, at most one stamp per 8 ns. -/
def TdcCh.accept (t : TdcCh) (stamp : Nat) : TdcCh :=
  let t1 := { t with holdEnd := some (stamp + t.cfg.holdoff * 16), edges := t.edges + 1 }
  if t.divCnt ≠ 0 then { t1 with divCnt := t.divCnt - 1 }
  else
    let t2 := { t1 with divCnt := t.cfg.div }
    let near := match t.lastStamp with | some l => decide (stamp < l + 128) | none => false
    if near then t2
    else
      let j := if t.cfg.dither then t.dith % 8 else 0
      let t3 := { t2 with lastStamp := some stamp, sample := some (stamp * 8 - j), taken := t.taken + 1, dith := (t.dith + 1) % 8 }
      let t4 := if t.stamps.length < 65536 then { t3 with stamps := t3.stamps ++ [(t.edges, stamp * 8 - j)] } else { t3 with cap := true }
      t4.pushRaw stamp

/-! ## Calibration (R114, R140) -/

/-- A stamp is counted against the pulse to which it belongs, the latest that began at most 256 ns after it (DEDUCED, log 93): the edges counted
and the sum of stamp less strike time, in units of 2⁻⁸ ns. -/
def pulseCount (start count : Nat) (acc : Nat × Int) (ht : Int) : Nat × Int :=
  let d := ht - (start : Int) * 256
  let i := (d + 65536) / 262144
  if 0 ≤ i ∧ i < (count : Int) then (acc.1 + 1, acc.2 + (d - i * 262144)) else acc

/-- The mean of what a calibration counted, in units of 2⁻⁸ ns, rounded down. -/
def countMean (acc : Nat × Int) : Int := acc.2 / max 1 (acc.1 : Int)

/-- The output and channel that this end of a commissioning uses: the parent's run has no source. -/
def PlumbRun.mine (r : PlumbRun) : Nat × Nat := if r.src.isSome then (r.args.poChild, r.args.chChild) else (r.args.poParent, r.args.chParent)

/-- The HT of the first pulse of step 2 of a commissioning (DESIGN CHOICE, log 93): the first multiple of 1,024 ns at least 10,000 ns after the pulses of
step 1. -/
def PlumbRun.second (r : PlumbRun) : HT := r.start + r.args.count * 1024 + 10240

/-- A rising edge stamped on a channel in calibration, or in a commissioning: in the latter by the step in which it falls. -/
def State.calStamp (s : State) (ch stamp : Nat) : State :=
  let t := s.rawHt stamp
  let cal := s.tdc.cal.map (fun c => if c.ch = ch then { c with got := pulseCount c.start c.count c.got t } else c)
  let plumb := s.tsrc.plumb.map (fun r =>
    if r.mine.2 ≠ ch then r
    else if t + 65536 < (r.second : Int) * 256 then { r with ext := pulseCount r.start r.args.count r.ext t }
    else { r with got := pulseCount r.second r.args.count r.got t })
  { s with tdc := { s.tdc with cal := cal }, tsrc := { s.tsrc with plumb := plumb } }

/-- A channel takes a new level (R102 to R104, R114): the level is tracked; an edge of the selected polarity is accepted, and a channel in
calibration stamps every rising edge. -/
def State.takeLevel (s : State) (ch : Nat) (rising : Bool) (stamp : Nat) : State :=
  let s1 := s.modTdc ch (fun t => { t with level := rising })
  let s2 := if (s.tdcCh ch).loop && rising then s1.calStamp ch stamp else s1
  if (s.tdcCh ch).cfg.en && edgeSelected (s.tdcCh ch).cfg.edge rising then s2.modTdc ch (fun t => t.accept stamp) else s2

/-! ## Loopback (R113) -/

/-- Whether a channel observes po_n: SRC 4 to 7 names po0 to po3, and an internal-path calibration observes its output. -/
def State.observes (s : State) (ch n : Nat) : Bool :=
  match s.tdc.cal with
  | some c => if c.ch = ch then c.path == .internal && c.po == n else (s.tdcCh ch).cfg.en && (s.tdcCh ch).cfg.src == 4 + n
  | none => (s.tdcCh ch).cfg.en && (s.tdcCh ch).cfg.src == 4 + n

/-- po_n goes to a level at HT `t` of this tick, and every channel that observes it sees the edge; a hold-off that has passed by then ended at the level
before it (R103). -/
def State.setPo (s : State) (n : Nat) (level : Bool) (t : HT) : State :=
  if (s.po n).high = level then s
  else
    let s1 := s.modPo n (fun o => { o with high := level })
    let late : Nat := (s.time.ht48 - t * 2 ^ 48) / 2 ^ 44
    let stamp := s.tickBins - late
    (List.range 8).foldl (fun s ch =>
      if !s.observes ch n then s
      else
        let h := match (s.tdcCh ch).holdEnd with | some e => decide (e ≤ stamp) | none => false
        let s2 := if h then s.modTdc ch (fun x => { x with holdEnd := none, level := !level }) else s
        if (s2.tdcCh ch).holdEnd.isSome || (s2.tdcCh ch).level == level then s2 else s2.takeLevel ch level stamp) s1

end Sys2Proof.Machine
end

