-- ==== Sys2Proof/Machine/Strike.lean ====
section
/-! DEFINITION. What strikes act on (chapter 6): comparators and their allocation, launch lines, frame channels and
pulse outputs. -/

set_option linter.unusedVariables false

namespace Sys2Proof.Machine

/-! ## Comparators (R153 to R156) -/

/-- Whether a comparator user belongs to a tenant: a queue bound to a context that is not the radio context. -/
def State.tenantUser (s : State) (u : CmpUser) : Bool :=
  match u with
  | .queue q => match (s.queue q).owner with
    | some (.ctx c _) => !(s.slot c).radio
    | _ => false
  | _ => false

/-- The unallocated comparators among 1 to 31. -/
def State.freeComps (s : State) : List Nat := ((List.range 32).drop 1).filter (fun c => decide (s.comp c = .free))

/-- Whether a comparator user is a queue of the radio context or of firmware (R156). -/
def State.radioUser (s : State) (u : CmpUser) : Bool :=
  match u with
  | .queue q => (s.queue q).owner.isSome && !s.tenantUser u
  | _ => false

/-- Whether a comparator user is a pulse output. -/
def CmpUser.isPulse : CmpUser → Bool
  | .pulse _ => true
  | _ => false

/-- RADIO_HELD (R156): comparators among 1 to 31 held by the radio context and firmware. -/
def State.radioHeld (s : State) : Nat := (((List.range 32).drop 1).filter (fun c => s.radioUser (s.comp c))).length

/-- The comparators held by the users that may take reserved ones: those of RADIO_HELD and pulse outputs (R156). -/
def State.reserveHeld (s : State) : Nat := (((List.range 32).drop 1).filter (fun c => s.radioUser (s.comp c) || (s.comp c).isPulse)).length

/-- The radio reserve in force (R156, Table 6.9): none before start-up has run (log 72). -/
def State.radioReserve (s : State) : Nat := if s.boot.stage = 0 then 0 else s.boot.cfg.radioReserve

/-- Whether `n` comparators can be allocated to a user (R155, R156): one that may not take reserved comparators leaves what remains of the radio
reserve. -/
def State.canAlloc (s : State) (n : Nat) (other : Bool) : Bool :=
  let free := s.freeComps.length
  let kept := if other then s.radioReserve - s.reserveHeld else 0
  decide (n + kept ≤ free)

/-- Allocate the `n` lowest-numbered free comparators to a user (R155). A Hub's comparators are fixed. -/
def State.alloc (s : State) (n : Nat) (u : CmpUser) : State :=
  if s.isHub then s else (s.freeComps.take n).foldl (fun s c => s.setComp c u) s

/-- Release every comparator of a user (Table 6.1). -/
def State.release (s : State) (u : CmpUser) : State :=
  (List.range 32).foldl (fun s c => if s.comp c = u then s.setComp c .free else s) s

/-- How many comparators a user holds. -/
def State.held (s : State) (u : CmpUser) : Nat := ((List.range 32).filter (fun c => decide (s.comp c = u))).length

/-! ## Launch lines (R167) -/

/-- Toggle the lines of a mask: a line already toggled by a strike of this tick toggles once, and LN_MERGE is set. -/
def State.launch (s : State) (mask : Nat) : State :=
  let m := BitVec.ofNat 64 mask
  let prev := if s.docket.lnTick = s.htNs then s.docket.lnLines else 0
  { s with docket := { s.docket with
      lnGo := s.docket.lnGo ^^^ (m &&& ~~~prev), lnTick := s.htNs, lnLines := prev ||| m
      lnMerge := s.docket.lnMerge || decide (m &&& prev ≠ 0) } }

/-! ## Frame channels (R169) -/

/-- A frame channel fires: ln_fl_go[c] toggles, the tag is presented and the external stamp is the strike time (R51). -/
def State.fireFrame (s : State) (c tag strike : Nat) : State :=
  s.modFrame c (fun f => { f with go := !f.go, tagOut := tag, armed := none, lastStamp := BitVec.ofNat 32 strike })

/-! ## Pulse outputs (R171 to R174) -/

/-- The period of a code (Table 6.6). -/
def periodNs : Nat → Nat
  | 0 => 1000000000 | 1 => 10000000 | 2 => 1000000 | 3 => 500000 | 4 => 250000 | _ => 125000

/-- ALIGN in force: OFS in a Leaf, the latched value in a Hub (R172). -/
def State.alignOf (s : State) (n : Nat) : Int := if s.isHub then (s.po n).align else s.time.ofs

/-- Raise an output until `until_`: an output already high stays high until the later end, and PULSE_MERGE is set. -/
def State.raise (s : State) (n : Nat) (until_ : HT) : State :=
  (s.setPo n true s.htNs).modPo n (fun o =>
    if (s.po n).high then { o with fallAt := some (max until_ (o.fallAt.getD 0)), merge := true, lastRise := some s.htNs }
    else { o with fallAt := some until_, lastRise := some s.htNs })

/-- A change of OFS re-aligns every Periodic output of a Leaf and sets REALIGN (R173). -/
def State.realign (s : State) : State :=
  if s.isHub then s
  else (List.range 4).foldl (fun s n =>
    if (s.po n).mode = 1 then s.modPo n (fun o => { o with realign := true, changedAt := some s.htNs }) else s) s

/-- The aligned instant of an output at `t`: (t + ALIGN − OFFSET) modulo P (R172). -/
def State.pulsePhase (s : State) (n : Nat) (t : HT) : Int :=
  ((t : Int) + s.alignOf n - (s.po n).offset) % (periodNs (s.po n).period : Int)

/-- Whether the Periodic output has a rising edge at this tick (R172, R173): an aligned instant reached on this tick, at
or after the last change, after the last rising edge, and at least P ÷ 2 after it when ALIGN or OFFSET has changed since. -/
def State.edgeDue (s : State) (n : Nat) : Bool :=
  let o := s.po n
  let ph := s.pulsePhase n s.htNs
  let t : Int := (s.htNs : Int) - ph
  decide (ph ≤ 1) &&
  (match o.changedAt with | some c => decide ((c : Int) ≤ t) | none => true) &&
  (match o.lastRise with
   | some l => decide ((l : Int) < t) &&
      (match o.changedAt with
       | some c => decide (c ≤ l) || decide ((l : Int) + (periodNs o.period / 2 : Nat) ≤ t)
       | none => true)
   | none => true)

end Sys2Proof.Machine
end

