-- ==== Sys2Proof/Machine/Sync.lean ====
section
/-! DEFINITION. The sync store and the wait port of a Leaf (chapter 7): translation, additions and subtractions, the
order of updates, thresholds, waiters, arrivals, and the meanings of the sync window and wait port rows. -/

set_option linter.unusedVariables false

namespace Sys2Proof.Machine

/-! ## The sync store -/

/-- The translation entry of a virtual ID of a slot (Table 7.1). -/
def State.tr (s : State) (c vid : Nat) : TrEntry := s.sync.trans.get {} (c * 4096 + vid)
/-- Write a translation entry. -/
def State.setTr (s : State) (c vid : Nat) (e : TrEntry) : State :=
  { s with sync := { s.sync with trans := s.sync.trans.set {} (c * 4096 + vid) e } }

/-- The value of a physical word. -/
def State.word (s : State) (p : Nat) : Word := s.sync.words.get 0 p
/-- Write a physical word. -/
def State.setWord (s : State) (p : Nat) (v : Word) : State :=
  { s with sync := { s.sync with words := s.sync.words.set 0 p v } }

/-- The threshold test of R186. -/
def meets (counter : Bool) (w t : Word) : Bool :=
  if counter then decide ((w - t).toNat < 0x80000000) else decide (t.toNat ≤ w.toNat)

/-- The failure of an access or a wait by R181: no open context, a clear in progress, an unmapped virtual ID. -/
def State.syncRefusal (s : State) (c vid : Nat) : Option St :=
  if c ≠ 0 ∧ !(s.slot c).open_ then some .genWrap
  else if c ≠ 0 ∧ (s.slot c).clearing then some .busy
  else if !(s.tr c vid).valid then some .range
  else none

/-- Record a failure in LF_SYNC_ERR and LF_SYNC_ERR_CODE (R206): the first after ERR was cleared is kept, later ones
count; the context's SYNC bit is set. -/
def State.syncFail (s : State) (c vid source : Nat) (code : St) : State :=
  let y := s.sync
  let s1 := if y.err then { s with sync := { y with errCount := satN 65535 (y.errCount + 1) } }
    else { s with sync := { y with err := true, errVid := vid, errSlot := c, errSrc := source, errCode := code.val, errCount := 1 } }
  s1.ctxIrq c 1

/-- `pair_ok` of R185: the fill level stays within 0 and N. -/
def State.pairOk (s : State) (c : Nat) (e : TrEntry) (v : Word) : Bool :=
  let other := s.word (s.tr c e.partner).phys
  let own := s.word e.phys
  let d := if e.role = 1 then own - other else other - own
  if e.role = 1 then decide (d.toNat + v.toNat ≤ e.limit) else decide (v.toNat ≤ d.toNat)

/-- `sync_add` of R183: the new value, or the failure; the flag says that the word saturated. -/
def State.addResult (s : State) (c : Nat) (e : TrEntry) (v : Word) : Except St (Word × Bool) :=
  let old := s.word e.phys
  if e.counter then
    if e.role ≠ 0 ∧ !s.pairOk c e v then .error .pairBreach else .ok (old + v, false)
  else if 0xFFFFFFFF < old.toNat + v.toNat then
    (if e.saturate then .ok (0xFFFFFFFF#32, true) else .error .overflow)
  else .ok (old + v, false)

/-- `sync_sub` of R183. -/
def State.subResult (s : State) (e : TrEntry) (v : Word) : Except St (Word × Bool) :=
  let old := s.word e.phys
  if old.toNat < v.toNat then (if e.saturate then .ok (0#32, true) else .error .underflow) else .ok (old - v, false)

/-- The cycle of wt_clk, a copy of the Leaf's time domain clock, of which the clock bus makes two counts (R111, R187). -/
def State.cycle (s : State) : Nat := s.tdc.coarse / 2

/-- Whether a waiter runs a wait that has neither met nor been refused. -/
def Waiter.watching (x : Waiter) : Bool := x.state != 0 && x.metAt.isNone && x.abortAt.isNone

/-- Every waiter on a physical word whose threshold the word meets has met on this cycle, and on c + 2 at the earliest (R188, R189, R192). -/
def State.wake (s : State) (p : Nat) : State :=
  (List.range 64).foldl (fun s w =>
    let x := s.waiter w
    if x.watching = true ∧ x.phys = p ∧ meets x.counter (s.word p) x.thr then
      s.modWaiter w (fun x => { x with metAt := some (max s.cycle (x.gateAt - 1)), deadline := none })
    else s) s

/-- The threshold T(n) of arrival `n` (R198). -/
def LBar.threshold (b : LBar) (n : Nat) : Word := b.a0 + BitVec.ofNat 32 ((n + 1) * b.d.step)

/-- The barrier that slot `c` defines under an ID in this Leaf. -/
def State.lbar (s : State) (c id : Nat) : Option LBar := s.sync.bars.get none (c * 64 + id)
/-- Write a barrier of a Leaf. -/
def State.setLbar (s : State) (c id : Nat) (b : Option LBar) : State :=
  { s with sync := { s.sync with bars := s.sync.bars.set none (c * 64 + id) b } }

/-- Send the next arrival of a barrier on LPA and LPB when ARRIVE_ID is mapped and meets its threshold and the release before it has fired
here (R186, R198). What cannot leave waits for its link (R30). -/
def State.arrive (s : State) (c id : Nat) : State :=
  match s.lbar c id with
  | none => s
  | some b =>
    let e := s.tr c b.d.arriveId
    if e.valid && meets e.counter (s.word e.phys) (b.threshold b.next) && decide (b.next ≤ b.fired) then
      let m : TxMsg := .arrival c b.gen id b.next none
      ((s.setLbar c id (some { b with next := b.next + 1 })).sendOrHold 0 m).sendOrHold 1 m
    else s

/-- Look at every barrier of a slot whose ARRIVE_ID is a physical word. -/
def State.arrivals (s : State) (c p : Nat) : State :=
  (List.range 64).foldl (fun s id =>
    match s.lbar c id with
    | some b => if (s.tr c b.d.arriveId).phys = p then s.arrive c id else s
    | none => s) s

/-- Mark a word as updated on this tick (R184). A word already updated on this tick is marked for the next one: the transfer of a
register-port update that comes after an update of its word counts as made on the next tick, ahead of every waiting update (DEDUCED, log 24). -/
def State.markWord (s : State) (p : Nat) : State :=
  { s with sync := { s.sync with
      used := addNew s.sync.used p, usedNext := if s.sync.used.contains p then addNew s.sync.usedNext p else s.sync.usedNext } }

/-- A word takes a value (R184, R188): it is stored, marked as updated on this tick, and compared by waiters and barriers. -/
def State.store (s : State) (c p : Nat) (v : Word) : State := (((s.setWord p v).markWord p).wake p).arrivals c p

/-- Apply an addition to a mapped word, recording what R183 says. -/
def State.addWord (s : State) (c vid : Nat) (v : Word) (source : Nat) : State × St :=
  let e := s.tr c vid
  match s.addResult c e v with
  | .error k => (s.syncFail c vid source k, k)
  | .ok (w, sat) =>
    let s1 := if sat then
        ({ s.setTr c vid { e with sat := true } with sync := { (s.setTr c vid { e with sat := true }).sync with sat := true } }).ctxIrq c 1
      else s
    (s1.store c e.phys w, .ok)

/-- Apply a subtraction. -/
def State.subWord (s : State) (c vid : Nat) (v : Word) (source : Nat) : State × St :=
  let e := s.tr c vid
  match s.subResult e v with
  | .error k => (s.syncFail c vid source k, k)
  | .ok (w, sat) =>
    let s1 := if sat then
        ({ s.setTr c vid { e with sat := true } with sync := { (s.setTr c vid { e with sat := true }).sync with sat := true } }).ctxIrq c 1
      else s
    (s1.store c e.phys w, .ok)

/-- An update of a word from inside the Leaf (R184), from tick `t` on: source 1 fabric completion, 3 barrier release, 4 Docket DONE. It
waits in the queue of the sync store, which applies it in its turn on a tick that no register-port update of the word takes. -/
def State.signalAt (s : State) (t : HT) (c vid : Nat) (v : Word) (source : Nat) : State :=
  let e := s.tr c vid
  if !e.valid then s.syncFail c vid source .range
  else { s with sync := { s.sync with queue := s.sync.queue ++
    [({ slot := c, vid := vid, phys := e.phys, amount := v, source := source, arrived := t } : SyncUpd)] } }

/-- An update of a word from inside the Leaf on this tick (R184). -/
def State.signal (s : State) (c vid : Nat) (v : Word) (source : Nat) : State := s.signalAt s.htNs c vid v source

/-! ## The sync window (R182) -/

/-- The answer of the register port (R507). -/
def State.answer (s : State) (v : Word) (err : Bool) : State := { s with rg := { rdata := v, err := err } }

/-- A sync access fails: it changes nothing, returns 0 with an error response, and is recorded with source 0 (R181). -/
def State.windowFail (s : State) (c vid : Nat) (k : St) : State := (s.syncFail c vid 0 k).answer 0 true

/-- A write of the sync window, after the checks of R181. In a Hub every access is an error (R179). -/
def windowWrite (c vid : Nat) (s : State) (plainOnly : Bool) (f : State → State × St) : State :=
  if s.isHub || decide (4096 ≤ vid) then s.answer 0 true
  else
    match s.syncRefusal c vid with
    | some k => s.windowFail c vid k
    | none =>
      if plainOnly && (s.tr c vid).counter then s.windowFail c vid .range
      else
        match f s with
        | (t, .ok) => t.answer 0 false
        | (t, _) => t.answer 0 true

/-- Page 0, write (R182): set a plain word. -/
def execSyncSet (ctx vid : Nat) (v : Word) (s : State) : Out :=
  .next (windowWrite ctx vid s true fun s => (s.store ctx (s.tr ctx vid).phys v, .ok))

/-- Page 1, write (R182, R183): add. Adding 0 changes nothing and is compared by nothing. -/
def execSyncAdd (ctx vid : Nat) (v : Word) (s : State) : Out :=
  .next (windowWrite ctx vid s false fun s => if v = 0 then (s, .ok) else s.addWord ctx vid v 0)

/-- Page 2, write (R182, R183): subtract from a plain word. -/
def execSyncSubtract (ctx vid : Nat) (v : Word) (s : State) : Out :=
  .next (windowWrite ctx vid s true fun s => if v = 0 then (s, .ok) else s.subWord ctx vid v 0)

/-- A read of the sync window (R181, R182): pages 0 to 2 return the value; page 3 returns the value before the update and the word gains 1.
A failed read returns 0 with an error response and is recorded. -/
def execSyncReadIncrement (page ctx vid : Nat) (s : State) : Out :=
  if s.isHub || decide (4096 ≤ vid) || decide (4 ≤ page) then .next (s.answer 0 true)
  else
    match s.syncRefusal ctx vid with
    | some k => .next (s.windowFail ctx vid k)
    | none =>
      if page ≠ 3 then .next (s.answer (s.word (s.tr ctx vid).phys) false)
      else
      let old := s.word (s.tr ctx vid).phys
      match s.addWord ctx vid 1 0 with
      | (t, .ok) => .next (t.answer old false)
      | (t, _) => .next (t.answer 0 true)

/-- The queued update of a word that goes next (R184): those of earlier ticks in order of arrival, then those of this tick
by source; one of a later tick waits. -/
def nextUpd (now : HT) (p : Nat) (q : List SyncUpd) : Option SyncUpd :=
  let mine := q.filter (fun u => u.phys == p && decide (u.arrived ≤ now))
  match mine.find? (fun u => decide (u.arrived < now)) with
  | some u => some u
  | none => (mine.find? (fun u => u.source == 1)).or ((mine.find? (fun u => u.source == 3)).or mine.head?)

/-- R184: a queued update of a word is applied on a tick on which nothing else has updated it. -/
def execSyncUpdateApply (phys : Nat) (s : State) : Out :=
  if s.isHub || s.sync.used.contains phys then .next s
  else
    match nextUpd s.htNs phys s.sync.queue with
    | none => .next s
    | some u =>
      let s1 := { s with sync := { s.sync with queue := s.sync.queue.erase u } }
      let e := s1.tr u.slot u.vid
      if e.valid && e.phys == phys then .next (s1.addWord u.slot u.vid u.amount u.source).1
      else .next (s1.syncFail u.slot u.vid u.source .range)

/-! ## The wait port -/

/-- A wait ends without meeting its threshold (R190): wt_gate falls and wt_abort pulses; LAST holds the reason. -/
def State.endWait (s : State) (w reason : Nat) : State :=
  let c := (s.waiter w).slot
  let s1 := s.modWaiter w (fun x => { x with state := 0, last := reason, deadline := none, metAt := none, abortAt := none, gateOut := false, abortOut := true })
  if reason = 1 ∨ reason = 3 then s1.ctxIrq c 2 else s1

/-- R187 to R190: a wait request accepted on this cycle c. A refused request, or one that names a waiter that is not free, aborts on c + 3; the
latter also ends the wait that the waiter is running. The word is compared from this cycle on; a wait met by c + 2 pulses on c + 3. -/
def execWaitRequest (r : WaitReq) (s : State) : Out :=
  if s.isHub || decide (64 ≤ r.waiter) || decide (4096 ≤ r.vid) then .next s
  else
    let x := s.waiter r.waiter
    let busy := x.state != 0 || x.abortAt.isSome
    match (s.syncRefusal r.ctx r.vid).or (if busy then some .busy else none) with
    | some k =>
      let s0 := if busy then s.ctxIrq x.slot 2 else s
      let s1 := s0.modWaiter r.waiter (fun x => { x with slot := r.ctx, vid := r.vid, deadline := none, abortAt := some (x.abortAt.getD (s.cycle + 3)) })
      .next ((s1.ctxIrq r.ctx 2).syncFail r.ctx r.vid 2 k)
    | none =>
      let e := s.tr r.ctx r.vid
      let y : Waiter := { state := 1, last := x.last, slot := r.ctx, vid := r.vid, phys := e.phys, counter := e.counter, thr := r.thr
                          gate := r.gate, gateAt := s.cycle + 3
                          deadline := if r.tmo = 0 then none else some (s.cycle + 2 + r.tmo * 1000)
                          gateOut := false, metOut := false, abortOut := x.abortOut }
      .next ((s.modWaiter r.waiter (fun _ => y)).wake e.phys)

/-- R187, R190: the timeout of a wait expires on the cycle after the last on which its word could meet the threshold. -/
def execWaitTimeout (w : Nat) (s : State) : Out :=
  match (s.waiter w).deadline with
  | some d => if !s.isHub && decide (w < 64) && (s.waiter w).watching && decide (d < s.cycle) then .next (s.endWait w 3) else .next s
  | none => .next s

/-- Whether an access may use a per-context register of a slot (R444, R531): an operator, or an access that presents the
slot; a slot whose clear is in progress answers with an error to its tenant (Table 22.6). -/
def State.mayUse (s : State) (access owner : Nat) : Bool :=
  access == 0 || (access == owner && !(s.slot owner).clearing)

/-- R190, R206: 1 is written to CANCEL of LF_WAITw. -/
def execWaitCancel (w access : Nat) (s : State) : Out :=
  if s.isHub || decide (64 ≤ w) || !s.mayUse access (s.waiter w).slot then .next (s.answer 0 true)
  else if (s.waiter w).watching = true then .next ((s.endWait w 2).answer 0 false)
  else .next (s.answer 0 false)

end Sys2Proof.Machine
end

