-- ==== Sys2Proof/Machine/Coll.lean ====
section
/-! DEFINITION. What Leaf and Hub share of a collective (chapters 9 and 10): descriptor fields (Table 10.1), the layout of
sources and streams, updates of elements and panes, drains, results and partials. -/

set_option linter.unusedVariables false

namespace Sys2Proof.Machine

/-! ## Descriptor fields (Table 10.1) -/

/-- Bits [lo + w − 1 : lo] of a descriptor. -/
def dbits (d : BitVec 512) (lo w : Nat) : Nat := (d.extractLsb' lo w).toNat
/-- MASK. -/
def dMask (d : BitVec 512) : Nat := dbits d 0 256
/-- CTX_GEN. -/
def dGen (d : BitVec 512) : Nat := dbits d 256 16
/-- CTX_SLOT. -/
def dSlot (d : BitVec 512) : Nat := dbits d 272 8
/-- SPAN_TIER. -/
def dSpan (d : BitVec 512) : Nat := dbits d 280 2
/-- Whether CLASS is radio. -/
def dRadio (d : BitVec 512) : Bool := dbits d 282 2 == 2
/-- DENOM. -/
def dDenom (d : BitVec 512) : Bool := d.getLsbD 284
/-- BCAST_A. -/
def dBcast (d : BitVec 512) : Bool := d.getLsbD 285
/-- STEP. -/
def dStep (d : BitVec 512) : Nat := dbits d 288 32
/-- OPWORD: bytes 40 to 43. -/
def dOpword (d : BitVec 512) : Nat := dbits d 320 32
/-- OP. -/
def dOp (d : BitVec 512) : Nat := dbits d 320 4
/-- FMT_A. -/
def dA (d : BitVec 512) : Nat := dbits d 324 4
/-- FMT_B. -/
def dB (d : BitVec 512) : Nat := dbits d 328 4
/-- FMT_OUT. -/
def dOut (d : BitVec 512) : Nat := dbits d 332 4
/-- RMODE. -/
def dMode (d : BitVec 512) : Nat := dbits d 336 3
/-- SHIFT. -/
def dShift (d : BitVec 512) : Nat := dbits d 339 6
/-- COUNT. -/
def dCount (d : BitVec 512) : Nat := dbits d 352 32
/-- PARAM. -/
def dParam (d : BitVec 512) : Nat := dbits d 384 32
/-- HANDLE. -/
def dHandle (d : BitVec 512) : Nat := dbits d 416 9
/-- CHUNK_PANES. -/
def dPanes (d : BitVec 512) : Nat := dbits d 425 7
/-- SIG_VID. -/
def dSig (d : BitVec 512) : Nat := dbits d 432 12
/-- SIG_EN. -/
def dSigEn (d : BitVec 512) : Bool := d.getLsbD 444
/-- DEST. -/
def dDest (d : BitVec 512) : Nat := dbits d 448 64

/-- Whether every reserved bit of a descriptor is 0 (R15). -/
def dReservedOk (d : BitVec 512) : Bool := dbits d 286 2 == 0 && dbits d 345 7 == 0 && dbits d 445 3 == 0

/-- Whether OP and its formats are admitted by Table 9.3, and the fields that OP does not use are 0 (Table 10.2). -/
def dOpOk (d : BitVec 512) : Bool :=
  let op := dOp d; let a := dA d; let b := dB d; let o := dOut d
  let num := decide (a ≤ 10)
  let ints := fun f => decide (5 ≤ f) && decide (f ≤ 10)
  let fmts := match op with
    | 0 => (num || a == 12) && b == 0 && decide (o ≤ 12)
    | 1 => num && b == 0 && decide (o ≤ 12)
    | 2 => num && b == 0 && o == a
    | 3 => num && b == 0 && o == a
    | 4 => num && decide (b ≤ 10) && decide (o ≤ 12)
    | 5 => num && decide (b ≤ 10) && decide (o ≤ 12)
    | 6 => decide (a ≤ 1) && b == 0 && decide (o ≤ 12)
    | 7 => a == 13 && b == 0 && (o == 13 || o == 2)
    | 8 => ints a && b == 0 && ints o
    | 9 => ints a && b == 0 && ints o
    | _ => false
  fmts && decide (dMode d ≤ 4) && (op == 7 || dShift d == 0) && decide (dShift d ≤ 47) &&
    (op == 5 || op == 6 || dParam d == 0) && (op == 6 || !dDenom d) && (op == 4 || op == 5 || !dBcast d)

/-- D of EXP2-SCALED MAC: COUNT − DENOM. -/
def dD (d : BitVec 512) : Nat := dCount d - b2n (dDenom d)

/-- The first two groups of Table 10.2, all ST_RANGE. -/
def dRangeOk (d : BitVec 512) : Bool :=
  dReservedOk d && decide (2 ≤ dbits d 282 2) && dOpOk d && decide (1 ≤ dPanes d) && decide (dPanes d ≤ 64) &&
  dDest d % 64 == 0 && decide (dCount d ≤ 0x7FFFFFFF) &&
  (!(dOp d == 5 || dOp d == 6) || (decide (1 ≤ dParam d) && decide (dParam d ≤ 0x7FFFFFFF))) &&
  (dOp d != 6 || (decide (b2n (dDenom d) < dCount d) && decide (dD d ≤ 65535)))

/-- K of R208 for a number of contributing Leaves. -/
def dK (d : BitVec 512) (leaves : Nat) : Nat := if dOp d = 5 ∨ dOp d = 6 then leaves * dParam d else leaves

/-- Whether a collective's Leaves contribute partials (R261). -/
def dPartial (d : BitVec 512) : Bool := dOp d == 5 || dOp d == 6

/-! ## Chunks (R260) -/

/-- Elements of a full chunk. -/
def dPer (d : BitVec 512) : Nat := 256 * dPanes d
/-- The number of chunks. -/
def dChunks (d : BitVec 512) : Nat := (dCount d + dPer d - 1) / dPer d
/-- The number of elements of chunk `c`. -/
def dElems (d : BitVec 512) (c : Nat) : Nat := min (dPer d) (dCount d - dPer d * c)

/-- The bytes that one element takes in a result (R255): 4 for CI16 values and FP16 pairs. -/
def outWidth (d : BitVec 512) : Nat := if dOp d = 7 then 4 else fmtBytes (dOut d)

/-- The bytes that one element takes in a source in the input format. -/
def dWidth (d : BitVec 512) : Nat := fmtBytes (dA d)

/-- Values of A that chunk `c` needs for MAC or EXACT-DOT. -/
def aValues (d : BitVec 512) (ne : Nat) : Nat :=
  let l := if dOp d = 5 then dParam d else 1
  if dBcast d then l else ne * l

/-- How many of a chunk's elements lie in the D columns of EXP2-SCALED MAC. -/
def vCols (d : BitVec 512) (c : Nat) : Nat := min (dElems d c) (dD d - dPer d * c)

/-- The bytes of a Leaf's source that chunk `c` needs (Table 10.3), the parts of the sections one after another. -/
def srcLen (d : BitVec 512) (c : Nat) : Nat :=
  let ne := dElems d c
  match dOp d with
  | 1 => 4 + ne * dWidth d
  | 4 => aValues d ne * dWidth d + ne * fmtBytes (dB d)
  | 5 => aValues d ne * dWidth d + ne * dParam d * fmtBytes (dB d)
  | 6 => 4 + 4 * dParam d + dParam d * vCols d c * dWidth d
  | _ => ne * dWidth d

/-- The bytes of a raw contribution's stream: the source less the σ of SUM-SCALED, which travels in AUX (R261, R264). -/
def rawLen (d : BitVec 512) (c : Nat) : Nat := if dOp d = 1 then srcLen d c - 4 else srcLen d c

/-- The largest stream of a chunk for the retention reserve (R262). -/
def maxStream (d : BitVec 512) : Nat := if dPartial d then 45 * dElems d 0 else rawLen d 0

/-! ## Poison ranges -/

/-- Whether a range meets one of a list of ranges. -/
def meetsBad (bad : List (Nat × Nat)) (o l : Nat) : Bool := bad.any (fun b => decide (b.1 < o + l) && decide (o < b.1 + b.2))

/-- The ranges of a raw stream that are poisoned, from those of the source (R541): σ, or A when BCAST_A is set, poisons
the whole stream. -/
def rawBad (d : BitVec 512) (c : Nat) (bad : List (Nat × Nat)) : List (Nat × Nat) :=
  let all : List (Nat × Nat) := [(0, rawLen d c)]
  match dOp d with
  | 1 => if meetsBad bad 0 4 then all else bad.map (fun b => (b.1 - 4, b.2))
  | 4 => if dBcast d && meetsBad bad 0 (dWidth d) then all else bad
  | _ => bad

/-- Whether element `i` of a raw contribution takes a poisoned value (R334). -/
def rawElemBad (d : BitVec 512) (ne : Nat) (bad : List (Nat × Nat)) (i : Nat) : Bool :=
  let w := dWidth d
  if dOp d = 4 then
    meetsBad bad (if dBcast d then 0 else i * w) w || meetsBad bad (aValues d ne * w + i * fmtBytes (dB d)) (fmtBytes (dB d))
  else meetsBad bad (i * w) w

/-- Whether element `i` of chunk `c` of a partial operation takes a poisoned operand of the Leaf's source (R334). -/
def partElemBad (d : BitVec 512) (c : Nat) (bad : List (Nat × Nat)) (i : Nat) : Bool :=
  let ne := dElems d c; let w := dWidth d; let l := dParam d
  if dOp d = 5 then
    meetsBad bad (if dBcast d then 0 else i * l * w) (l * w) || meetsBad bad (aValues d ne * w + i * l * fmtBytes (dB d)) (l * fmtBytes (dB d))
  else
    meetsBad bad 0 (4 + 4 * l) ||
      (decide (i < vCols d c) && (List.range l).any (fun t => meetsBad bad (4 + 4 * l + (t * vCols d c + i) * w) w))

/-! ## Updates of one element -/

/-- An update of an element: the element, what RSUM gains, and the chunk flags it sets. -/
abbrev Upd := Elem × Nat × Nat

/-- Add a term (R210, R235). -/
def updTerm (e : Elem) (t : Term) (fl : Nat) : Upd := (e.add t, resTerm t, fl)

/-- Add a product (R211), with the residue of its factors (R221). -/
def updProduct (e : Elem) (a b : Term) : Upd := (e.add (mulTerm a b).1, resProduct a b, (mulTerm a b).2)

/-- The value of a float or integer word as an integer (INT-SUM). -/
def termInt (t : Term) : Int := if t.neg then -(t.m : Int) else t.m

/-- One raw value of element `i` (R239 to R242, R246, R248), from a stream and its AUX. -/
def rawUpd (d : BitVec 512) (ne : Nat) (aux : Word) (l : List Byte) (i : Nat) (e : Elem) : Upd :=
  let w := dWidth d
  let x := fieldAt l (i * w) w
  match dOp d with
  | 0 =>
    if dA d = 12 then
      match readImage ((l.drop (i * 44)).take 44) with
      | some (n, f) => (e.combine n f, res n, 0)
      | none => (e, 0, 0)
    else updTerm e (decodeTerm x (dA d)) 0
  | 1 => updProduct e (decodeTerm aux.toNat 0) (decodeTerm x (dA d))
  | 2 => let (e', r) := e.extreme (dA d) true x; (e', r, 0)
  | 3 => let (e', r) := e.extreme (dA d) false x; (e', r, 0)
  | 4 =>
    let a := fieldAt l (if dBcast d then 0 else i * w) w
    let wb := fmtBytes (dB d)
    let b := fieldAt l (aValues d ne * w + i * wb) wb
    updProduct e (decodeTerm a (dA d)) (decodeTerm b (dB d))
  | 7 =>
    let re := signedOf 16 x; let im := signedOf 16 (x / 65536)
    ((e.addLane 0 re).addLane 1 im, res re + res im, 0)
  | _ => let v := termInt (decodeTerm x (dA d)); (e.addLane 0 v, res v, 0)

/-- Updates of one element one after another. -/
def updAll (l : List (Elem → Upd)) (e : Elem) : Upd :=
  l.foldl (fun u f => let (e', r, fl) := f u.1; (e', u.2.1 + r, u.2.2 ||| fl)) (e, 0, 0)

/-- One element of a partial operation at a Leaf (R243 to R245), from those of the pairs or rows of the chunk's source that one tile takes: every `n`th
from `j` on, when the chunk is spread over `n` tiles (R261). -/
def partUpd (d : BitVec 512) (c : Nat) (l : List Byte) (n j i : Nat) (e : Elem) : Upd :=
  let ne := dElems d c; let w := dWidth d; let r := dParam d
  let mine := (List.range r).filter (fun t => t % max 1 n == j)
  if dOp d = 5 then
    let wb := fmtBytes (dB d)
    updAll (mine.map (fun t e =>
      updProduct e (decodeTerm (fieldAt l (if dBcast d then t * w else (i * r + t) * w) w) (dA d))
        (decodeTerm (fieldAt l (aValues d ne * w + (i * r + t) * wb) wb) (dB d)))) e
  else
    updAll (mine.map (fun t e =>
      let (x, h) := exp2Of (fieldAt l (4 + 4 * t) 4) (fieldAt l 0 4)
      if i < vCols d c then
        let (e', g, fl) := updProduct e (decodeTerm x 0) (decodeTerm (fieldAt l (4 + 4 * r + (t * vCols d c + i) * w) w) (dA d))
        (e', g, fl ||| h)
      else updTerm e (decodeTerm x 0) h)) e

/-- The decoded elements of a partial's stream (R228, R249): one packed element per element, two for CSUM16; `none` where
the partial is corrupt. MAX and MIN carry plain values. -/
def readPartial (d : BitVec 512) (ne : Nat) (l : List Byte) : Option (List (Int × BitVec 40)) :=
  match dOp d with
  | 2 => if l.length = ne * dWidth d then some ((List.range ne).map (fun i => ((fieldAt l (i * dWidth d) (dWidth d) : Nat), 0))) else none
  | 3 => if l.length = ne * dWidth d then some ((List.range ne).map (fun i => ((fieldAt l (i * dWidth d) (dWidth d) : Nat), 0))) else none
  | 7 => unpackAll (2 * ne) l
  | _ => unpackAll ne l

/-- Combine element `i` of a partial (R249). -/
def partialUpd (d : BitVec 512) (v : List (Int × BitVec 40)) (i : Nat) (e : Elem) : Upd :=
  let at_ := fun (k : Nat) => ((v[k]?).getD (0, 0) : Int × BitVec 40)
  match dOp d with
  | 2 => let (e', r) := e.extreme (dA d) true (at_ i).1.toNat; (e', r, 0)
  | 3 => let (e', r) := e.extreme (dA d) false (at_ i).1.toNat; (e', r, 0)
  | 7 =>
    let a := at_ (2 * i); let b := at_ (2 * i + 1)
    (((e.addLane 0 a.1).addLane 1 b.1).setFlag (fwJoin e.flag (fwJoin a.2 b.2)), res a.1 + res b.1, 0)
  | 8 => let a := at_ i; ((e.addLane 0 a.1).setFlag (fwJoin e.flag a.2), res a.1, 0)
  | 9 => let a := at_ i; ((e.addLane 0 a.1).setFlag (fwJoin e.flag a.2), res a.1, 0)
  | _ => let a := at_ i; (e.combine a.1 a.2, res a.1, 0)

/-! ## Panes (R232 to R236) -/

/-- Pane `p` of tile `t`. -/
def State.pane (s : State) (t p : Nat) : Pane := (s.tile t).panes.get {} p
/-- Change one pane. -/
def State.modPane (s : State) (t p : Nat) (f : Pane → Pane) : State :=
  s.modTile t (fun x => { x with panes := x.panes.set {} p (f (x.panes.get {} p)) })

/-- Whether a pane is free and cleared (R266, R491). -/
def Pane.free (p : Pane) : Bool := p.owner.isNone && !p.dirty && !p.reserved

/-- The free panes of a tile. -/
def State.freePanes (s : State) (t : Nat) : List Nat := (List.range s.params.tilePanes).filter (fun p => (s.pane t p).free)

/-- Whether a tile is in service (R329): active or spare. -/
def State.inService (s : State) (t : Nat) : Bool := (s.tile t).state == 1 || (s.tile t).state == 2

/-- The tiles in service, rising. -/
def State.tilesIn (s : State) : List Nat := (List.range s.params.tiles).filter (fun t => s.inService t)

/-- A cleared pane for place `j` of a chunk (R233): identity keys for MAX and MIN. -/
def freshPane (d : BitVec 512) (k : ChunkKey) (j : Nat) (reserved : Bool) : Pane :=
  let id := fun (m : Bool) => (Elem.setKey {} (identityKey (dA d) m) : Elem)
  { owner := some k, index := j, reserved := reserved, lanes := decide (7 ≤ dOp d)
    elems := if dOp d = 2 then (List.range 256).foldl (fun t i => t.set {} i (id true)) []
      else if dOp d = 3 then (List.range 256).foldl (fun t i => t.set {} i (id false)) [] else [] }

/-- Clear and give the listed panes of a tile to a chunk, in order. -/
def State.takePanes (s : State) (d : BitVec 512) (k : ChunkKey) (t : Nat) (ps : List Nat) : State :=
  (ps.zip (List.range ps.length)).foldl (fun s pj => s.modPane t pj.1 (fun p => freshPane d k pj.2 p.reserved)) s

/-- Free the panes of a chunk: they must be cleared before they are mapped again (R324, R491). -/
def State.dropPanes (s : State) (t : Nat) (ps : List Nat) (dirty : Bool) : State :=
  ps.foldl (fun s p => s.modPane t p (fun x => { ({} : Pane) with dirty := dirty, reserved := x.reserved })) s

/-- The comparison of the residue path at an update of element `j` of a pane (R221): the residue before and what the residue path adds against that of the
element after it; and the two copies of the flag word. -/
def updCheck (pane j : Nat) (old new : Elem) (g : Nat) : Option TileCheck :=
  let x := (resElement old.limbs + g) % 65535
  let y := resElement new.limbs
  if x ≠ y then some { check := 0, pane := pane, lane := j % 64, limb := 255, expected := x, observed := y }
  else if old.flag ≠ old.flag2 then some { check := 1, pane := pane, lane := j % 64, limb := 255, expected := old.flag.toNat % 2 ^ 32, observed := old.flag2.toNat % 2 ^ 32 }
  else none

/-- One contribution's segment for pane number `n` (R235): every element of it is updated, RSUM gains the residues, CNT gains 1. The
flags are those of the updates, and the check is the first that fails. -/
def Pane.apply (p : Pane) (n ne : Nat) (bad : Nat → Bool) (u : Nat → Elem → Upd) : Pane × Nat × Option TileCheck :=
  let cells := List.range (min 256 (ne - 256 * p.index))
  let r := cells.foldl (fun (a : Tbl Elem × Nat × Nat × Option TileCheck) j =>
    let i := 256 * p.index + j
    let old := a.1.get {} j
    let (e, g, fl) := u i old
    (a.1.set {} j (if bad i then e.poison else e), a.2.1 + g, a.2.2.1 ||| fl, a.2.2.2.or (updCheck n j old e g))) (p.elems, p.rsum, 0, none)
  ({ p with elems := r.1, rsum := r.2.1 % 65535, cnt := (p.cnt + 1) % 65536 }, r.2.2.1, r.2.2.2)

/-- Updates of a tile waited for a free clock of their elements (R238). How many clocks is left open, as the order of the updates within a tile is: a free
value (log 97). -/
def State.countWaits (s : State) (t : Nat) : State :=
  { s.modTile t (fun x => { x with holdClks := (x.holdClks + Config.freeWaits s.freeCtr) % 2 ^ 32 }) with freeCtr := s.freeCtr + 1 }

/-- One contribution to all panes of a chunk on a tile, the chunk flags it sets, and the check that fails. -/
def State.applyPanes (s : State) (t : Nat) (ps : List Nat) (ne : Nat) (bad : Nat → Bool) (u : Nat → Elem → Upd) : State × Nat × Option TileCheck :=
  ps.foldl (fun a p =>
    let (q, fl, f) := (a.1.pane t p).apply p ne bad u
    (a.1.modPane t p (fun _ => q), a.2.1 ||| fl, a.2.2.or (f.map (fun x => { x with tile := t })))) (s.countWaits t, 0, none)

/-! ## Drains (R236, R241, R247, R248) -/

/-- The resolved limbs of an element at drain. -/
def drainLimbs (d : BitVec 512) (e : Elem) : Elem :=
  { e with limbs := if 7 ≤ dOp d then resolveLanes e.limbs else if dOp d = 2 ∨ dOp d = 3 then e.limbs else resolve e.limbs }

/-- The sum of residues of a pane's 256 elements. -/
def Pane.resSum (p : Pane) : Nat := ((List.range 256).map (fun j => resElement (p.elems.get {} j).limbs)).sum % 65535

/-- The residue that a cleared pane holds: the identity keys of MAX and MIN enter RSUM only by difference (R235). -/
def baseRes (d : BitVec 512) : Nat :=
  let k := fun (m : Bool) => 256 * res (identityKey (dA d) m : Nat) % 65535
  if dOp d = 2 then k true else if dOp d = 3 then k false else 0

/-- The comparisons at the drain of pane number `n` (R221, R236): the two copies of each flag word, RSUM and CNT; the first that fails. -/
def Pane.check (d : BitVec 512) (p : Pane) (n expected : Nat) : Option TileCheck :=
  match p.elems.find? (fun e => decide (e.2.flag ≠ e.2.flag2)) with
  | some e => some { check := 1, pane := n, lane := e.1 % 64, limb := 255, expected := e.2.flag.toNat % 2 ^ 32, observed := e.2.flag2.toNat % 2 ^ 32 }
  | none =>
    if (p.rsum + baseRes d) % 65535 ≠ p.resSum then some { check := 4, pane := n, lane := 0, limb := 255, expected := p.rsum, observed := p.resSum }
    else if p.cnt ≠ expected % 65536 then some { check := 5, pane := n, lane := 0, limb := 255, expected := expected % 65536, observed := p.cnt }
    else none

/-- A pane as it is written to the journal (R217, R218, R267): every element canonical, as its Ledger image holds it, with the checksum word. -/
def Pane.canonical (d : BitVec 512) (p : Pane) : Pane :=
  { p with elems := p.elems.map (fun e => (e.1, { drainLimbs d e.2 with flag2 := e.2.flag })), dirty := false, reserved := false }

/-- Whether every image of a pane is accepted when it is loaded (R219): bits [319:308] of N are equal and no reserved bit is set. -/
def Pane.imagesOk (p : Pane) : Bool := p.elems.all (fun e => nOk e.2.n && decide (e.2.flag.toNat < 262144))

/-- One output component of CSUM16 (R247), with the flags that CSUM16 can set: OVERFLOW and INEXACT (Table 9.11). -/
def csumOut (d : BitVec 512) (v : Int) : Nat × Nat :=
  let n := v * (2 : Int) ^ (149 - dShift d)
  if dOut d = 13 then roundInt 6 (dMode d) n
  else match fpFmt 2 with
    | some f => let (x, fl) := roundFloat f 2 (dMode d) n; (x, fl &&& 5)
    | none => (0, 0)

/-- The output of one element at drain: its bytes and flags (R224, R241, R247, R248, R335). -/
def outElem (d : BitVec 512) (e0 : Elem) : List Byte × Nat :=
  let e := drainLimbs d e0
  let b := fmtBytes (dOut d)
  let po := if fwPoison e.flag then 64 else 0
  match dOp d with
  | 2 => (le b (if fwNan e.flag then qnan (dOut d) else e.key), po)
  | 3 => (le b (if fwNan e.flag then qnan (dOut d) else e.key), po)
  | 7 =>
    let (x, fx) := csumOut d (e.lane 0); let (y, fy) := csumOut d (e.lane 1)
    (le 2 x ++ le 2 y, fx ||| fy ||| po)
  | 8 =>
    let v := e.lane 0
    (le b (twos (fmtBits (dOut d)) v), (if v < intLo (dOut d) ∨ intHi (dOut d) < v then 4 else 0) ||| po)
  | 9 => let (x, fl) := roundInt (dOut d) (dMode d) (e.lane 0 * (2 : Int) ^ 149); (le b x, fl ||| po)
  | _ => let (l, fl) := roundOut (dOut d) (dMode d) e.n e.flag; (l, fl ||| po)

/-- The partial of one element (Table 9.10). -/
def packOut (d : BitVec 512) (e0 : Elem) : List Byte :=
  let e := drainLimbs d e0
  match dOp d with
  | 2 => le (fmtBytes (dA d)) (if fwNan e.flag then qnan (dA d) else e.key)
  | 3 => le (fmtBytes (dA d)) (if fwNan e.flag then qnan (dA d) else e.key)
  | 7 => packElem (e.lane 0) e.flag ++ packElem (e.lane 1) e.flag
  | 8 => packElem (e.lane 0) e.flag
  | 9 => packElem (e.lane 0) e.flag
  | _ => packElem e.n e.flag

/-- The copies of a chunk that several tiles of a Leaf accumulated are combined (R212, R261), pane by pane: N adds and the flag words join. -/
def joinPanes (a b : List Pane) : List Pane :=
  List.zipWith (fun (p q : Pane) =>
    { p with elems := q.elems.foldl (fun t e => t.set {} e.1 ((t.get {} e.1).combine e.2.n e.2.flag)) p.elems }) a b

/-- Element `i` of a chunk whose panes are listed in order. -/
def chunkElem (ps : List Pane) (i : Nat) : Elem :=
  match ps[i / 256]? with
  | some p => p.elems.get {} (i % 256)
  | none => {}

/-- The result bytes and flags of a chunk (R236). -/
def resultOf (d : BitVec 512) (ne : Nat) (ps : List Pane) : List Byte × Nat :=
  (List.range ne).foldl (fun a i => let (l, fl) := outElem d (chunkElem ps i); (a.1 ++ l, a.2 ||| fl)) ([], 0)

/-- The partial stream of a chunk, and for MAX and MIN the ranges that carry a poisoned element (R541). -/
def partialOf (d : BitVec 512) (ne : Nat) (ps : List Pane) : List Byte × List (Nat × Nat) :=
  (List.range ne).foldl (fun a i =>
    let e := chunkElem ps i
    let l := packOut d e
    (a.1 ++ l, if (dOp d = 2 ∨ dOp d = 3) ∧ fwPoison e.flag = true then a.2 ++ [(a.1.length, l.length)] else a.2)) ([], [])

/-! ## Flits (R264) -/

/-- The flits of a stream: up to 216 bytes each, in order of OFS, the last one marked. -/
def flitsFrom (part : Bool) (aux : Word) (bad : List (Nat × Nat)) (ofs : Nat) : Nat → List Byte → List CollData
  | 0, _ => []
  | n + 1, l =>
    let h := l.take 216
    let t := l.drop 216
    ({ partialKind := part, ofs := ofs, last := t.isEmpty, poison := meetsBad bad ofs h.length, aux := aux, data := h } : CollData) ::
      (if t.isEmpty then [] else flitsFrom part aux bad (ofs + 216) n t)

/-- The flits of a whole stream. -/
def flitsOf (part : Bool) (aux : Word) (bad : List (Nat × Nat)) (l : List Byte) : List CollData :=
  flitsFrom part aux bad 0 (l.length + 1) l

/-- Hand a list of messages to a port, in order. -/
def State.sendList (s : State) (p : Nat) (l : List TxMsg) : State := l.foldl (fun s m => s.send p m) s

/-- The class of a collective's fabric requests (Table 21.5): 0b10 radio, 0b11 tenant. -/
def dQos (d : BitVec 512) : Nat := if dRadio d then 2 else 3

/-- Whether a stream has arrived to its end. -/
def RxBuf.whole (r : RxBuf) : Bool := r.len == some r.bytes.length

/-- Take what came ahead and now follows, at most `n` flits. -/
def RxBuf.absorb (r : RxBuf) : Nat → RxBuf
  | 0 => r
  | n + 1 =>
    match r.ahead.find? (fun e => e.1 == r.bytes.length) with
    | some e => RxBuf.absorb { r with bytes := r.bytes ++ e.2, ahead := r.ahead.filter (fun x => x.1 != e.1) } n
    | none => r

/-- A flit of a stream takes its place at OFS (R264): flits of one stream may overtake one another on the two ports of an up-group. One that came already
changes nothing. -/
def RxBuf.put (r : RxBuf) (d : CollData) : RxBuf :=
  if d.ofs < r.bytes.length ∨ r.ahead.any (fun e => e.1 == d.ofs) = true ∨ r.whole = true then r
  else
    RxBuf.absorb { r with
      ahead := r.ahead ++ [(d.ofs, d.data)], len := if d.last then some (d.ofs + d.data.length) else r.len
      bad := if d.poison then r.bad ++ [(d.ofs, d.data.length)] else r.bad
      flags := if d.partialKind then r.flags ||| (d.flags &&& 48) else 0 } (r.ahead.length + 1)

/-- The full instance number of a 16-bit INSTANCE, nearest to the newest seen (R543). -/
def fullInst (newest i16 : Nat) : Nat :=
  let base := newest - newest % 65536 + i16 % 65536
  if newest + 32768 < base ∧ 65536 ≤ base then base - 65536
  else if base + 32768 < newest then base + 65536
  else base

/-! ## Tile events (R321, R322) -/

/-- One day in ns. -/
def dayNs : Nat := 86400000000000

/-- A failure of a tile for an attempt at a chunk: the counters of DX_TALLY_ERRt, the tile's history, its classification
(R322) and the Daybook record with its syndrome (Table 13.4). A failed CRC of a retained flit counts in neither. The result says whether the event is permanent. -/
def State.tileEvent (s : State) (t : Nat) (k : ChunkKey) (d : BitVec 512) (attempt : Nat) (c : TileCheck) : State × Bool :=
  let sum := decide (c.check = 4 ∨ c.check = 5)
  let ev := ((s.tile t).events.filter (fun h => decide (s.htNs < h + dayNs))) ++ [s.htNs]
  let perm := decide (3 ≤ ev.length)
  let s1 := s.modTile t (fun x =>
    { x with events := ev
             resFails := if sum || c.check == 6 then x.resFails else (x.resFails + 1) % 65536
             sumFails := if sum then (x.sumFails + 1) % 65536 else x.sumFails })
  (s1.record
    { event := if sum then 0x0501 else if c.check = 6 then 0x0503 else 0x0500, unit := s.tileUnit t, sub := c.pane
      op := 16 + dOp d, cls := (if perm then 2 else 1) + 4 * satN 31 ev.length
      slot := k.slot, gen := k.gen, handle := k.handle, step := (dStep d + k.inst) % 2 ^ 32, chunk := k.chunk
      syn := le 2 c.pane ++ le 1 c.lane ++ le 1 c.limb ++ le 1 c.check ++ le 1 (attempt % 256) ++ le 2 0 ++ le 4 c.expected ++ le 4 c.observed }, perm)

/-- Firmware's fence of a tile waits while the Scrivener restarts (R454), in the queue of pending events (R453). -/
def State.laterFence (s : State) (t : Nat) : State :=
  if s.scriv.events.contains t || decide (256 ≤ s.scriv.events.length) then s else { s with scriv := { s.scriv with events := s.scriv.events ++ [t] } }

/-- Poisoned data entered a tile (R334): event 0x0700 and POISON_SEEN. -/
def State.poisonEntered (s : State) (t : Nat) (k : ChunkKey) : State :=
  { s with flt := { s.flt with poisonSeen := true } }.record
    { event := 0x0700, unit := s.tileUnit t, slot := k.slot, gen := k.gen, handle := k.handle, chunk := k.chunk }

/-! ## Children of a Hub (R19, R22, R23) -/

/-- The down ports of child `c` (Table 1.1): one at tier 1, 4k above. -/
def State.childPorts (s : State) (c : Nat) : List Nat :=
  if s.tier ≤ 1 then [c] else (List.range (4 * s.boot.cfg.kGroups)).map (4 * s.boot.cfg.kGroups * c + ·)

/-- The child that a down port leads to. -/
def State.portChild (s : State) (p : Nat) : Nat := if s.tier ≤ 1 then p else p / (4 * max 1 s.boot.cfg.kGroups)

/-- The port on which this Hub sends to a child: one that is up and whose peer carries PRIMARY, else one that is up. -/
def State.childPort (s : State) (c : Nat) : Nat :=
  let l := (s.childPorts c).filter (fun p => (s.port p).up)
  match l.find? (fun p => (s.port p).peerPrimary) with
  | some p => p
  | none => l.headD ((s.childPorts c).headD 0)

/-- Hand one message to each of several children. -/
def State.sendKids (s : State) (cs : List Nat) (m : TxMsg) : State := s.sendAll (cs.map s.childPort) m

/-- The clear of a context is ordered at every participant below this Hub (R195, R336, R441). -/
def State.orderClose (s : State) (c g code : Nat) : State :=
  let s1 := s.sendKids (s.slot c).ports (.distribute s.scriv.nextDist (.ctxClose c g code))
  { s1 with scriv := { s1.scriv with nextDist := s1.scriv.nextDist + 1 } }

/-- The start of a context's termination (R336): its code goes to TERM, a record of event 0x0701 is written, and the clear
is ordered here and at every participant. -/
def State.terminate (s : State) (c : Nat) (code : St) : State :=
  if (s.slot c).open_ && !(s.slot c).clearReq && !(s.slot c).clearing then
    let g := (s.slot c).lastGen
    let s1 := s.modSlot c (fun x => { x with term := code.val, clearReq := true })
    (if s.isHub && s.isPrimary then (s1.orderClose c g code.val).mirror (.ctxClear c g) else s1).record { event := 0x0701, code := code.val, slot := c, gen := g }
  else s

end Sys2Proof.Machine
end

