-- ==== Sys2Proof/Machine/CollLeaf.lean ====
section
/-! DEFINITION. Collectives at a Leaf (R254 to R263, R272, R273, R323, R327, R331, R541, R542): starts, the source as it is
read, partials and local reductions, streams, results, and the end of an instance. -/

set_option linter.unusedVariables false

namespace Sys2Proof.Machine

/-! ## The collectives of a Leaf -/

/-- The collective planned under a slot and handle. -/
def State.lcoll (s : State) (c h : Nat) : Option LColl := s.coll.leaf.get none (c * 512 + h)
/-- Write it. -/
def State.setLcoll (s : State) (c h : Nat) (x : Option LColl) : State :=
  { s with coll := { s.coll with leaf := s.coll.leaf.set none (c * 512 + h) x } }
/-- Change it, when it is planned. -/
def State.modLcoll (s : State) (c h : Nat) (f : LColl → LColl) : State :=
  match s.lcoll c h with
  | some x => s.setLcoll c h (some (f x))
  | none => s
/-- Change one of its chunks. -/
def State.modLchunk (s : State) (c h n : Nat) (f : LChunk → LChunk) : State :=
  s.modLcoll c h (fun x => { x with chunks := x.chunks.set {} n (f (x.chunks.get {} n)) })
/-- A chunk of a collective. -/
def LColl.chunk (x : LColl) (n : Nat) : LChunk := x.chunks.get {} n

/-- Whether a key names the running instance of a collective at this Leaf whose context is open (R437). -/
def State.lrun (s : State) (k : ChunkKey) : Option LColl :=
  match s.lcoll k.slot k.handle with
  | some x => if x.running && x.started == k.inst + 1 && decide (k.chunk < dChunks x.desc) && s.openCtx k.slot k.gen && dGen x.desc == k.gen % 65536 then some x else none
  | none => none

/-- The order in which a Leaf sends its chunks (R263): (j + ρ) mod n, with ρ = i mod min(W, n). -/
def sendOrder (n w i : Nat) : List Nat := (List.range n).map (fun j => (j + i % max 1 (min w n)) % max 1 n)

/-! ## Starts (R257 to R259) -/

/-- An instance starts: its counters, its chunks and its window are new. An instance of COUNT 0 completes at once, and its
signal is applied from the next tick on (R259). A handle that is not bound is not open: nothing starts (R257). A start while the previous instance runs is ST_BUSY in the status (R257). -/
def State.startColl (s : State) (c h : Nat) : State :=
  match s.lcoll c h with
  | none => s
  | some x =>
    if x.src.isNone then s
    else if x.running then (s.setLcoll c h (some { x with code := St.busy.val })).ctxIrq c 5
    else
      let y := { x with started := x.started + 1, chunks := [], sent := 0, committed := 0, noSignal := false, stopped := false, owed := none }
      if dCount x.desc = 0 then
        let s1 := s.setLcoll c h (some { y with running := false, ended := true, failed := false, code := 0, flags := 0 })
        if dSigEn x.desc then
          s1.signalAt (s.htNs + 1) c (dSig x.desc) 1 1
        else s1
      else s.setLcoll c h (some { y with running := true, ended := false })

/-! ## The end of an instance (R273) -/

/-- The code of the first chunk in chunk order that failed or was poisoned. -/
def firstCode (x : LColl) : List Nat → Nat
  | [] => 0
  | n :: r => if (x.chunk n).code = .ok then firstCode x r else (x.chunk n).code.val

/-- Complete the instance when every chunk is done: code, FLAGS and signal (R273, R194); a recorded ST_POISON, or a local
chunk that failed with ST_NO_SPARE, is notified to the serving Hub (R336). -/
def State.finishColl (s : State) (k : ChunkKey) : State :=
  match s.lcoll k.slot k.handle with
  | none => s
  | some x =>
    let n := dChunks x.desc
    if x.running && (List.range n).all (fun c => (x.chunk c).done) then
      let code := firstCode x (List.range n)
      let fl := (List.range n).foldl (fun a c => a ||| (x.chunk c).cflags) 0
      let s1 := s.setLcoll k.slot k.handle (some { x with running := false, ended := true, failed := decide (code ≠ 0), code := code, flags := fl })
      let s2 := if dSigEn x.desc && !x.noSignal then s1.signal k.slot (dSig x.desc) 1 1 else s1
      let s3 := if code ≠ 0 then s2.ctxIrq k.slot 5 else s2
      if code = St.poison.val then s3.sendUp (.failNotice k .poison)
      else if code = St.noSpare.val ∧ dSpan x.desc = 0 then s3.sendUp (.failNotice k .noSpare)
      else s3
    else s

/-- Free panes of several tiles, given as pairs. -/
def State.dropAcc (s : State) (l : List (Nat × Nat)) : State := l.foldl (fun s e => s.dropPanes e.1 [e.2] false) s

/-- A chunk ends at this Leaf with a code. -/
def State.chunkDone (s : State) (k : ChunkKey) (code : St) (fl : Nat) : State :=
  let t := ((s.lcoll k.slot k.handle).map (fun x => x.chunk k.chunk)).getD {}
  ((s.dropAcc t.panes).modLchunk k.slot k.handle k.chunk (fun ch =>
    { ch with done := true, code := code, cflags := fl, panes := [], buf := [], bad := [] })).finishColl k

/-- Whether a contributor's window has room for one more chunk (R262, R185). With no chunk's room left (R331) only notices leave, and they are not held. -/
def LColl.room (x : LColl) : Bool := decide ((x.sent - x.committed).toNat < x.w) || x.w == 0

/-- The notice of a chunk that this Leaf cannot contribute to goes up in place of its stream, and the chunk counts as sent (R262, R542). -/
def State.sendNotice (s : State) (k : ChunkKey) (x : LColl) : State :=
  let t := x.chunk k.chunk
  (s.setLcoll k.slot k.handle (some { x with sent := x.sent + 1, chunks := x.chunks.set {} k.chunk { t with sent := true, noticed := true, stuck := false } })).sendUp
    (.failNotice k t.code)

/-- The notices that wait leave while the window has room (R262). -/
def State.sendStuck (s : State) (c h : Nat) : State :=
  match s.lcoll c h with
  | none => s
  | some x =>
    (List.range (dChunks x.desc)).foldl (fun s n =>
      match s.lcoll c h with
      | some y => if (y.chunk n).stuck && y.room then s.sendNotice { slot := c, gen := dGen x.desc, handle := h, inst := x.started - 1, chunk := n } y else s
      | none => s) s

/-- A Leaf cannot contribute to a chunk (R542): in a collective a notice goes up in its place, once the window has room for it, and the chunk counts as
sent; in a local reduction the chunk fails here. -/
def State.cannot (s : State) (k : ChunkKey) (code : St) : State :=
  match s.lcoll k.slot k.handle with
  | none => s
  | some x =>
    if dSpan x.desc = 0 then
      let s1 := if code = .noSpare then
          { s with flt := { s.flt with noSpare := true } }.record
            { event := 0x0505, unit := 0x5000, code := code.val, op := 16 + dOp x.desc, slot := k.slot, gen := k.gen, handle := k.handle
              step := (dStep x.desc + k.inst) % 2 ^ 32, chunk := k.chunk }
        else s
      s1.chunkDone k code 0
    else
      let t := x.chunk k.chunk
      let y := { x with chunks := x.chunks.set {} k.chunk { t with stuck := true, code := code, stream := none, panes := [], buf := [], bad := [] } }
      let s1 := (s.dropAcc t.panes).setLcoll k.slot k.handle (some y)
      if y.room then s1.sendNotice k y else s1

/-! ## Accumulation in the Leaf's tiles (R256, R261) -/

/-- The accumulation panes reserved on a tile. -/
def LColl.accOn (x : LColl) (t : Nat) : List Nat := (x.acc.filter (fun p => p.1 == t)).map (·.2)

/-- The tiles that may accumulate a chunk: in service, with the reserve, and without a failure of this chunk (R327). -/
def State.accTiles (s : State) (x : LColl) (ch : LChunk) : List Nat :=
  s.tilesIn.filter (fun t => !ch.failedTiles.contains t && !(x.accOn t).isEmpty)

/-- Whether every LEDGER image of a chunk's source is accepted (R219, R542). -/
def imagesOk (d : BitVec 512) (c : Nat) (l : List Byte) : Bool :=
  if dOp d = 0 ∧ dA d = 12 then (List.range (dElems d c)).all (fun i => (readImage ((l.drop (i * 44)).take 44)).isSome) else true

/-- The tiles on which a chunk accumulates. -/
def LChunk.tiles (c : LChunk) : List Nat := (c.panes.map (·.1)).eraseDups
/-- The panes of a chunk on one of them, in order. -/
def LChunk.on (c : LChunk) (t : Nat) : List Nat := (c.panes.filter (fun e => e.1 == t)).map (·.2)

/-- One tile of `n`, the `j`th, takes its part of a chunk whose source is complete (R256, R261): its panes are cleared and updated. -/
def State.accumulateOn (s : State) (k : ChunkKey) (x : LColl) (n j t : Nat) : State × Nat × Option TileCheck :=
  let ch := x.chunk k.chunk
  let ps := x.accOn t
  let ne := dElems x.desc k.chunk
  let bad := fun i => if dPartial x.desc then partElemBad x.desc k.chunk ch.bad i
    else rawElemBad x.desc ne (rawBad x.desc k.chunk ch.bad) i
  let u := if dPartial x.desc then partUpd x.desc k.chunk ch.buf n j
    else if dOp x.desc = 1 then rawUpd x.desc ne (BitVec.ofNat 32 (fieldAt ch.buf 0 4)) (ch.buf.drop 4)
    else rawUpd x.desc ne 0 ch.buf
  let r := (s.takePanes x.desc k t ps).applyPanes t ps ne bad u
  (if (List.range ne).any bad then r.1.poisonEntered t k else r.1, r.2)

/-- A check of a Leaf tile failed for a chunk (R321, R327): the event is recorded, and the chunk is to be run again from its
source on other tiles. The result says whether the tile is to be fenced. -/
def State.leafFail (s : State) (k : ChunkKey) (c : TileCheck) : State × Option Nat :=
  match s.lcoll k.slot k.handle with
  | none => (s, none)
  | some x =>
    let ch := x.chunk k.chunk
    let t := if ch.tiles.contains c.tile then c.tile else ch.tiles.headD ((s.accTiles x ch).headD 0)
    let (s1, perm) := s.tileEvent t k x.desc ch.attempt c
    let s3 := (s1.dropAcc ch.panes).modLchunk k.slot k.handle k.chunk (fun ch =>
      { ch with panes := [], buf := [], bad := [], flags := 0, attempt := ch.attempt + 1, failedTiles := addNew ch.failedTiles t })
    let y := ((s3.lcoll k.slot k.handle).map (fun x => x.chunk k.chunk)).getD {}
    (if (s3.accTiles x y).isEmpty then s3.cannot k .noSpare else s3, if perm then some t else none)

/-! ## Fencing a Leaf tile (R331) -/

/-- The panes of retention that one chunk of a window takes (R262). -/
def retPer (d : BitVec 512) : Nat := (maxStream d + 15359) / 15360

/-- Free panes of the tiles in service, as pairs. -/
def State.freeAll (s : State) : List (Nat × Nat) := s.tilesIn.flatMap (fun t => (s.freePanes t).map (fun p => (t, p)))

/-- Mark panes as reserved or not. -/
def State.reserve (s : State) (l : List (Nat × Nat)) (b : Bool) : State :=
  l.foldl (fun s p => s.modPane p.1 p.2 (fun x => { x with reserved := b })) s

/-- A tile has gone out of service: the retention of one collective moves to free panes elsewhere, or its window falls to
the largest that fits; with no chunk's room left its chunks fail with ST_NO_SPARE (R331, R539 event 0x0508). -/
def State.refit (s : State) (t c h : Nat) : State :=
  match s.lcoll c h with
  | none => s
  | some x =>
    let x1 := { x with acc := x.acc.filter (fun p => p.1 != t) }
    if !(x.ret.any (fun p => p.1 == t)) then s.setLcoll c h (some x1)
    else
      let kept := x.ret.filter (fun p => p.1 != t)
      let per := max 1 (retPer x.desc)
      let free := s.freeAll
      let w' := min x.w ((kept.length + free.length) / per)
      let need := w' * per
      let more := free.take (need - kept.length)
      let y := { x1 with w := w', ret := kept.take need ++ more }
      let s1 := ((s.reserve (kept.drop need) false).reserve more true).setLcoll c h (some y)
      if w' = x.w then s1
      else
        let s2 := s1.record { event := 0x0508, unit := 0x5000 + t, slot := c, gen := dGen x.desc, handle := h, syn := [BitVec.ofNat 8 x.w, BitVec.ofNat 8 w'] }
        if w' = 0 ∧ x.running then
          (List.range (dChunks x.desc)).foldl (fun s n =>
            if (x.chunk n).sent then s else s.cannot { slot := c, gen := dGen x.desc, handle := h, inst := x.started - 1, chunk := n } .noSpare) s2
        else s2

/-- The fence of a Leaf tile (R330, R331): state 3, the map, the chunks that accumulate on it run again elsewhere, windows
refitted, the record with its cause. -/
def State.leafFence (s : State) (t cause : Nat) : State :=
  let s1 := (s.modTile t (fun x => { x with state := 3, panes := [], testPassed := false }))
  let s2 := { s1 with flt := { s1.flt with tilesMap := s1.flt.tilesMap ||| 2 ^ t }
                      flash := { s1.flash with tilesMap := s1.flt.tilesMap ||| 2 ^ t } }
  let keys := (List.range (64 * 512)).filter (fun i => (s.coll.leaf.get none i).isSome)
  let s3 := keys.foldl (fun s i =>
    let lost := match s.coll.leaf.get none i with | some x => x.chunks.flatMap (fun c => if c.2.tiles.contains t then c.2.panes.filter (fun e => e.1 != t) else []) | none => []
    let s' := (s.dropAcc lost).modLcoll (i / 512) (i % 512) (fun x => { x with chunks := (x.chunks.map (fun c =>
      if c.2.tiles.contains t then (c.1, { c.2 with panes := [], buf := [], bad := [], flags := 0 }) else c)) })
    s'.refit t (i / 512) (i % 512)) s2
  s3.record { event := 0x0506, unit := 0x5000 + t, cls := if cause = 0 then 2 else 0, syn := [BitVec.ofNat 8 cause, 0xFF#8, 0, 0] }

/-- Fence a Leaf tile because of its events, after a restart of the Scrivener when one is in progress (R454). -/
def State.leafAuto (s : State) (t : Nat) : State := if s.scriv.restarting then s.laterFence t else s.leafFence t 0

/-- Carry out the fence that a failure asks for. -/
def State.leafFenceOpt (r : State × Option Nat) : State :=
  match r.2 with
  | some t => r.1.leafAuto t
  | none => r.1

/-- Accumulate a chunk whose source is complete. A partial operation spreads its pairs or rows over every tile that may take it and whose reserved panes are
unused, each accumulating its own copy (R261; in turn, DESIGN CHOICE, log 98); a local reduction of another operation takes the first of them. -/
def State.accumulate (s : State) (k : ChunkKey) : State :=
  match s.lcoll k.slot k.handle with
  | none => s
  | some x =>
    let ch := x.chunk k.chunk
    if !ch.panes.isEmpty || decide (ch.buf.length ≠ srcLen x.desc k.chunk) then s
    else
      match s.accTiles x ch with
      | [] => s.cannot k .noSpare
      | ts =>
        let free := ts.filter (fun t => (x.accOn t).all (fun p => (s.pane t p).owner.isNone))
        let use := if dPartial x.desc then free else free.take 1
        let n := use.length
        let r := (use.zip (List.range n)).foldl (fun (a : State × Nat × Option TileCheck) e =>
          let b := a.1.accumulateOn k x n e.2 e.1
          (b.1, a.2.1 ||| b.2.1, a.2.2.or b.2.2)) (s, 0, none)
        let s1 := r.1.modLchunk k.slot k.handle k.chunk (fun c =>
          { c with panes := use.flatMap (fun t => (x.accOn t).map (fun p => (t, p))), flags := r.2.1 })
        match r.2.2 with
        | some f => State.leafFenceOpt (s1.leafFail k f)
        | none => s1

/-! ## Streams (R262 to R264) -/

/-- The stream of a raw contribution, once its source is complete. -/
def State.rawReady (s : State) (k : ChunkKey) (x : LColl) : State :=
  let ch := x.chunk k.chunk
  s.modLchunk k.slot k.handle k.chunk (fun c =>
    { c with stream := some (if dOp x.desc = 1 then ch.buf.drop 4 else ch.buf)
             aux := if dOp x.desc = 1 then BitVec.ofNat 32 (fieldAt ch.buf 0 4) else 0
             streamBad := rawBad x.desc k.chunk ch.bad, part := false, buf := [], bad := [] })

/-- A multiple of 64 at or above a length (R255). -/
def up64 (n : Nat) : Nat := (n + 63) / 64 * 64

/-- Where byte `o` of a chunk's part of the source lies, as an offset from SRC (Table 10.3): each section begins at the next multiple of 64 bytes. -/
def srcOfs (d : BitVec 512) (c o : Nat) : Nat :=
  let at_ := dPer d * c
  let w := dWidth d
  let wb := fmtBytes (dB d)
  let two (n : Nat) : Nat :=
    let a := aValues d (dElems d c) * w
    if o < a then (if dBcast d then 0 else at_ * n * w) + o
    else up64 (if dBcast d then n * w else dCount d * n * w) + at_ * n * wb + (o - a)
  match dOp d with
  | 1 => if o < 4 then o else 64 + at_ * w + (o - 4)
  | 4 => two 1
  | 5 => two (dParam d)
  | 6 =>
    let r := 4 * dParam d
    if o < 4 then o
    else if o < 4 + r then 64 + (o - 4)
    else
      let row := max 1 (vCols d c * w)
      64 + up64 r + ((o - 4 - r) / row * dD d + at_) * w + (o - 4 - r) % row
  | _ => at_ * w + o

/-- Whether `n` bytes of a chunk's part of the source from `o` on lie together in the host's memory. -/
def srcRun (d : BitVec 512) (c o n : Nat) : Bool := decide (srcOfs d c (o + n - 1) = srcOfs d c o + (n - 1)) && decide (o + n ≤ srcLen d c)

/-- A beat of a Leaf's source arrives, read at `addr` (R255, R509, R541, R542): the block reads a chunk's part of the source in its order from SRC on, and
the data are kept in that order; an error beat, or a refused image,
stops the contribution; a complete source becomes a raw stream, or is accumulated in a tile. With no room for one chunk left (R331) none is
made. -/
def State.leafRead (s : State) (k : ChunkKey) (addr : Nat) (beat : Option (List Byte × Bool)) (fail : Option TileCheck) : State :=
  match s.lrun k with
  | none => s
  | some x =>
    let ch := x.chunk k.chunk
    let owes := match x.owed with | some l => l.contains k.chunk | none => true
    if ch.sent || ch.done || ch.stuck || ch.writing || ch.stream.isSome || !ch.panes.isEmpty || !owes || (x.stopped && ch.buf.isEmpty) then s
    else if x.w = 0 then s.cannot k .noSpare
    else
      match beat with
      | none => s.cannot k .range
      | some (l, poison) =>
        let ofs := ch.buf.length
        if addr ≠ x.src.getD 0 + srcOfs x.desc k.chunk ofs ∨ l.isEmpty ∨ srcRun x.desc k.chunk ofs l.length = false then s
        else
          let s1 := s.modLchunk k.slot k.handle k.chunk (fun c =>
            { c with buf := c.buf ++ l, bad := if poison then c.bad ++ [(ofs, l.length)] else c.bad })
          match s1.lcoll k.slot k.handle with
          | none => s1
          | some y =>
            let full := decide ((y.chunk k.chunk).buf.length = srcLen y.desc k.chunk)
            match fail with
            | some c => if dPartial x.desc || dSpan x.desc == 0 then State.leafFenceOpt (s1.leafFail k c) else s1
            | none =>
              if !full then s1
              else if !imagesOk y.desc k.chunk (y.chunk k.chunk).buf then s1.cannot k .range
              else if dPartial y.desc || dSpan y.desc == 0 then s1.accumulate k
              else s1.rawReady k y

/-- The drain of a Leaf's tiles ends for a chunk (R236, R256, R261, R327): the copies of its tiles are combined, a partial is packed into its stream, a local result is
written at DEST. -/
def State.leafDrain (s0 : State) (k : ChunkKey) (fail : Option TileCheck) : State :=
  match s0.lrun k with
  | none => s0
  | some _ =>
    let s := s0.accumulate k
    match s.lcoll k.slot k.handle with
    | none => s
    | some x =>
      let ch := x.chunk k.chunk
      match ch.tiles with
      | [] => s
      | t0 :: rest =>
        let own := ch.panes.findSome? (fun e => ((s.pane e.1 e.2).check x.desc e.2 1).map (fun f => { f with tile := e.1 }))
        match fail.or own with
        | some c => State.leafFenceOpt (s.leafFail k c)
        | none =>
          let ne := dElems x.desc k.chunk
          let held (t : Nat) : List Pane := (ch.on t).map (fun p => s.pane t p)
          let ps := rest.foldl (fun a t => joinPanes a (held t)) (held t0)
          let s1 := s.dropAcc ch.panes
          if dSpan x.desc = 0 then
            let (out, fl) := resultOf x.desc ne ps
            let s2 := s1.modLchunk k.slot k.handle k.chunk (fun c =>
              { c with panes := [], buf := [], bad := [], writing := true, cflags := fl ||| ch.flags })
            s2.fabricWrite (dDest x.desc + dPer x.desc * k.chunk * outWidth x.desc) out (bit (fl ||| ch.flags) 6) (dQos x.desc)
          else
            let (out, pb) := partialOf x.desc ne ps
            s1.modLchunk k.slot k.handle k.chunk (fun c =>
              { c with panes := [], stream := some out, aux := if dOp x.desc = 6 then BitVec.ofNat 32 (fieldAt ch.buf 0 4) else 0
                       streamBad := pb, part := true, buf := [], bad := [] })

/-! ## Results and commit messages (R272, R273) -/

/-- A result flit at a Leaf: its bytes take their place in the chunk's result at OFS (R264); flits that a lower pair got on two ports may come in another
order. -/
def State.leafResult (s : State) (k : ChunkKey) (d : CollData) : State :=
  match s.lrun k with
  | none => s
  | some x =>
    let ch := x.chunk k.chunk
    if ch.committed then s
    else s.modLchunk k.slot k.handle k.chunk (fun c => { c with result := c.result.put d })

/-- A commit message at a Leaf (R272): the retained stream is released, COMMITTED rises, and the result is written at the
chunk's first element; a chunk with a code, or without every result byte, has failed. A chunk with a code needs no acknowledgement (Table 10.5); a duplicate is
acknowledged again. -/
def State.leafCommit (s : State) (m : CommitMsg) : State :=
  let k := m.key
  match s.lrun k with
  | none => s.sendUp (.resultAck k)
  | some x =>
    let ch := x.chunk k.chunk
    if ch.committed then (if ch.writing then s else s.sendUp (.resultAck k))
    else
      let s1 := s.modLcoll k.slot k.handle (fun x => { x with
        committed := x.committed + 1
        sent := if ch.sent then x.sent else x.sent + 1
        chunks := x.chunks.set {} k.chunk { ch with stream := none, committed := true, sent := true, stuck := false, result := {} } })
      if m.code ≠ .ok then (s1.chunkDone k m.code 0).sendStuck k.slot k.handle
      else if ch.result.bytes.length ≠ m.resultBytes then ((s1.chunkDone k .range 0).sendUp (.resultAck k)).sendStuck k.slot k.handle
      else
        ((s1.sendStuck k.slot k.handle).modLchunk k.slot k.handle k.chunk (fun c => { c with writing := true, cflags := m.flags })).fabricWrite
          (dDest x.desc + dPer x.desc * k.chunk * outWidth x.desc) ch.result.bytes (bit m.flags 6) (dQos x.desc)

/-- The fabric has acknowledged the write of a chunk's result (R193, R194, R272, R335). -/
def State.leafWritten (s : State) (k : ChunkKey) (err : Bool) : State :=
  match s.lrun k with
  | none => s
  | some x =>
    let ch := x.chunk k.chunk
    if !ch.writing then s
    else
      let s1 := s.modLchunk k.slot k.handle k.chunk (fun c => { c with writing := false })
      let s2 := if err then
          (if dSigEn x.desc then s1.syncFail k.slot (dSig x.desc) 1 .range else s1).modLcoll k.slot k.handle (fun x => { x with noSignal := true })
        else s1
      let code := if err then St.range else if bit ch.cflags 6 then St.poison else St.ok
      let s3 := s2.chunkDone k code ch.cflags
      if dSpan x.desc = 0 then s3 else s3.sendUp (.resultAck k)

/-! ## Replay (R323, R325, R412) -/

/-- The flits of a chunk's whole stream. -/
def LChunk.flits (c : LChunk) : List CollData :=
  match c.stream with
  | some l => (flitsOf c.part c.aux c.streamBad l).map (fun d => { d with flags := c.flags &&& 48 })
  | none => []

/-- A replay request at a Leaf (R323, R325): the mark leaves, then the retained stream from OFS 0. A retained flit whose CRC
fails makes the Leaf rebuild the stream from SRC: the chunk is read again. -/
def State.leafReplay (s : State) (port : Nat) (k : ChunkKey) (attempt : Nat) (crcOk : Bool) : State :=
  match s.lrun k with
  | none => s
  | some x =>
    let ch := x.chunk k.chunk
    let s1 := s.send port (.replayMark k attempt)
    if ch.noticed then s1.send port (.failNotice k ch.code)
    else if !ch.sent then s1
    else if crcOk then s1.sendList port (ch.flits.map (fun d => TxMsg.contribution k d))
    else
      let s2 := s1.modLcoll k.slot k.handle (fun x => { x with
        sent := x.sent - 1
        chunks := x.chunks.set {} k.chunk { ch with sent := false, stream := none } })
      let t := (x.ret.headD (0, 0)).1
      let (s3, perm) := s2.tileEvent t k x.desc attempt { check := 6, pane := 0, lane := 0, limb := 255, expected := 0, observed := 0 }
      if perm then s3.leafAuto t else s3

/-! ## Plans at a Leaf (Table 10.2, R256, R262) -/

/-- The panes that a plan takes at this Leaf, or `none` where they are lacking: accumulation panes in every tile in service
for partial operations and local reductions, retention panes for a window of W chunks otherwise. -/
def State.leafPanes (s : State) (d : BitVec 512) (w : Nat) : Option (List (Nat × Nat) × List (Nat × Nat)) :=
  let needAcc := dSpan d = 0 ∨ dPartial d = true
  let acc := if needAcc then s.tilesIn.flatMap (fun t => ((s.freePanes t).take (dPanes d)).map (fun p => (t, p))) else []
  let rest := s.freeAll.filter (fun p => !acc.contains p)
  let r := if dSpan d = 0 then 0 else w * retPer d
  if (if needAcc then s.tilesIn.length * dPanes d else 0) ≠ acc.length ∨ s.tilesIn.isEmpty ∨ rest.length < r then none
  else some (acc, rest.take r)

/-- The collectives that a context has planned here. -/
def State.collCount (s : State) (c : Nat) : Nat := ((List.range 512).filter (fun h => (s.lcoll c h).isSome)).length

/-- The conditions of Table 10.2 that a participating Leaf tests, or the panes it reserves. -/
def State.leafPlan (s : State) (d : BitVec 512) (w : Nat) : Except St (List (Nat × Nat) × List (Nat × Nat)) :=
  let c := dSlot d
  if (s.lcoll c (dHandle d)).isSome then .error .conflict
  else if dSigEn d && !(s.tr c (dSig d)).valid then .error .conflict
  else if 512 ≤ s.collCount c ∨ (s.slot c).clearing = true then .error .busy
  else match s.leafPanes d w with
    | none => .error .busy
    | some p => .ok p

/-- Hold a planned collective. -/
def State.leafOpen (s : State) (d : BitVec 512) (w : Nat) (p : List (Nat × Nat) × List (Nat × Nat)) : State :=
  (s.reserve (p.1 ++ p.2) true).setLcoll (dSlot d) (dHandle d) (some { desc := d, w := w, acc := p.1, ret := p.2 })

/-- Whether an armed COLLECTIVE entry of a context names a handle (R276). -/
def State.armedColl (s : State) (c h : Nat) : Bool :=
  (List.range 16).any (fun q => (match (s.queue q).owner with | some (.ctx c' _) => c' == c | _ => c == 0) &&
    (s.queue q).entries.any (fun e => e.armed.isSome && dkAction e.bits == 2 && dkArg e.bits % 512 == h))

/-- Remove a collective from this Leaf (R276). -/
def State.leafClose (s : State) (c h : Nat) : State :=
  match s.lcoll c h with
  | some x => (s.reserve (x.acc ++ x.ret) false).setLcoll c h none
  | none => s

end Sys2Proof.Machine
end

