-- ==== Sys2Proof/Machine/Power.lean ====
section
/-! DEFINITION. Clocks, stretching and power (chapter 16): stretch groups, switched domains of the block, and the power
sequencer of a Leaf. -/

set_option linter.unusedVariables false

namespace Sys2Proof.Machine

/-! ## Stretch groups -/

/-- Whether stretch group `g` exists. -/
def State.hasGrp (s : State) (g : Nat) : Bool := decide (g < s.params.groups)
/-- The tiles of a group (R377). -/
def grpTiles (g : Nat) : List Nat := [4 * g, 4 * g + 1, 4 * g + 2, 4 * g + 3]
/-- Whether a group must stay at divider point 0 (R385, R388): it holds a radio tile or a spare tile. -/
def State.grpPinned (s : State) (g : Nat) : Bool := (grpTiles g).any (fun t => (s.tile t).radio || (s.tile t).state == 2)
/-- Whether the group of a tile accepts new updates and drain starts (R386, R387). -/
def State.tileRuns (s : State) (t : Nat) : Bool := !(s.grp (t / 4)).stopping && !(s.grp (t / 4)).stopped

/-- R382: a monitor measures a slack below MARGIN, and the next period of its group is stretched. -/
def execMonitorFire (tile slack : Nat) (s : State) : Out :=
  if tile < s.params.tiles ∧ slack < (s.grp (tile / 4)).margin ∧ (s.grp (tile / 4)).stopped = false then
    .next (s.modGrp (tile / 4) (fun g => { g with stretches := (g.stretches + 1) % 2 ^ 24, interval := g.interval + 1 }))
  else .next s

/-- R384: the end of an interval of 1,048,576 ns: more than 25 % of the group's periods stretched sets STRETCH_HIGH. With s
stretched periods of length 1.5 p, an interval T holds T ÷ p − s ÷ 2 periods. -/
def execStretchIntervalEnd (group : Nat) (s : State) : Out :=
  let g := s.grp group
  if !s.hasGrp group || decide (s.htNs / 1048576 ≤ g.intervalAt / 1048576) then .next s
  else
    let s1 := s.modGrp group (fun g => { g with interval := 0, intervalAt := s.htNs })
    if 4 * 1048576 < 9 * g.interval * 2 ^ g.freq then
      .next ((s1.modGrp group (fun g => { g with stretchHigh := true })).record { event := 0x0900, sub := group })
    else .next s1

/-- The previous settings and stretch counts of all groups (Table 16.11). -/
def clockOut (s : State) : List Byte :=
  let gs := List.range s.params.groups
  layout (gs.map (fun g => (1, (s.grp g).freq)) ++ gs.map (fun g => (4, (s.grp g).stretches)))

/-- CMD_TALLY_CLOCK SET (R386, R388). -/
def execTallyClockSet (h : CmdHdr) (group freq : Nat) (eff : HT) (s : State) : Out :=
  runCmd { opcode := 0x0701 } h s fun s =>
    if !s.hasGrp group || decide (3 < freq) || decide (eff < s.htNs + 10000) then .err s .range
    else if s.grpPinned group && freq != 0 then .err s .conflict
    else if (grpTiles group).any (fun t => (s.tile t).state == 4) || (s.grp group).pend.isSome then .err s .busy
    else .ok (s.modGrp group (fun g => { g with pend := some (freq, eff) })) (layout [(1, (s.grp group).freq), (4, (s.grp group).stretches)])

/-- Whether a chunk is mapped on any tile or a local reduction runs (R387). -/
def State.chunkMapped (s : State) : Bool :=
  (List.range s.params.tiles).any (fun t => (s.tile t).panes.any (fun p => p.2.owner.isSome)) ||
    s.coll.leaf.any (fun e => match e.2 with | some x => x.running && dSpan x.desc == 0 | none => false)

/-- CMD_TALLY_CLOCK SYNC (R387, R385). -/
def execTallyClockSync (h : CmdHdr) (freqs : List Nat) (eff : HT) (s : State) : Out :=
  runCmd { opcode := 0x0701 } h s fun s =>
    if decide (freqs.length ≠ s.params.groups) || freqs.any (fun f => decide (3 < f)) || eff % 1024 != 0 || decide (eff < s.htNs + 10000) then .err s .range
    else if (List.range s.params.groups).any (fun g => s.grpPinned g && (freqs[g]?).getD 0 != 0) then .err s .conflict
    else if s.chunkMapped then .err s .busy
    else .ok { s with pwr := { s.pwr with syncPend := some (freqs, eff) } } (clockOut s)

/-- CMD_TALLY_CLOCK MARGIN (R381). -/
def execTallyClockMargin (h : CmdHdr) (group margin : Nat) (s : State) : Out :=
  runCmd { opcode := 0x0701 } h s fun s =>
    if !s.hasGrp group || decide (7 < margin) then .err s .range
    else .ok (s.modGrp group (fun g => { g with margin := margin })) (layout [(1, (s.grp group).margin), (4, (s.grp group).stretches)])

/-- CMD_TALLY_CLOCK READ. -/
def execTallyClockRead (h : CmdHdr) (s : State) : Out :=
  runCmd { opcode := 0x0701, read := true } h s fun s => .ok s (clockOut s)

/-- R386 step 1: the effective HT of a SET: new updates and drain starts to the group stop. -/
def execTallySetEffective (group : Nat) (s : State) : Out :=
  match (s.grp group).pend with
  | some (f, eff) =>
    if eff ≤ s.htNs then .next (s.modGrp group (fun g => { g with pend := none, stopping := true, target := f })) else .next s
  | none => .next s

/-- R386 steps 2 and 3: the group is quiesced: no drain of it is in progress. Its clock is held, and it restarts at the new
point within 150 ns. -/
def execGroupQuiesced (group : Nat) (s : State) : Out :=
  let draining := s.coll.chunks.any (fun c => decide (c.state = .draining) && c.tile / 4 == group)
  if (s.grp group).stopping && !draining then
    .next (s.modGrp group (fun g => { g with stopping := false, stopped := true, restartAt := some (s.htNs + 150) }))
  else .next s

/-- R387: the effective HT of a SYNC: every group stops, and restarts 200 ns after the effective HT. -/
def execTallySyncEffective (s : State) : Out :=
  match s.pwr.syncPend with
  | some (fs, eff) =>
    if eff ≤ s.htNs then
      .next ((List.range s.params.groups).foldl (fun s g =>
        s.modGrp g (fun x => { x with stopping := false, stopped := true, target := (fs[g]?).getD x.freq, restartAt := some (eff + 200) }))
        { s with pwr := { s.pwr with syncPend := none } })
    else .next s
  | none => .next s

/-- The restart of a held group clock, on the tick on which its time has come (R386, R387). -/
def State.restartGroups (s : State) : State :=
  (List.range s.params.groups).foldl (fun s g =>
    match (s.grp g).restartAt with
    | some t => if t ≤ s.htNs then s.modGrp g (fun x => { x with stopped := false, freq := x.target, restartAt := none }) else s
    | none => s) s

/-! ## Switched domains of the block (R389 to R391) -/

/-- Ask for a domain to go on: at most 4 in any 1,000 ns, further requests wait in index order (R391). -/
def State.turnOn (s : State) (d : Nat) : State :=
  if (s.dom d).on || (s.dom d).turningOn then s
  else if (s.dom d).turningOff then s.modDom d (fun x => { x with wanted := true })
  else
    let recent := s.pwr.onTimes.filter (fun t => decide (s.htNs < t + 1000))
    if recent.length < 4 then
      { s with pwr := { s.pwr with onTimes := recent ++ [s.htNs] } }.modDom d (fun x => { x with turningOn := true, wanted := false })
    else s.modDom d (fun x => { x with wanted := true })

/-- The requests that waited go on when the limit permits (R391). -/
def State.turnWaiting (s : State) : State :=
  (List.range 80).foldl (fun s d => if (s.dom d).wanted && !(s.dom d).turningOff then s.turnOn d else s) s

/-- The ports of a port group (Table 16.6). -/
def State.groupPorts (s : State) (d : Nat) : List Nat :=
  ((List.range 24).map (24 * (d - 64) + ·)).filter (fun p => s.params.hasPort p)

/-- Whether a port is fenced (R332). -/
def State.portFenced (s : State) (p : Nat) : Bool := if 288 ≤ p then bit s.flt.chordMap (p - 288) else bit s.flt.portsMap p

/-- Whether any collective is open at this Hub. -/
def State.hubCollOpen (s : State) : Bool := s.coll.hub.any (fun e => e.2.isSome)

/-- The condition of Table 16.7 for OFF. -/
def State.offOk (s : State) (d : Nat) : Bool :=
  if d < 64 then
    let t := s.tile d
    t.state == 3 || (!t.radio && t.state != 2 && t.state != 4 && t.panes.all (fun p => p.2.owner.isNone))
  else if d < 76 then (s.groupPorts d).all (fun p => !(s.port p).up || s.portFenced p)
  else if d = 76 then s.chordUp.isEmpty
  else if d = 77 then s.jm.pages.all (fun p => match p.2.state with | .inUse _ => false | _ => true)
  else if d = 78 then (if s.isHub then !s.hubCollOpen else s.hm.assay != 1)
  else !s.hubCollOpen

/-- The value of a setting, by its position in ON, OFF, AUTO. -/
def pwrVal : PwrSetting → Nat
  | .on => 0 | .off => 1 | .auto => 2

/-- CMD_POWER_SELF (R390, R391). -/
def execCmdPowerSelf (h : CmdHdr) (domain : Nat) (set : PwrSetting) (idle : Nat) (s : State) : Out :=
  runCmd { opcode := 0x0702 } h s fun s =>
    let prev := layout [(1, pwrVal (s.dom domain).setting)]
    if !s.params.hasDomain domain then .err s .range
    else match set with
      | .on => .ok ((s.modDom domain (fun x => { x with setting := .on })).turnOn domain) prev
      | .off =>
        if s.offOk domain then
          .ok (s.modDom domain (fun x => { x with setting := .off, wanted := false, turningOn := false, turningOff := x.on || x.turningOn })) prev
        else .err s .conflict
      | .auto =>
        if 64 ≤ domain ∨ (s.tile domain).radio = true ∨ (s.tile domain).state = 2 ∨ (s.tile domain).state = 3 then .err s .conflict
        else if idle < 10000 ∨ 10000000000 < idle then .err s .range
        else .ok (s.modDom domain (fun x => { x with setting := .auto, idle := idle })) prev

/-- R390: an AUTO tenant tile in service that has held no chunk for its idle time powers off. -/
def execTileAutoIdleOff (tile : Nat) (s : State) : Out :=
  let d := s.dom tile
  let t := s.tile tile
  if tile < s.params.tiles ∧ d.setting = .auto ∧ d.on = true ∧ d.turningOff = false ∧ t.state = 1 ∧ t.radio = false ∧ t.panes.all (fun p => p.2.owner.isNone) = true ∧ t.idleSince + d.idle ≤ s.htNs then
    .next (s.modDom tile (fun x => { x with turningOff := true }))
  else .next s

/-- R391: a domain has powered on. Every pane of a tile is clear; a port group begins bring-up; the DRAM controller needs its
self-test. -/
def execDomainPowerOnComplete (domain : Nat) (s : State) : Out :=
  if (s.dom domain).turningOn then
    let s1 := s.modDom domain (fun x => { x with on := true, turningOn := false })
    if domain < 64 then .next (s1.modTile domain (fun t => { t with panes := t.panes.filterMap (fun p => if p.2.reserved then some (p.1, ({ reserved := true } : Pane)) else none), idleSince := s.htNs }))
    else .next s1
  else .next s

/-- R390: a domain has powered off and its contents are lost: panes of a tile, the links of ports, the journal. A request that
came meanwhile is served (Table 16.10). -/
def execDomainPowerOffComplete (domain : Nat) (s : State) : Out :=
  if (s.dom domain).turningOff then
    let w := (s.dom domain).wanted
    let s1 := s.modDom domain (fun x => { x with on := false, turningOff := false, wanted := false })
    let s2 := if domain < 64 then s1.modTile domain (fun t => { t with panes := [] })
      else if domain < 76 then (s1.groupPorts domain).foldl (fun s p => s.modPort p (fun x => { x with bring := .down, up := false, timeUsable := false })) s1
      else if domain = 76 then ((List.range 8).map (288 + ·)).foldl (fun s p => if s.params.hasPort p then s.modPort p (fun x => { x with bring := .down, up := false, timeUsable := false }) else s) s1
      else if domain = 77 then { s1 with jm := { s1.jm with ready := false, fail := false, chans := s1.jm.chans.map (fun e => (e.1, { e.2 with trained := false, failed := false })), archivePages := [], pages := s1.jm.pages.map (fun p => (p.1, { p.2 with valid := false })), saves := [], stages := [], spillPages := [] }
                                         hm := { s1.hm with archive := if s1.jm.archivePages.isEmpty then s1.hm.archive else [] } }
      else s1
    .next (if w then s2.turnOn domain else s2)
  else .next s

/-! ## The power sequencer of a Leaf (R392 to R396) -/

/-- OPC of an action. -/
def paOpc (a : PlanAction) : Nat := (a.extractLsb' 0 4).toNat
/-- INDEX. -/
def paIndex (a : PlanAction) : Nat := (a.extractLsb' 4 7).toNat
/-- VALUE. -/
def paValue (a : PlanAction) : Nat := (a.extractLsb' 16 4).toNat
/-- TIME. -/
def paTime (a : PlanAction) : Nat := (a.extractLsb' 32 32).toNat

/-- Whether an action is well formed (Table 16.8). -/
def paOk (a : PlanAction) : Bool :=
  let o := paOpc a; let i := paIndex a; let t := paTime a
  a.extractLsb' 11 5 == 0 && a.extractLsb' 20 12 == 0 &&
  (match o with
   | 1 => decide (i < 80) && t == 0
   | 2 => decide (i < 80) && t == 0
   | 3 => decide (i < 80) && decide (1 ≤ t) && decide (t ≤ 10000000)
   | 4 => decide (i < 80) && decide (1 ≤ t) && decide (t ≤ 10000000)
   | 5 => decide (i < 40) && t == 0
   | 6 => decide (1 ≤ t) && decide (t ≤ 10000000)
   | _ => false)

/-- Whether a plan is accepted (R394). -/
def planOk (p : Plan) : Bool :=
  p.magic == 0x504D5844 && p.version == 1 && p.reservedZero && p.stepsReservedZero &&
  decide (1 ≤ p.steps.length) && decide (p.steps.length ≤ 1024) && decide (1 ≤ p.actions.length) && decide (p.actions.length ≤ 8192) &&
  p.steps.all (fun e => decide (e.1 + e.2 ≤ p.actions.length)) && p.actions.all paOk

/-- The actions of a step of the plan loaded. -/
def State.stepActions (s : State) (i : Nat) : List PlanAction :=
  match s.pwr.plan with
  | some p => match p.steps[i]? with
    | some e => (p.actions.drop e.1).take e.2
    | none => []
  | none => []

/-- A POWER strike queues its step (R395): up to 4 wait behind the running one; a fifth is dropped with OVERRUN. -/
def State.queueStep (s : State) (i : Nat) : State :=
  if s.pwr.waiting.length < (if s.pwr.run.isSome then 4 else 5) then
    { s with pwr := { s.pwr with waiting := s.pwr.waiting ++ [i] } }
  else { s with pwr := { s.pwr with overrun := true } }.record { event := 0x0902, syn := le 2 i }

/-- The running step ends. -/
def State.endStep (s : State) (i : Nat) : State := { s with pwr := { s.pwr with run := none, lastStep := i } }

/-- The running step aborts (R395): TIMEOUT or CONFLICT, and a record of event 0x0901 with the step and action index. -/
def State.abortStep (s : State) (r : StepRun) (timeout : Bool) : State :=
  let s1 := { s with pwr := { s.pwr with timeout := s.pwr.timeout || timeout, conflict := s.pwr.conflict || !timeout } }
  (s1.endStep r.step).record
    { event := 0x0901, code := if timeout then St.timeout.val else St.conflict.val, syn := le 2 r.step ++ le 2 r.act }

/-- Go to the next action, or end the step after its last one. -/
def State.nextAct (s : State) (r : StepRun) : State :=
  if r.act + 1 < (s.stepActions r.step).length then { s with pwr := { s.pwr with run := some { step := r.step, act := r.act + 1 } } }
  else s.endStep r.step

/-- Write control `j` of the 40 clock controls. -/
def setCk (ck : BitVec 160) (j v : Nat) : BitVec 160 :=
  (ck &&& ~~~(BitVec.ofNat 160 (15 * 2 ^ (4 * j)))) ||| BitVec.ofNat 160 (v % 16 * 2 ^ (4 * j))

/-- One action of the running step (R393, R395), taken by a tick; a WAIT or DELAY begins to hold on the tick that meets it. -/
def State.stepTick (s : State) : State :=
  match s.pwr.run with
  | none => s
  | some r =>
    match r.since with
    | some _ => s
    | none =>
      match (s.stepActions r.step)[r.act]? with
      | none => s.endStep r.step
      | some a =>
        let k := paIndex a
        let hold : State := { s with pwr := { s.pwr with run := some { r with since := some s.htNs } } }
        match paOpc a with
        | 1 => if s.pwr.pmReq.getLsbD k = s.pwr.pmAck.getLsbD k then
                 { s with pwr := { s.pwr with pmReq := s.pwr.pmReq ||| (1#80 <<< k) } }.nextAct r
               else s.abortStep r false
        | 2 => if s.pwr.pmReq.getLsbD k = s.pwr.pmAck.getLsbD k then
                 { s with pwr := { s.pwr with pmReq := s.pwr.pmReq &&& ~~~(1#80 <<< k) } }.nextAct r
               else s.abortStep r false
        | 3 => if s.pwr.pmAck.getLsbD k then s.nextAct r else hold
        | 4 => if s.pwr.pmAck.getLsbD k then hold else s.nextAct r
        | 5 => { s with pwr := { s.pwr with ckCtl := setCk s.pwr.ckCtl k (paValue a) } }.nextAct r
        | _ => hold

/-- CMD_POWER_PLAN LOAD (R394, R396). -/
def execPowerPlanLoad (h : CmdHdr) (p : FabRead Plan) (s : State) : Out :=
  runRead { opcode := 0x0703, hub := false } h s p fun s =>
    if s.pwr.run.isSome || !s.pwr.waiting.isEmpty then .err s .busy
    else withRead s p fun p =>
      if planOk p then .ok { s with pwr := { s.pwr with plan := some p } } (layout [(2, p.steps.length), (2, p.actions.length)])
      else .err s .range

/-- The 32-byte docket entry of a POWER action at an absolute strike time (Table 6.2). -/
def powerEntry (step : Nat) (strike : HT) : BitVec 256 :=
  BitVec.ofNat 256 (strike % 2 ^ 64 + 3 * 2 ^ 64 + (step % 65536) * 2 ^ 128)

/-- CMD_POWER_PLAN SCHEDULE (R396). -/
def execPowerPlanSchedule (h : CmdHdr) (q step : Nat) (strike : HT) (s : State) : Out :=
  runCmd { opcode := 0x0703, hub := false } h s fun s =>
    let n := match s.pwr.plan with | some p => (p.steps.length, p.actions.length) | none => (0, 0)
    if 16 ≤ q then .err s .range
    else if (s.queue q).owner ≠ some .firmware then .err s .conflict
    else if 256 ≤ (s.queue q).entries.length then .err s .busy
    else .ok (s.modQueue q (fun d => { d with entries := d.entries ++ [{ bits := powerEntry step strike }] })) (layout [(2, n.1), (2, n.2)])

/-- CMD_POWER_PLAN READ: steps and actions held, and the plan's header. -/
def execPowerPlanRead (h : CmdHdr) (s : State) : Out :=
  runCmd { opcode := 0x0703, hub := false, read := true } h s fun s =>
    match s.pwr.plan with
    | some p => .ok s (layout [(2, p.steps.length), (2, p.actions.length)] ++ le 4 p.magic ++ le 4 p.version ++ le 2 p.steps.length ++ le 2 p.actions.length ++ List.replicate 52 0)
    | none => .ok s (layout [(2, 0), (2, 0)])

/-- R395: a waiting step starts, when none runs. -/
def execPowerStepStart (s : State) : Out :=
  match s.pwr.run, s.pwr.waiting with
  | none, i :: r => .next { s with pwr := { s.pwr with run := some { step := i, act := 0 }, waiting := r } }
  | _, _ => .next s

/-- R392, R395, Table 16.10: pm_ack[k] changes. A change without a request is unsolicited; one that a WAIT of the running step
waits for lets the step go on. -/
def execPmAckChange (k : Nat) (level : Bool) (s : State) : Out :=
  if s.isHub || decide (80 ≤ k) || s.pwr.pmAck.getLsbD k == level then .next s
  else
    let unsolicited := s.pwr.pmAck.getLsbD k == s.pwr.pmReq.getLsbD k
    let a := if level then s.pwr.pmAck ||| (1#80 <<< k) else s.pwr.pmAck &&& ~~~(1#80 <<< k)
    let s1 := { s with pwr := { s.pwr with pmAck := a } }
    if unsolicited then .next ({ s1 with pwr := { s1.pwr with unsolicited := true } }.record { event := 0x0903, sub := k })
    else
      match s1.pwr.run with
      | some r =>
        match r.since, (s1.stepActions r.step)[r.act]? with
        | some _, some x =>
          if paIndex x = k ∧ ((paOpc x = 3 ∧ level = true) ∨ (paOpc x = 4 ∧ level = false)) then .next (s1.nextAct r) else .next s1
        | _, _ => .next s1
      | none => .next s1

/-- R395: the DELAY of the running step is over. -/
def execPowerDelayExpiry (s : State) : Out :=
  match s.pwr.run with
  | some r =>
    match r.since, (s.stepActions r.step)[r.act]? with
    | some t, some a => if paOpc a = 6 ∧ t + paTime a ≤ s.htNs then .next (s.nextAct r) else .next s
    | _, _ => .next s
  | none => .next s

/-- R395: a WAIT of the running step times out: the step aborts. -/
def execPowerWaitTimeout (s : State) : Out :=
  match s.pwr.run with
  | some r =>
    match r.since, (s.stepActions r.step)[r.act]? with
    | some t, some a => if (paOpc a = 3 ∨ paOpc a = 4) ∧ t + paTime a ≤ s.htNs then .next (s.abortStep r true) else .next s
    | _, _ => .next s
  | none => .next s

end Sys2Proof.Machine
end

