-- ==== Sys2Proof/Machine/Docket.lean ====
section
/-! DEFINITION. The Docket, frame launch and pulse outputs (chapter 6): pushes, readiness, strikes, and the commands of
Table 6.8. -/

set_option linter.unusedVariables false

namespace Sys2Proof.Machine

/-! ## Queues -/

/-- The context slot of a queue: that of the context it is bound to, 0 for firmware and unbound queues (R157). -/
def DkQueue.slot (q : DkQueue) : Nat :=
  match q.owner with
  | some (.ctx c _) => c
  | _ => 0

/-- Whether a queue may carry POWER (R159): it is bound to firmware or to the radio context. -/
def State.powerQueue (s : State) (q : Nat) : Bool :=
  match (s.queue q).owner with
  | some .firmware => true
  | some (.ctx c _) => (s.slot c).radio
  | none => false

/-- Whether WAIT_ID and DONE_ID of an entry are mapped where it uses them (R162). -/
def State.idsOk (s : State) (c : Nat) (e : BitVec 256) : Bool :=
  (!dkWait e || (s.tr c (dkWaitId e)).valid) && (!dkDone e || (s.tr c (dkDoneId e)).valid)

/-- The DOCKET fields of a failure or refusal (R160, R164): TAG and CODE of LF_DK_FAILq and the context's interrupt bit. -/
def State.dkReport (s : State) (q tag : Nat) (code : St) : State :=
  (s.modQueue q (fun d => { d with failTag := tag, failCode := code.val })).ctxIrq (s.queue q).slot 0

/-- Entry `i` of a queue fails (R164): it is removed without firing, the queue enters Halted and FAILED is set. -/
def State.dkFail (s : State) (q i : Nat) (code : St) : State :=
  match (s.queue q).entries[i]? with
  | none => s
  | some e =>
    (s.modQueue q (fun d => { d with entries := d.entries.eraseIdx i, halted := true, failed := true, relH := if i = 0 then none else d.relH })).dkReport
      q (dkTag e.bits) code

/-- The check of the tick on which an entry becomes head (R162): an unmapped ID fails it with ST_RANGE. -/
def State.dkHead (s : State) (q : Nat) : State :=
  match (s.queue q).entries with
  | [] => s
  | e :: _ => if (s.queue q).halted || s.idsOk (s.queue q).slot e.bits then s else s.dkFail q 0 .range

/-- The check of an UNMAP on the tick on which it is made (R162): head and armed entries whose IDs are no longer mapped fail. -/
def State.dkRecheck (s : State) (q : Nat) : State :=
  let bad := fun (s : State) (i : Nat) => match (s.queue q).entries[i]? with
    | some e => (i == 0 || e.armed.isSome) && !s.idsOk (s.queue q).slot e.bits
    | none => false
  let s1 := if bad s 1 then s.dkFail q 1 .range else s
  if bad s1 0 then s1.dkFail q 0 .range else s1

/-- Whether the action of an entry can be taken at readiness (R162), or the code with which it fails. -/
def State.actionRefusal (s : State) (q : Nat) (e : BitVec 256) : Option St :=
  let c := (s.queue q).slot
  match dkAction e with
  | 2 => if ((s.lcoll c (dkArg e % 512)).bind (·.src)).isSome then none else some .range
  | 3 => match s.pwr.plan with
    | some p => if dkArg e % 65536 < p.steps.length then none else some .range
    | none => some .range
  | 4 =>
    let f := s.frame (dkArg e % 4)
    if f.mode = 2 ∧ f.slot = c ∧ (c = 0 ∨ f.gen = (s.slot c).lastGen) then none else some .conflict
  | 5 =>
    let o := s.po (dkArg e % 4)
    if o.mode = 2 ∧ o.slot = c ∧ (c = 0 ∨ o.gen = (s.slot c).lastGen) then none else some .conflict
  | _ => none

/-- The entry of a queue that is to be armed next (R163): its head, or in paired mode the entry behind an armed head. -/
def DkQueue.nextArm (d : DkQueue) : Option (Nat × DkEntry) :=
  match d.entries with
  | [] => none
  | e :: r =>
    if e.armed.isNone then some (0, e)
    else if d.paired then (match r with | f :: _ => if f.armed.isNone then some (1, f) else none | [] => none)
    else none

/-- The strike time of an entry that becomes ready at `h` (R162), and whether it is late: `prev` is the earlier strike. -/
def strikeAt (e : BitVec 256) (h : HT) (prev : Option HT) : HT × Bool :=
  let t := if dkRel e then h + dkStrike e else dkStrike e
  (t, decide (t < h + 16) || (match prev with | some p => decide (t < p) | none => false))

/-- An entry is ready (R162, R163): it is armed with its strike time, or fails. Readiness lies at this tick, or at the S of the release that met
the entry's wait. -/
def State.dkArm (s : State) (q i : Nat) (e : DkEntry) (rel : Option HT) : State :=
  let d := s.queue q
  let prev := if i = 0 then d.lastStrike else (d.entries.headD e).armed
  let (t, late) := strikeAt e.bits (rel.getD s.htNs) prev
  if late || decide (t < s.htNs + 2) then s.dkFail q i .lateStrike
  else
    match s.actionRefusal q e.bits with
    | some k => s.dkFail q i k
    | none => s.modQueue q (fun d => { d with entries := d.entries.set i { e with armed := some t }, relH := if i = 0 then none else d.relH })

/-- R161 to R163, R489, R490: an entry whose wait is met becomes ready, and is armed with its strike time or fails. For a head
with REL 0 whose wait a barrier release met, h is the release's S, and the entry fails here when its own tick lies later
than STRIKE − 2 ns. -/
def execDocketEntryReady (q : Nat) (s : State) : Out :=
  let d := s.queue q
  if s.isHub || decide (16 ≤ q) || d.owner.isNone || d.halted || !s.time.valid then .next s
  else
    match d.nextArm with
    | none => .next s
    | some (i, e) =>
      let x := s.tr d.slot (dkWaitId e.bits)
      if dkWait e.bits && !(x.valid && meets x.counter (s.word x.phys) (dkThr e.bits)) then .next s
      else
        .next (s.dkArm q i e (if i = 0 ∧ dkRel e.bits = false then d.relH else none))

/-- The action of an entry at its strike (Table 6.3). -/
def State.act (s : State) (c : Nat) (e : BitVec 256) (t : HT) : State :=
  let a := dkArg e
  match dkAction e with
  | 1 => s.launch a
  | 2 => s.startColl c (a % 512)
  | 3 => s.queueStep (a % 65536)
  | 4 => s.fireFrame (a % 4) (a / 65536 % 65536) t
  | 5 => s.raise (a % 4) (t + a / 2 ^ 32)
  | _ => s

/-- R153, R159: the comparator of an armed head fires at its strike time: the action is taken, DONE_ID gains 1, and the next
entry becomes head. -/
def execDocketStrike (q : Nat) (s : State) : Out :=
  let d := s.queue q
  match d.entries with
  | [] => .next s
  | e :: r =>
    match e.armed with
    | none => .next s
    | some t =>
      if s.isHub || !s.time.valid || decide (s.htNs < t) then .next s
      else
        let s1 := (s.modQueue q (fun d => { d with entries := r, lastStrike := some t, relH := none })).act d.slot e.bits t
        let s2 := if dkDone e.bits then s1.signal d.slot (dkDoneId e.bits) 1 4 else s1
        .next (s2.dkHead q)

/-! ## The push port (R160) -/

/-- Whether an access may write the registers of a queue, other than PUSH of a Disabled one (R531). -/
def State.dkMay (s : State) (q access : Nat) : Bool := s.mayUse access (s.queue q).slot

/-- R160: a write of word 0 to 6 of the push registers goes to the staging buffer. -/
def execDocketPushWord (q w : Nat) (v : Word) (access : Nat) (s : State) : Out :=
  if s.isHub || decide (16 ≤ q) || decide (7 ≤ w) || (s.queue q).owner.isNone || !s.dkMay q access then .next (s.answer 0 true)
  else .next ((s.modQueue q (fun d => { d with staging := d.staging.set 0 w v })).answer 0 false)

/-- R160: the write of word 7 commits the entry: it is refused with ST_RANGE or ST_BUSY, or joins its queue. -/
def execDocketPushCommit (q : Nat) (v : Word) (access : Nat) (s : State) : Out :=
  let d := s.queue q
  if s.isHub || decide (16 ≤ q) || d.owner.isNone || !s.dkMay q access then .next (s.answer 0 true)
  else
    let e := entryOfWords d.staging v
    let s0 := s.answer 0 false
    if !dkEntryOk e (s.powerQueue q) then
      .next ((s0.modQueue q (fun d => { d with pushErr := true })).dkReport q (dkTag e) .range)
    else if 256 ≤ d.entries.length then
      .next ((s0.modQueue q (fun d => { d with pushFull := true })).dkReport q (dkTag e) .busy)
    else
      let s1 := s0.modQueue q (fun d => { d with entries := d.entries ++ [{ bits := e }] })
      .next (if d.entries.isEmpty then s1.dkHead q else s1)

/-- An unbound queue: empty and Disabled; the W1C bits and LF_DK_FAILq stay (Table 6.9). -/
def DkQueue.unbound (d : DkQueue) : DkQueue :=
  { pushFull := d.pushFull, pushErr := d.pushErr, failed := d.failed, failTag := d.failTag, failCode := d.failCode }

/-- Empty a queue and forget its last strike (R162, R165). -/
def DkQueue.flushed (d : DkQueue) : DkQueue := { d with entries := [], halted := false, lastStrike := none, relH := none }

/-- R165: 1 is written to FLUSH of LF_DK_CTRLq. A Disabled queue is not changed. -/
def execDocketFlush (q access : Nat) (s : State) : Out :=
  if s.isHub || decide (16 ≤ q) || !s.dkMay q access then .next (s.answer 0 true)
  else if (s.queue q).owner.isNone then .next (s.answer 0 false)
  else .next ((s.modQueue q DkQueue.flushed).answer 0 false)

/-- R165: 1 is written to RESUME of LF_DK_CTRLq: a Halted queue returns to service. -/
def execDocketResume (q access : Nat) (s : State) : Out :=
  if s.isHub || decide (16 ≤ q) || !s.dkMay q access then .next (s.answer 0 true)
  else if (s.queue q).halted then .next (((s.modQueue q (fun d => { d with halted := false })).dkHead q).answer 0 false)
  else .next (s.answer 0 false)

/-! ## CMD_DOCKET_LOAD (Table 6.8) -/

/-- Whether the issuer may name an owner (R470): a context page binds and loads queues of its own context only. -/
def ownerAuth (h : CmdHdr) (o : Owner) : Bool :=
  match h.src with
  | .page p => match o with | .ctx c _ => c == p | .firmware => false
  | _ => true

/-- What is wrong with a named owner before the queue is looked at: its right, its open context, a clear that runs. -/
def State.ownerRefusal (s : State) (h : CmdHdr) (q : Nat) (o : Owner) : Option St :=
  if !ownerAuth h o then some .auth
  else match o with
    | .firmware => if 16 ≤ q then some .range else none
    | .ctx c g =>
      if c = 0 ∨ (s.slot c).open_ = false ∨ (s.slot c).lastGen ≠ g then some .genWrap
      else if 16 ≤ q then some .range
      else if (s.slot c).clearing then some .busy
      else none

/-- Whether an owner is a tenant's context (R156). -/
def State.ownerTenant (s : State) (o : Owner) : Bool :=
  match o with
  | .firmware => false
  | .ctx c _ => !(s.slot c).radio

/-- Comparators held and LEVEL (Table 6.8). -/
def State.dkOut (s : State) (q : Nat) : List (Nat × Nat) := [(2, s.held (.queue q)), (2, (s.queue q).entries.length)]

/-- CMD_DOCKET_LOAD BIND (R155, R157, R175). -/
def execDocketBind (h : CmdHdr) (q : Nat) (o : Owner) (paired : Bool) (s : State) : Out :=
  runCmd { opcode := 0x0201, hub := false, iss := .ctx } h s fun s =>
    match s.ownerRefusal h q o with
    | some k => .err s k
    | none =>
      let n := if paired then 2 else 1
      if (s.queue q).owner.isSome then .err s .conflict
      else if !s.canAlloc n (s.ownerTenant o) then .err s .noComparator
      else
        let s1 := (s.modQueue q (fun d => { d.unbound with owner := some o, paired := paired })).alloc n (.queue q)
        .ok s1 (layout (s1.dkOut q))

/-- The first entry of a load that is refused (R160), counted from 0. -/
def firstBad (power : Bool) : Nat → List (BitVec 256) → Option (Nat × Nat)
  | _, [] => none
  | i, e :: r => if dkEntryOk e power then firstBad power (i + 1) r else some (i, dkTag e)

/-- CMD_DOCKET_LOAD LOAD (R160): all entries or none; REPLACE acts as a FLUSH followed by the load. -/
def execDocketLoad (h : CmdHdr) (q : Nat) (o : Owner) (entries : FabRead (List (BitVec 256))) (count : Nat) (replace : Bool) (s : State) : Out :=
  runRead { opcode := 0x0201, hub := false, iss := .ctx } h s entries fun s =>
    match s.ownerRefusal h q o with
    | some k => .err s k
    | none =>
      if (s.queue q).owner ≠ some o then .err s .conflict
      else if count = 0 ∨ 256 < count then .err s .range
      else withRead s entries fun l =>
        let room := if replace then 256 else 256 - (s.queue q).entries.length
        match firstBad (s.powerQueue q) 0 l with
        | some (i, tag) => .done s .range (layout (s.dkOut q ++ [(2, i), (2, tag)]))
        | none =>
          match l.drop room with
          | e :: _ => .done s .range (layout (s.dkOut q ++ [(2, room), (2, dkTag e)]))
          | [] =>
            let s1 := if replace then s.modQueue q DkQueue.flushed else s
            let was := (s1.queue q).entries.isEmpty
            let s2 := s1.modQueue q (fun d => { d with entries := d.entries ++ l.map (fun e => ({ bits := e } : DkEntry)) })
            .ok (if was then s2.dkHead q else s2) (layout (s2.dkOut q))

/-- CMD_DOCKET_LOAD UNBIND: the queue is emptied, unbound and its comparators are free (Table 6.1). -/
def execDocketUnbind (h : CmdHdr) (q : Nat) (o : Owner) (s : State) : Out :=
  runCmd { opcode := 0x0201, hub := false, iss := .ctx } h s fun s =>
    match s.ownerRefusal h q o with
    | some k => .err s k
    | none =>
      if (s.queue q).owner ≠ some o then .err s .conflict
      else
        let s1 := (s.modQueue q DkQueue.unbound).release (.queue q)
        .ok s1 (layout (s1.dkOut q))

/-- Unbind every queue of a context and free its comparators (R166). -/
def State.clearQueues (s : State) (c : Nat) : State :=
  (List.range 16).foldl (fun s q =>
    match (s.queue q).owner with
    | some (.ctx x _) => if x = c then (s.modQueue q DkQueue.unbound).release (.queue q) else s
    | _ => s) s

/-! ## Frame launch channels (R169, R170) -/

/-- R170: a write of LF_FL_STRIKE_HIc arms a Direct channel, or replaces its pending strike; a strike earlier than HT + 16 ns
sets LATE and leaves the channel disarmed. -/
def execFrameStrikeArm (c : Nat) (v : Word) (access : Nat) (s : State) : Out :=
  if s.isHub || decide (4 ≤ c) || access != 0 then .next (s.answer 0 true)
  else
    let s0 := (s.modFrame c (fun f => { f with hi := v })).answer 0 false
    let f := s0.frame c
    let t := f.lo.toNat + v.toNat * 2 ^ 32
    if f.mode ≠ 1 then .next s0
    else if t < s.htNs + 16 then .next (s0.modFrame c (fun f => { f with armed := none, late := true }))
    else .next (s0.modFrame c (fun f => { f with armed := some t, armTag := f.tag }))

/-- R170: the pending strike of a Direct channel fires. -/
def execFrameDirectStrike (c : Nat) (s : State) : Out :=
  match (s.frame c).armed with
  | some t => if !s.isHub && s.time.valid && decide (t ≤ s.htNs) then .next (s.fireFrame c (s.frame c).armTag t) else .next s
  | none => .next s

/-! ## Pulse outputs (R171 to R175) -/

/-- R171, R172, R173, R114: a rising edge of a Periodic output, or of an output in Calibration mode (64 ns every 1,024 ns). A
Direct edge needs VALID (R39). -/
def execPulseEdge (n : Nat) (s : State) : Out :=
  let o := s.po n
  if 4 ≤ n ∨ s.time.valid = false then .next s
  else if o.mode = 1 ∧ s.edgeDue n = true then
    let t := ((s.htNs : Int) - s.pulsePhase n s.htNs).toNat
    .next ((s.setPo n true t).modPo n (fun o => { o with fallAt := some (t + o.width), lastRise := some t }))
  else if o.mode = 3 then
    let trains := (match s.tdc.cal with | some c => if c.po = n then [(c.start, c.count)] else [] | none => []) ++
      (match s.tsrc.plumb with | some r => if r.mine.1 = n then [(r.start, r.args.count), (r.second, r.args.count)] else [] | none => [])
    match trains.find? (fun x => decide (x.1 ≤ s.htNs ∧ s.htNs < x.1 + x.2 * 1024)) with
    | some (t0, _) =>
      let t := t0 + (s.htNs - t0) / 1024 * 1024
      if s.htNs < t + 2 ∧ o.lastRise ≠ some t then
        .next ((s.setPo n true t).modPo n (fun o => { o with fallAt := some (t + 64), lastRise := some t }))
      else .next s
    | none => .next s
  else .next s

/-- R172: the width of a pulse has passed. -/
def execPulseWidthEnd (n : Nat) (s : State) : Out :=
  match (s.po n).fallAt with
  | some t => if n < 4 ∧ t ≤ s.htNs then .next ((s.setPo n false t).modPo n (fun o => { o with fallAt := none })) else .next s
  | none => .next s

/-- Whether an armed entry of any queue names an output or channel (R175): action 4 a frame channel, 5 an output. -/
def State.armedNames (s : State) (action k : Nat) : Bool :=
  (List.range 16).any (fun q => (s.queue q).entries.any (fun e => e.armed.isSome && dkAction e.bits == action && dkArg e.bits % 4 == k))

/-- Whether a Docket-mode configuration names an open context, or firmware (R171). -/
def State.dockCtx (s : State) (a : PulseArgs) : Bool :=
  if a.slot = 0 then a.gen == 0 else (s.slot a.slot).open_ && decide ((s.slot a.slot).lastGen = a.gen)

/-- The ranges of a Periodic output (R172). -/
def periodicOk (a : PulseArgs) : Bool :=
  decide (a.period ≤ 5) && decide (-500000000 ≤ a.offset) && decide (a.offset ≤ 500000000) &&
    decide (8 ≤ a.width) && decide (a.width ≤ periodNs a.period / 2)

/-- CMD_PULSE_CONFIG of an output (R171 to R175). -/
def State.cfgOutput (s : State) (n : Nat) (a : PulseArgs) : CmdRes :=
  let o := s.po n
  let prev := layout [(1, o.mode)]
  if 4 ≤ n ∨ 3 < a.mode ∨ (a.mode = 1 ∧ periodicOk a = false) then .err s .range
  else if a.mode = 3 then .err s .range
  else if s.isHub && a.mode == 2 then .err s .range
  else if o.mode = 3 then .err s .conflict
  else if a.mode = 2 ∧ s.dockCtx a = false then .err s .genWrap
  else if o.mode = 2 ∧ (a.mode ≠ 2 ∨ o.slot ≠ a.slot ∨ o.gen ≠ a.gen) ∧ s.armedNames 5 n = true then .err s .conflict
  else match a.mode with
    | 0 =>
      .ok (((s.release (.pulse n)).setPo n false s.htNs).modPo n (fun o => { o with mode := 0, fallAt := none, lastRise := none, slot := 0, gen := 0 })) prev
    | 1 =>
      if o.mode = 1 then
        if s.isHub then
          if o.period = a.period ∧ o.offset = a.offset ∧ o.width = a.width then .ok s prev else .err s .conflict
        else
          .ok (s.modPo n (fun o => { o with
            period := a.period, offset := a.offset, width := a.width
            realign := o.realign || decide (o.offset ≠ a.offset) || decide (o.period ≠ a.period)
            changedAt := if o.offset = a.offset ∧ o.period = a.period then o.changedAt else some s.htNs })) prev
      else if !s.isHub && !s.canAlloc 1 false then .err s .noComparator
      else
        .ok (((s.alloc 1 (.pulse n))).modPo n (fun o => { o with
          mode := 1, period := a.period, offset := a.offset, width := a.width, align := if s.isHub then s.time.ofs else o.align
          slot := 0, gen := 0, lastRise := none, changedAt := some s.htNs })) prev
    | _ =>
      .ok ((s.release (.pulse n)).modPo n (fun o => { o with mode := 2, slot := a.slot, gen := a.gen, lastRise := none, changedAt := none })) prev

/-- CMD_PULSE_CONFIG of a frame channel (R170, R175). -/
def State.cfgChannel (s : State) (c : Nat) (a : PulseArgs) : CmdRes :=
  let f := s.frame c
  let prev := layout [(1, f.mode)]
  if 4 ≤ c ∨ 2 < a.mode ∨ s.isHub = true then .err s .range
  else if f.mode = 1 ∧ f.armed.isSome = true then .err s .conflict
  else if a.mode = 2 ∧ s.dockCtx a = false then .err s .genWrap
  else if f.mode = 2 ∧ (a.mode ≠ 2 ∨ f.slot ≠ a.slot ∨ f.gen ≠ a.gen) ∧ s.armedNames 4 c = true then .err s .conflict
  else match a.mode with
    | 0 => .ok ((s.release (.frame c)).modFrame c (fun f => { f with mode := 0, armed := none, slot := 0, gen := 0 })) prev
    | 1 =>
      if f.mode = 1 then .ok s prev
      else if !s.canAlloc 1 true then .err s .noComparator
      else .ok ((s.alloc 1 (.frame c)).modFrame c (fun f => { f with mode := 1, armed := none, slot := 0, gen := 0 })) prev
    | _ => .ok ((s.release (.frame c)).modFrame c (fun f => { f with mode := 2, armed := none, slot := a.slot, gen := a.gen })) prev

/-- CMD_PULSE_CONFIG (R170 to R175). -/
def execCmdPulseConfig (h : CmdHdr) (a : PulseArgs) (s : State) : Out :=
  runCmd { opcode := 0x0202 } h s fun s =>
    match a.target with
    | .output n => s.cfgOutput n a
    | .channel c => s.cfgChannel c a

/-- CMD_PULSE_ALIGN (R174): each named output of a Hub takes a new ALIGN at the effective HT; the command completes then. -/
def execCmdPulseAlign (h : CmdHdr) (mask : Nat) (eff : HT) (s : State) : Out :=
  runCmd { opcode := 0x0203, leaf := false } h s fun s =>
    if mask = 0 ∨ 16 ≤ mask ∨ eff < s.htNs + 1000000 then .err s .range
    else if (bitsOf mask 4).any (fun n => (s.po n).mode != 1) then .err s .conflict
    else
      match (bitsOf mask 4).getLast? with
      | none => .err s .range
      | some z =>
        .wait ((bitsOf mask 4).foldl (fun s n => s.modPo n (fun o => { o with alignPend := some eff, alignSrc := if n = z then some h.src else none })) s)

/-- R174: at the effective HT of a CMD_PULSE_ALIGN an output latches ALIGN from OFS. The last of the outputs named completes
the command. -/
def execPulseAlignApply (n : Nat) (s : State) : Out :=
  let o := s.po n
  match o.alignPend with
  | none => .next s
  | some eff =>
    if n < 4 ∧ s.isHub = true ∧ eff ≤ s.htNs then
      let d := s.time.ofs - o.align
      let s1 := s.modPo n (fun o => { o with
        align := s.time.ofs, alignPend := none, alignSrc := none, realign := o.realign || (decide (o.mode = 1) && decide (d ≠ 0))
        changedAt := if d = 0 then o.changedAt else some s.htNs })
      match o.alignSrc with
      | some src => .next (complete s1 src 0x0203 .ok (layout [(8, twos 64 s.time.ofs), (8, twos 64 (-d))]))
      | none => .next s1
    else .next s

/-! ## Commanded steps and the strikes that are armed (Table 6.7) -/

/-- The armed entries of a queue are checked again with readiness at the step tick: the head, then in paired mode the entry behind it. After a head
that fails the queue is Halted and nothing more is armed. -/
def State.recheckQueue (s : State) (q : Nat) : State :=
  let was := (s.queue q).entries.map (fun e => e.armed.isSome)
  let s0 := s.modQueue q (fun d => { d with entries := d.entries.map (fun e => { e with armed := none }) })
  match was, (s0.queue q).entries with
  | true :: r, e :: l =>
    let s1 := s0.dkArm q 0 e none
    (match r, l with
     | true :: _, f :: _ => if (s1.queue q).halted then s1 else s1.dkArm q 1 f none
     | _, _ => s1)
  | _, _ => s0

/-- Every armed entry and Direct channel is disarmed and checked again at the step tick: a channel that is now late sets LATE. -/
def State.recheckStrikes (s : State) : State :=
  let s1 := (List.range 16).foldl State.recheckQueue s
  (List.range 4).foldl (fun s c =>
    match (s.frame c).armed with
    | some t => if t < s.htNs + 16 then s.modFrame c (fun f => { f with armed := none, late := true }) else s
    | none => s) s1

end Sys2Proof.Machine
end

