-- ==== Sys2Proof/Machine/SyncCmd.lean ====
section
/-! DEFINITION. CMD_SYNC_MAP and CMD_SYNC_PAIR (R179, R180, R185, R205, Table 7.6). -/

set_option linter.unusedVariables false

namespace Sys2Proof.Machine

/-- The physical words that are not free: mapped ones, and those of a context whose clear is not complete (R195). -/
def State.usedWords (s : State) : List Nat :=
  (s.sync.trans.filter (fun e => e.2.valid)).map (fun e => e.2.phys) ++ s.sync.freeing.flatMap (fun e => e.2)

/-- FREE of LF_SYNC_STAT: unmapped physical words. -/
def State.freeWords (s : State) : Nat := 65536 - s.usedWords.length

/-- The `n` lowest-numbered words from `p` on that are not in a list of used words (DESIGN CHOICE, log 24). -/
def pickFree (used : List Nat) : Nat → Nat → Nat → List Nat
  | 0, _, _ => []
  | fuel + 1, n, p =>
    match n with
    | 0 => []
    | m + 1 => if used.contains p then pickFree used fuel (m + 1) (p + 1) else p :: pickFree used fuel m (p + 1)

/-- Whether a range of virtual IDs is in range (Table 7.6). -/
def rangeOk (first count : Nat) : Bool := decide (1 ≤ count) && decide (count ≤ 4096) && decide (first + count ≤ 4096)

/-- The virtual IDs of a range. -/
def vidsOf (first count : Nat) : List Nat := (List.range count).map (first + ·)

/-- What every operation of these commands checks first: no clear of the context runs (R196). -/
def syncBody (h : CmdHdr) (s : State) (k : State → CmdRes) : CmdRes :=
  if h.slot ≠ 0 ∧ (s.slot h.slot).clearing = true then .err s .busy else k s

/-- The free words after a command, as its result. -/
def freeOut (s : State) : List Byte := layout [(4, s.freeWords)]

/-- CMD_SYNC_MAP MAP (R179): the range is mapped to free words, each set to 0. -/
def execSyncMap (h : CmdHdr) (first count : Nat) (counter saturate : Bool) (s : State) : Out :=
  runCmd { opcode := 0x0301, hub := false, iss := .ctx } h s fun s => syncBody h s fun s =>
    if !rangeOk first count || (vidsOf first count).any (fun v => (s.tr h.slot v).valid) || decide (s.freeWords < count) then .err s .range
    else
      let ps := pickFree s.usedWords 65536 count 0
      let s1 := ((vidsOf first count).zip ps).foldl (fun s vp =>
        (s.setTr h.slot vp.1 { valid := true, phys := vp.2, counter := counter, saturate := saturate && !counter }).setWord vp.2 0) s
      .ok s1 (freeOut s1)

/-- Look again at the head and armed entries of every queue of a slot (R162). -/
def State.recheckQueues (s : State) (c : Nat) : State :=
  (List.range 16).foldl (fun s q => if (s.queue q).owner.isSome && (s.queue q).slot == c then s.dkRecheck q else s) s

/-- CMD_SYNC_MAP UNMAP: the range returns to the free pool, and Docket entries that name it fail (R162). -/
def execSyncUnmap (h : CmdHdr) (first count : Nat) (s : State) : Out :=
  runCmd { opcode := 0x0301, hub := false, iss := .ctx } h s fun s => syncBody h s fun s =>
    if !rangeOk first count || (vidsOf first count).any (fun v => !(s.tr h.slot v).valid || (s.tr h.slot v).role != 0) then .err s .range
    else
      let s1 := (vidsOf first count).foldl (fun s v => s.setTr h.slot v {}) s
      let s2 := s1.recheckQueues h.slot
      .ok s2 (freeOut s2)

/-- A translation entry as a result, its fields in the order of Table 7.1 under R463 (DEDUCED, log 24). -/
def entryOut (e : TrEntry) : List (Nat × Nat) :=
  [(1, b2n e.valid), (2, e.phys), (1, b2n e.counter), (1, b2n e.saturate), (1, b2n e.sat), (1, e.role), (2, e.partner), (4, e.limit)]

/-- CMD_SYNC_MAP READ: the translation entries of a range, and the free physical words. -/
def execSyncMapRead (h : CmdHdr) (first count : Nat) (s : State) : Out :=
  runCmd { opcode := 0x0301, hub := false, iss := .ctx, read := true } h s fun s => syncBody h s fun s =>
    if !rangeOk first count then .err s .range
    else .ok s (layout ((vidsOf first count).flatMap (fun v => entryOut (s.tr h.slot v)) ++ [(4, s.freeWords)]))

/-- CMD_SYNC_MAP SET_MODE: KIND and BOUND of a range; a waiter on such a word compares under its new kind (R186). -/
def execSyncSetMode (h : CmdHdr) (first count : Nat) (counter saturate : Bool) (s : State) : Out :=
  runCmd { opcode := 0x0301, hub := false, iss := .ctx } h s fun s => syncBody h s fun s =>
    if !rangeOk first count || (vidsOf first count).any (fun v => !(s.tr h.slot v).valid || (s.tr h.slot v).role != 0) then .err s .range
    else
      let s1 := (vidsOf first count).foldl (fun s v =>
        let e := s.tr h.slot v
        let s0 := s.setTr h.slot v { e with counter := counter, saturate := saturate && !counter }
        (List.range 64).foldl (fun s w =>
          if (s.waiter w).state ≠ 0 ∧ (s.waiter w).phys = e.phys then s.modWaiter w (fun x => { x with counter := counter }) else s) s0) s
      let s2 := (vidsOf first count).foldl (fun s v => let p := (s.tr h.slot v).phys; (s.wake p).arrivals h.slot p) s1
      .ok s2 (freeOut s2)

/-- CMD_SYNC_PAIR DEFINE (R185): two different counter words of one context become producer and consumer, both 0. -/
def execSyncPairDefine (h : CmdHdr) (producer consumer n : Nat) (s : State) : Out :=
  runCmd { opcode := 0x0302, hub := false, iss := .ctx } h s fun s => syncBody h s fun s =>
    let p := s.tr h.slot producer
    let c := s.tr h.slot consumer
    if 4096 ≤ producer ∨ 4096 ≤ consumer ∨ producer = consumer ∨ n = 0 ∨ 0x7FFFFFFF < n ∨ p.valid = false ∨ c.valid = false ∨
        p.counter = false ∨ c.counter = false ∨ p.role ≠ 0 ∨ c.role ≠ 0 then .err s .range
    else
      let s1 := s.setTr h.slot producer { p with role := 1, partner := consumer, limit := n }
      let s2 := s1.setTr h.slot consumer { c with role := 2, partner := producer, limit := n }
      .ok ((s2.store h.slot p.phys 0).store h.slot c.phys 0) []

/-- CMD_SYNC_PAIR DELETE: the two words are no pair any more. -/
def execSyncPairDelete (h : CmdHdr) (producer consumer : Nat) (s : State) : Out :=
  runCmd { opcode := 0x0302, hub := false, iss := .ctx } h s fun s => syncBody h s fun s =>
    let p := s.tr h.slot producer
    let c := s.tr h.slot consumer
    if 4096 ≤ producer ∨ 4096 ≤ consumer ∨ p.valid = false ∨ c.valid = false ∨ p.role ≠ 1 ∨ c.role ≠ 2 ∨ p.partner ≠ consumer then .err s .range
    else
      let s1 := s.setTr h.slot producer { p with role := 0, partner := 0, limit := 0 }
      .ok (s1.setTr h.slot consumer { c with role := 0, partner := 0, limit := 0 }) []

end Sys2Proof.Machine
end

