-- ==== Sys2Proof/Machine/Barrier.lean ====
section
/-! DEFINITION. Barriers (R197 to R205): definitions at Leaves and Hubs, arrivals, release strike times, releases. Delays are
in units of 2⁻⁸ ns. -/

set_option linter.unusedVariables false

namespace Sys2Proof.Machine

/-! ## Definitions -/

/-- The barrier that slot `c` defines under an ID in this Hub. -/
def State.hbar (s : State) (c id : Nat) : Option HBar := s.sync.hbars.get none (c * 64 + id)
/-- Write a barrier of a Hub. -/
def State.setHbar (s : State) (c id : Nat) (b : Option HBar) : State :=
  { s with sync := { s.sync with hbars := s.sync.hbars.set none (c * 64 + id) b } }

/-- The barriers defined at this Hub. -/
def State.hbarCount (s : State) : Nat := (s.sync.hbars.filter (fun e => e.2.isSome)).length

/-- How many children the block may have (R19, R23, R544): the count that the configuration image permits, at most the down ports at tier 1 and the
down ports ÷ 4k above it (Table 1.2). -/
def State.children (s : State) : Nat :=
  min s.boot.cfg.children (if s.tier ≤ 1 then s.params.downPorts else s.params.downPorts / (4 * max 1 s.boot.cfg.kGroups))

/-- The ranges of Table 7.4. -/
def barDefOk (d : BarrierDef) : Bool :=
  decide (d.id < 64) && decide (1 ≤ d.spanTier) && decide (d.spanTier ≤ 3) && decide (d.arriveId < 4096) && decide (d.releaseId < 4096) &&
    decide (1 ≤ d.step) && decide (d.step ≤ 65535) && decide (16 ≤ d.margin) && decide (d.margin ≤ 1000000)

/-- The children of a mask. -/
def maskKids (m : Nat) : List Nat := bitsOf m 256

/-- Whether a mask names children of this span pair on which the context is open, and at least one (R197, R32). -/
def State.maskOk (s : State) (c m : Nat) : Bool :=
  decide (m ≠ 0) && decide (m < 2 ^ s.children) && subList (maskKids m) (s.slot c).ports

/-- The children that take part in an operation of a context with the given span tier and mask (R197). -/
def State.kidsOf (s : State) (c span m : Nat) : List Nat := if span = s.tier then maskKids m else (s.slot c).ports

/-- The acceptance of a definition at a Hub that takes part: the checks of R197 in the order of R546. -/
def State.hubDefBar (s : State) (c g : Nat) (d : BarrierDef) : Except St State :=
  if !barDefOk d || (d.spanTier == s.tier && !s.maskOk c d.mask) then .error .range
  else if !(s.slot c).open_ || decide ((s.slot c).lastGen ≠ g) then .error .genWrap
  else if (s.hbar c d.id).isSome then .error .conflict
  else if (s.slot c).clearing || decide (1024 ≤ s.hbarCount) then .error .busy
  else .ok (s.setHbar c d.id (some { d := d, gen := g }))

/-- Whether a virtual ID of a slot is a mapped counter. -/
def State.isCounter (s : State) (c vid : Nat) : Bool := (s.tr c vid).valid && (s.tr c vid).counter

/-- The acceptance of a definition at a Leaf (R197, R198): ARRIVE_ID is read as a0 and instance 0 comes next. -/
def State.leafDefBar (s : State) (c g : Nat) (d : BarrierDef) : Except St State :=
  if !(s.slot c).open_ || decide ((s.slot c).lastGen ≠ g) then .error .genWrap
  else if (s.lbar c d.id).isSome || !s.isCounter c d.arriveId || !s.isCounter c d.releaseId then .error .conflict
  else if (s.slot c).clearing then .error .busy
  else .ok (s.setLbar c d.id (some { d := d, gen := g, a0 := s.word (s.tr c d.arriveId).phys }))

/-! ## Release strike times (R199, R200) -/

/-- The delay from parent to child of a port (R138). -/
def PortSt.downDelay (o : PortSt) : Int := o.rtt / 2 + o.asym

/-- The largest delay from parent to child among this Hub's own down ports toward a child (R149, R200): above tier 1 those toward the child's serving Hub,
which is the one whose flits carry PRIMARY; while none does, those toward both. -/
def State.kidDelay (s : State) (k : Nat) : Int :=
  let l := s.childPorts k
  let m := l.filter (fun p => (s.port p).peerPrimary)
  let e := m.foldl (fun e p => if newerEpoch (s.port p).peerEpoch e then (s.port p).peerEpoch else e) 0
  let q := if s.tier ≤ 1 then none else (m.find? (fun p => (s.port p).peerEpoch == e)).bind (fun p => (s.port p).peer)
  (match q with
   | none => l
   | some i => l.filter (fun p => match (s.port p).peer with | some j => j.pos == i.pos | none => false)).foldl (fun m p => max m (s.port p).downDelay) 0

/-- D of this pair for an instance (R200): at tier 1 the largest delay toward the participating Leaves, above it the largest
of each child's delay, 60 ns and its D. -/
def State.barD (s : State) (kids : List Nat) (i : HInst) : Int :=
  if s.tier ≤ 1 then kids.foldl (fun m k => max m (s.kidDelay k)) 0
  else kids.foldl (fun m k => max m (s.kidDelay k + 60 * 256 + ((i.ds.get 0 k : Nat) : Int))) 0

/-- S (R200): H + D + MARGIN, rounded up to the next multiple of 4 ns. -/
def strikeS (h : HT) (d : Int) (margin : Nat) : HT := roundUp (((h : Int) * 256 + d + (margin : Int) * 256 + 255) / 256).toNat 4

/-- The ports on which a Hub hands a message to a child's pair: above tier 1 one toward each Hub of it. -/
def State.bothPorts (s : State) (k : Nat) : List Nat :=
  let l := s.childPorts k
  if s.tier ≤ 1 then l
  else
    let n := l.length / 2
    [l.take n, l.drop n].filterMap (fun g => g.find? (fun p => (s.port p).up))

/-- Send a release to the participants (R201). -/
def State.releaseDown (s : State) (c : Nat) (b : HBar) (n : Nat) (strike : HT) : State :=
  s.sendAll ((s.kidsOf c b.d.spanTier b.d.mask).flatMap s.bothPorts) (.release c b.gen b.d.id n strike)

/-- The instance numbered `n` of a barrier at a Hub. -/
def HBar.inst (b : HBar) (n : Nat) : HInst := (b.insts.find? (fun i => i.n == n)).getD { n := n }
/-- Write it. Instances before the one preceding it are forgotten. -/
def HBar.setInst (b : HBar) (i : HInst) : HBar :=
  { b with insts := b.insts.filter (fun x => x.n != i.n && decide (i.n ≤ x.n + 1)) ++ [i] }

/-- An instance has its release strike time; at the span pair it counts as completed, in the mirror too (R205). -/
def HBar.takeRelease (b : HBar) (i : HInst) (strike : HT) (span : Bool) : HBar :=
  { (b.setInst { i with s := some strike, forwarded := true }) with completed := (b.completed + b2n span) % 2 ^ 32 }

/-- What completes an instance at the serving Hub of a pair once every child of its mask has arrived (R199 to R201): the span
pair records H, sets S and sends the release; a pair below forwards its pair arrival with D. -/
def State.completeInst (s : State) (c id n : Nat) : State :=
  match s.hbar c id with
  | none => s
  | some b =>
    let i := b.inst n
    let kids := s.kidsOf c b.d.spanTier b.d.mask
    if !s.isPrimary || i.forwarded || !subList kids i.arrived then s
    else
      let d := s.barD kids i
      if b.d.spanTier = s.tier then
        let h := i.h.getD s.htNs
        let strike := i.s.getD (strikeS h d b.d.margin)
        let s0 := s.setHbar c id (some (b.takeRelease { i with h := some h } strike true))
        let s1 := { s0 with sync := { s0.sync with completed := (s0.sync.completed + 1) % 65536 } }
        let s2 := ((s1.mirror (.barrierH c b.gen id n h)).mirror (.barrierRelease c b.gen id n strike)).releaseDown c b n strike
        s2.sendChord (.release c b.gen id n strike)
      else
        (s.setHbar c id (some (b.setInst { i with forwarded := true }))).sendUp (.arrival c b.gen id n (some d.toNat))

/-- R199: an arrival from a Leaf or a pair arrival with its D. -/
def execBarrierArrivalReceive (l : Link) (slot gen id inst : Nat) (pairD : Option Nat) (s : State) : Out :=
  s.received l 1 fun s =>
    let port := l.port
    if !s.params.isDown port || !(s.port port).up then .next s
    else if !s.openCtx slot gen then .next s.countStale
    else
      match s.hbar slot id with
      | none => .next s
      | some b =>
        let k := s.portChild port
        let i := b.inst inst
        if !(s.kidsOf slot b.d.spanTier b.d.mask).contains k then .next s
        else
          let s1 := s.setHbar slot id (some (b.setInst { i with arrived := addNew i.arrived k, ds := i.ds.set 0 k (pairD.getD 0) }))
          .next ((s1.mirror (.barrierArrival slot gen id inst k pairD)).completeInst slot id inst)

/-! ## Releases -/

/-- A release is late at a Leaf (R203): LATE, the record of R539 and the context's interrupt bit. -/
def State.lateRelease (s : State) (c g id n : Nat) (strike : HT) (port : Nat) : State :=
  ({ s with sync := { s.sync with late := true } }.record
    { event := 0x0400, unit := s.portUnit port, slot := c, gen := g
      syn := le 2 id ++ le 4 n ++ le 2 0 ++ le 4 (satN 0xFFFFFFFF (s.htNs + 4 - strike)) ++ le 4 strike }).ctxIrq c 3

/-- A release reaches a Leaf (R201 to R203, Table 7.5): the first copy of an instance enters the release table; a later copy
with another S sets SPLIT. -/
def State.leafRelease (s : State) (port c g id n : Nat) (strike : HT) : State :=
  match s.lbar c id with
  | none => s
  | some b =>
    if b.lastInst = some n then
      if b.lastS = strike then s
      else
        ({ s with sync := { s.sync with split := true } }.record
          { event := 0x0401, unit := s.portUnit port, slot := c, gen := g
            syn := le 2 id ++ le 4 n ++ le 2 0 ++ le 4 b.lastS ++ le 4 strike }).ctxIrq c 3
    else if (match b.lastInst with | some m => decide (n < m) | none => false) then s
    else
      let late := decide (strike < s.htNs + 4)
      let s1 := s.setLbar c id (some { b with lastInst := some n, lastS := strike })
      let s2 := { s1 with sync := { s1.sync with rels := s1.sync.rels ++
        [({ slot := c, gen := g, id := id, inst := n, s := strike, fireAt := if late then s.htNs + 1 else strike, port := port, rid := b.d.releaseId
            launch := b.d.launch } : Rel)] } }
      if late then s2.lateRelease c g id n strike port else s2

/-- The pending releases are checked again at the tick of a commanded step (Table 7.5): one that is now late fires on the next tick (R203). -/
def State.lateRels (s : State) : State :=
  let late (r : Rel) : Bool := decide (r.s < s.htNs + 4)
  let s1 := { s with sync := { s.sync with rels := s.sync.rels.map (fun r => if late r then { r with fireAt := s.htNs + 1 } else { r with fireAt := r.s }) } }
  (s.sync.rels.filter (fun r => late r && r.fireAt == r.s)).foldl (fun s r => s.lateRelease r.slot r.gen r.id r.inst r.s r.port) s1

/-- A release reaches a Hub from above or from its partner (R201): it is sent down once. -/
def State.hubRelease (s : State) (c id n : Nat) (strike : HT) : State :=
  match s.hbar c id with
  | none => s
  | some b =>
    let i := b.inst n
    if i.s.isSome then s
    else (s.setHbar c id (some (b.takeRelease i strike (b.d.spanTier == s.tier)))).releaseDown c b n strike

/-- R201, R202: a release arrives on a port. -/
def execBarrierReleaseReceive (l : Link) (slot gen id inst : Nat) (strike : HT) (s : State) : Out :=
  s.received l 1 fun s =>
    let port := l.port
    if !s.params.hasPort port || s.params.isDown port || !(s.port port).up then .next s
    else if !s.openCtx slot gen then .next s.countStale
    else if s.isHub then .next (s.hubRelease slot id inst strike)
    else .next (s.leafRelease port slot gen id inst strike)

/-- The Docket heads of a slot whose WAIT this addition of 1 to a word meets, with REL 0, take h from the release (R489). -/
def State.markHeads (s : State) (c rid : Nat) (strike : HT) : State :=
  let e := s.tr c rid
  (List.range 16).foldl (fun s q =>
    let d := s.queue q
    match d.entries with
    | x :: _ =>
      if d.owner.isSome && d.slot == c && x.armed.isNone && dkWait x.bits && !dkRel x.bits && dkWaitId x.bits == rid &&
          !meets e.counter (s.word e.phys) (dkThr x.bits) && meets e.counter (s.word e.phys + 1) (dkThr x.bits)
      then s.modQueue q (fun d => { d with relH := some strike }) else s
    | [] => s) s

/-- One release fires (R202): RELEASE_ID gains 1, the LAUNCH lines toggle, and the next arrival may leave (R198). -/
def State.fireRelease (s : State) (r : Rel) : State :=
  let s0 := s.markHeads r.slot r.rid r.s
  let s1 := if (s0.tr r.slot r.rid).valid then s0.signal r.slot r.rid 1 3 else s0.syncFail r.slot r.rid 3 .range
  let s2 := if r.launch = 0 then s1 else s1.launch r.launch
  match s2.lbar r.slot r.id with
  | some b => (s2.setLbar r.slot r.id (some { b with fired := max b.fired (r.inst + 1) })).arrive r.slot r.id
  | none => s2

/-- The earliest tick on which a release of the table fires: what comparator 0 holds. -/
def firstS : List Rel → Option HT
  | [] => none
  | r :: l => match firstS l with | some t => some (min r.fireAt t) | none => some r.fireAt

/-- R202, R203: comparator 0 fires: every release of its tick fires. -/
def execBarrierReleaseFire (s : State) : Out :=
  match firstS s.sync.rels with
  | none => .next s
  | some t =>
    if s.isHub || !s.time.valid || decide (s.htNs < t) then .next s
    else
      let now := s.sync.rels.filter (fun r => r.fireAt == t)
      let s1 := { s with sync := { s.sync with rels := s.sync.rels.filter (fun r => r.fireAt != t) } }
      .next (now.foldl State.fireRelease s1)

/-! ## Deletion (R205) -/

/-- Whether an instance of a barrier is open at the span pair's serving Hub. -/
def State.instOpen (s : State) (b : HBar) : Bool :=
  b.insts.any (fun i => !i.arrived.isEmpty && (match i.s with | some t => decide (s.htNs < t) | none => true))

/-- Remove a barrier at this Hub and at its other Hub, and order its removal below. -/
def State.hubDelBar (s : State) (c id : Nat) : State :=
  match s.hbar c id with
  | none => s
  | some b =>
    let s1 := (s.setHbar c id none).mirror (.barrierUndef c b.gen id)
    let s2 := s1.sendKids (s.kidsOf c b.d.spanTier b.d.mask) (.distribute s.scriv.nextDist (.barrierDelete c b.gen id))
    { s2 with scriv := { s2.scriv with nextDist := s2.scriv.nextDist + 1 } }

/-- CMD_BARRIER_DELETE (R205). -/
def execCmdBarrierDelete (h : CmdHdr) (id : Nat) (s : State) : Out :=
  runCmd { opcode := 0x0304, leaf := false, iss := .ctx, span := true, mirrored := true } h s fun s =>
    match s.hbar h.slot id with
    | none => .err s .range
    | some b =>
      if 64 ≤ id ∨ b.d.spanTier ≠ s.tier then .err s .range
      else if s.instOpen b then .err s .busy
      else .ok (s.hubDelBar h.slot id) (layout [(4, b.completed)])

end Sys2Proof.Machine
end

