-- ==== Sys2Proof/Machine/JournalOps.lean ====
section
/-! DEFINITION. The journal: the symbol code and its decoder (R346 to R348), and its pages (R345, R351, R355, R356): where a page lies,
which pages may be allocated, quotas. -/

set_option linter.unusedVariables false

namespace Sys2Proof.Machine

/-! ## The symbol code (R346) -/

/-- A symbol of the code: an element of GF(2⁸). -/
abbrev Sym := BitVec 8

/-- Times α = 0x02, modulo the field polynomial 0x11D. -/
def gfDouble (a : Sym) : Sym := (a <<< 1) ^^^ (if a.msb then 0x1D#8 else 0#8)

/-- The product of two field elements. -/
def gfMul (a b : Sym) : Sym := (List.range 8).foldr (fun i r => gfDouble r ^^^ (if b.getLsbD i then a else 0#8)) 0#8

/-- The power αⁿ. -/
def gfAlpha : Nat → Sym
  | 0 => 1#8
  | n + 1 => gfDouble (gfAlpha n)

/-- The generator (x − α⁰)(x − α¹)(x − α²)(x − α³): its coefficients, that of x⁴ first. -/
def rsGen : List Sym :=
  (List.range 4).foldl (fun g i => List.zipWith (· ^^^ ·) (g ++ [0#8]) (0#8 :: g.map (gfMul (gfAlpha i)))) [1#8]

/-- The check symbols 0 to 3 of 16 data symbols: the remainder of the data times x⁴ by the generator. Symbol position 0 is the
coefficient of x¹⁹ and check symbol 0 that of x³ (DEDUCED, log 101). -/
def rsCheck (data : List Sym) : List Sym :=
  data.foldl (fun r d =>
    let f := d ^^^ r.headD 0#8
    List.zipWith (· ^^^ ·) (r.drop 1 ++ [0#8]) ((rsGen.drop 1).map (gfMul f))) (List.replicate 4 0#8)

/-- A codeword: 16 data symbols and 4 check symbols. -/
def rsEncode (data : List Sym) : List Sym := data ++ rsCheck data

/-- Syndrome `i` of a word of 20 symbols: its value at αⁱ. -/
def rsSyn (w : List Sym) (i : Nat) : Sym := w.foldl (fun r c => gfMul r (gfAlpha i) ^^^ c) 0#8

/-- The device that holds a symbol position (Table 14.1). -/
def symDev (p : Nat) : Nat := if p < 8 then p else if p < 16 then p + 2 else if p < 18 then p - 8 else p

/-- The symbol position that a device holds (Table 14.1). -/
def devPos (d : Nat) : Nat := if d < 8 then d else if d < 10 then d + 8 else if d < 18 then d - 2 else d

/-- Codeword `j` of the 128 bytes of an access: data bytes 16j to 16j + 15 and their check symbols. -/
def accessCw (data : List Byte) (j : Nat) : List Sym := rsEncode ((data.drop (16 * j)).take 16)

/-- The four bits that a device holds in a beat of an access (R346): beat 2j carries bits [3:0] of its symbol of codeword j, beat 2j + 1
bits [7:4]. -/
def devBeat (data : List Byte) (d beat : Nat) : BitVec 4 :=
  ((accessCw data (beat / 2)).getD (devPos d) 0#8).extractLsb' (4 * (beat % 2)) 4

/-! ## The decoder (R347, R348) -/

/-- What the decoder makes of one codeword: no error, an error that it corrects, with the devices whose symbols it corrects, or an
error that it cannot correct. -/
inductive CwOut where
  | clean
  | fixed (devs : List Nat)
  | bad
deriving DecidableEq, Repr

/-- The syndromes of codeword `j` of an access: those of its wrong bits alone, the code being linear. -/
def cwSyns (e : JournalErr) (j : Nat) : List Sym :=
  let w := (List.range 20).map (fun p => (e.errs.filter (fun x => x.cw == j && x.dev == symDev p)).foldl (fun v x => v ^^^ x.bits) 0#8)
  (List.range 4).map (rsSyn w)

/-- The position whose single wrong symbol explains a run of syndromes: each is the one before it times the position's locator. -/
def rsLocate (syn : List Sym) (avoid : Option Nat) : Option Nat :=
  (List.range 20).find? (fun p => avoid != some p && syn.headD 0#8 != 0#8 &&
    (List.zip syn (syn.drop 1)).all (fun t => t.2 == gfMul t.1 (gfAlpha (19 - p))))

/-- Decode one codeword (R347). With a marked device its symbol is an erasure (R348): its part is taken out of the syndromes, and
what is left must be one further symbol or nothing. -/
def decodeCw (mark : Option Nat) (syn : List Sym) : CwOut :=
  if syn.all (· == 0#8) then .clean
  else
    match mark with
    | none => match rsLocate syn none with
      | some p => .fixed [symDev p]
      | none => .bad
    | some m =>
      let rest := (List.zip syn (syn.drop 1)).map (fun t => t.2 ^^^ gfMul t.1 (gfAlpha (19 - devPos m)))
      if rest.all (· == 0#8) then .fixed [m]
      else match rsLocate rest (some (devPos m)) with
        | some p => .fixed (if rsLocate syn none = some p then [symDev p] else [m, symDev p])
        | none => .bad

/-- The outcomes of the eight codewords of an access. -/
def decodeCws (mark : Option Nat) (e : JournalErr) : List CwOut := (List.range 8).map (fun j => decodeCw mark (cwSyns e j))

/-- The devices that the corrections of an access name. -/
def namedDevs (mark : Option Nat) (e : JournalErr) : List Nat :=
  ((decodeCws mark e).flatMap (fun o => match o with | .fixed ds => ds | _ => [])).eraseDups

/-- The devices beside the marked one that an access names, or `none` when it is uncorrectable: a codeword cannot be corrected, or two
name different devices (R347, R348). -/
def decodeAcc (mark : Option Nat) (e : JournalErr) : Option (List Nat) :=
  let d := (namedDevs mark e).filter (fun x => mark != some x)
  if (decodeCws mark e).any (· == .bad) || decide (1 < d.length) then none else some d

/-- The mask of the codewords of an access that had an error. -/
def cwMask (e : JournalErr) : Nat :=
  (List.range 8).foldl (fun m j => if (cwSyns e j).all (· == 0#8) then m else m ||| 2 ^ j) 0

/-! ## Pages -/

/-- Pages of one channel (R345). -/
def chanPages : Nat := 8388608

/-- The number of journal pages. -/
def State.pageCount (s : State) : Nat := chanPages * s.params.channels

/-- The channel of a page (R345). -/
def State.pageChan (s : State) (p : Nat) : Nat := p % max 1 s.params.channels
/-- The channel page of a page. -/
def State.chanPage (s : State) (p : Nat) : Nat := p / max 1 s.params.channels
/-- The bank of a page. -/
def State.pageBank (s : State) (p : Nat) : Nat := s.chanPage p % 32

/-- Whether a page is retired: singly or with its bank (R355). -/
def State.isRetired (s : State) (p : Nat) : Bool :=
  s.jm.retired.contains p || s.jm.banks.contains (s.pageChan p, s.pageBank p)

/-- The state of a page (R351): failed with its channel, retired, or as held. -/
def State.pageState (s : State) (p : Nat) : PageState :=
  if (s.chan (s.pageChan p)).failed then .failed
  else if s.isRetired p then .retired
  else (s.jpage p).state

/-- Whether a page may be allocated: it exists, is free and is not the test page of its channel (R345). -/
def State.pageFree (s : State) (p : Nat) : Bool :=
  decide (p < s.pageCount) && decide (s.chanPage p ≠ chanPages - 1) && decide (s.pageState p = .free)

/-- The pages in use by a use of Table 14.4. -/
def State.pagesOf (s : State) (use : Nat) : List Nat :=
  (s.jm.pages.filter (fun e => decide (e.2.state = .inUse use))).map (·.1)

/-- The retired pages of a channel beside its test page, which lies in bank 31 (R345, R355): its retired banks and the pages that are
retired singly outside them. -/
def State.retiredCount (s : State) (c : Nat) : Nat :=
  let banks := s.jm.banks.filter (fun b => b.1 == c)
  let single := s.jm.retired.filter (fun p => s.pageChan p == c && s.chanPage p != chanPages - 1 && !banks.contains (c, s.pageBank p))
  (banks.map (fun b => if b.2 = 31 then 262143 else 262144)).sum + single.length

/-- Pages that can be used: those of channels that have not failed, less test pages and retirements (R354 to R356). -/
def State.usablePages (s : State) : Nat :=
  (((List.range s.params.channels).filter (fun c => !(s.chan c).failed)).map (fun c => chanPages - 1 - s.retiredCount c)).sum

/-- Free pages (HB_JM_FREE). -/
def State.freePages' (s : State) : Nat :=
  s.usablePages - (s.jm.pages.filter (fun e => match s.pageState e.1 with | .inUse _ => true | _ => false)).length

/-- The quota of a use (R356): the straggler quota and then the staging quota are cut when too few pages are usable. -/
def State.quotaOf (s : State) (use : Nat) : Nat :=
  let c := s.boot.cfg
  let sum := c.quotaSpill + c.quotaSave + c.quotaStage + c.quotaArchive
  let cut := sum - s.usablePages
  match use with
  | 0 => c.quotaSpill - cut
  | 1 => c.quotaSave
  | 2 => c.quotaStage - (cut - c.quotaSpill)
  | 3 => c.quotaArchive
  | _ => s.usablePages

/-- Set QUOTA_CUT when the usable pages have fallen below the sum of the quotas (R356). -/
def State.checkQuota (s : State) : State :=
  let c := s.boot.cfg
  if s.usablePages < c.quotaSpill + c.quotaSave + c.quotaStage + c.quotaArchive then { s with jm := { s.jm with quotaCut := true } } else s

/-- The `n` lowest-numbered pages that may be allocated, from `p` on; `none` where the search ends without them. -/
def State.findPages (s : State) : Nat → Nat → Nat → Option (List Nat)
  | _, 0, _ => some []
  | 0, _ + 1, _ => none
  | fuel + 1, n + 1, p =>
    if s.pageFree p then (s.findPages fuel n (p + 1)).map (p :: ·) else s.findPages fuel (n + 1) (p + 1)

/-- The IV under which a pane image is encrypted (R436): the 32-bit number of its page, then the 64-bit write count. -/
def jnlIv (page count : Nat) : Nat := page % 2 ^ 32 * 2 ^ 64 + count % 2 ^ 64

/-- A pane image of an ENC context is written from a page on: it takes the next write count, which never repeats until block reset (R436). -/
def State.sealPage (s : State) (p : Nat) : State :=
  let t := s.modPage p (fun x => { x with count := some s.sec.jnlCount })
  { t with sec := { t.sec with jnlCount := t.sec.jnlCount + 1 } }

/-- The first page of each pane image among pages taken for them: an image takes 3 (R267). -/
def imageStarts : List Nat → List Nat
  | p :: _ :: _ :: r => p :: imageStarts r
  | p :: _ => [p]
  | [] => []

/-- What journal memory holds of a pane image that begins on a page (R436): the image's bytes and bytes 48 to 63 of its trailer. Of an ENC context
they are the ciphertext under K_jnl, the write count and the 64-bit tag; of another the image itself, and zeros. -/
def State.storedImage (s : State) (page : Nat) (image : List Byte) : List Byte × List Byte :=
  match (s.jpage page).count with
  | some n =>
    let iv := jnlIv page n
    (Config.gcmCipher s.sec.kJnl iv image, le 8 n ++ le 8 (Config.gcmTag s.sec.kJnl iv image))
  | none => (image, List.replicate 16 0)

/-- Take `n` pages for a use, within its quota (R356): they are written and valid (R351). The journal must be ready (R354). `enc` says
whether what is written is encrypted (R436). -/
def State.takePages (s : State) (use n : Nat) (enc : Bool) : Option (State × List Nat) :=
  if !s.jm.ready || decide (s.quotaOf use < (s.pagesOf use).length + n) || decide (s.freePages' < n) then none
  else
    match s.findPages ((s.jm.pages.length + n + 64) * 400) n 0 with
    | none => none
    | some ps =>
      let t := ps.foldl (fun s p => s.modPage p (fun _ => { state := .inUse use, valid := true, poison := false })) s
      some (if enc then (imageStarts ps).foldl State.sealPage t else t, ps)

/-- The page-state SRAM answers for a page (R352): a single error is corrected; a double error sets the valid bits of the 64 pages of
its word to 1 and writes event 0x0608. Log 101 says which 64 pages share a word. -/
def State.pageSram (s : State) (page : Nat) (x : SecDed) : State :=
  match x with
  | .double =>
    let ps := ((List.range 64).map (fun i => page / 64 * 64 + i)).filter (fun p => decide (p < s.pageCount))
    (ps.foldl (fun s p => s.modPage p (fun q => { q with valid := true })) s).record
      { event := 0x0608, unit := 0x4000 + s.pageChan page, sub := 0xFFFF, syn := le 4 page ++ le 1 0 ++ le 1 0 ++ le 1 0xFF }
  | _ => s

/-- Return pages to the free list with their valid bits cleared (R351). -/
def State.releasePages (s : State) (ps : List Nat) : State :=
  ps.foldl (fun s p => match (s.jpage p).state with
    | .inUse _ => s.modPage p (fun _ => {})
    | _ => s) s

end Sys2Proof.Machine
end

