-- ==== Sys2Proof/Machine/Sched.lean ====
section
/-! DEFINITION. Start-time fair queueing and shapers (R288 to R292), and the sending of chunks' streams upward (R262 to R264,
R293). Places are ports by number and 2000 for the collective sequencer. -/

set_option linter.unusedVariables false

namespace Sys2Proof.Machine

/-! ## Start-time fair queueing (R288) -/

/-- Serial order of tags: a before b. -/
def tagBefore (a b : Word) : Bool := (a - b).msb
/-- The later of two tags. -/
def tagMax (a b : Word) : Word := if tagBefore a b then b else a

/-- The tags of a slot's queue at a place. -/
def State.tag (s : State) (pl c : Nat) : WfqTag := s.sched.tags.get {} (pl * 256 + c)
/-- Write them. -/
def State.setTag (s : State) (pl c : Nat) (t : WfqTag) : State :=
  { s with sched := { s.sched with tags := s.sched.tags.set {} (pl * 256 + c) t } }

/-- The weight and shaper of a slot. -/
def State.shapeOf (s : State) (c : Nat) : ShapeSt := s.sched.shape.get {} c
/-- Change them. -/
def State.modShape (s : State) (c : Nat) (f : ShapeSt → ShapeSt) : State :=
  { s with sched := { s.sched with shape := s.sched.shape.set {} c (f (s.shapeOf c)) } }

/-- on_wake: a queue that was empty or ineligible now has work. -/
def State.wakeQueue (s : State) (pl c : Nat) : State :=
  let t := s.tag pl c
  let s1 := s.setTag pl c { t with s := tagMax (s.sched.virt.get 0 pl) t.f }
  { s1 with sched := { s1.sched with awake := addNew s1.sched.awake (pl * 256 + c) } }

/-- Bring the set of awake queues of a place to the slots that are backlogged and eligible: the new ones wake. No unit is
served between two picks, so that waking here is waking when the work came. -/
def State.awaken (s : State) (pl : Nat) (bl : List Nat) : State :=
  let s1 := (bl.filter (fun c => !s.sched.awake.contains (pl * 256 + c))).foldl (fun s c => s.wakeQueue pl c) s
  { s1 with sched := { s1.sched with awake := s1.sched.awake.filter (fun q => q / 256 != pl || bl.contains (q % 256)) } }

/-- The queue with the lowest s among the given slots, ties to the lowest slot. -/
def State.pickFrom (s : State) (pl : Nat) : List Nat → Option Nat
  | [] => none
  | c :: r =>
    match s.pickFrom pl r with
    | none => some c
    | some b =>
      let x := (s.tag pl c).s; let y := (s.tag pl b).s
      if tagBefore x y || (x == y && decide (c < b)) then some c else some b

/-- Serve one unit of a picked queue: v and the tags move on. -/
def State.served (s : State) (pl c : Nat) (still : Bool) : State :=
  let t := s.tag pl c
  let f : Word := t.s + BitVec.ofNat 32 (65536 / max 1 (s.shapeOf c).weight)
  let s1 := s.setTag pl c { s := if still then f else t.s, f := f }
  { s1 with sched := { s1.sched with virt := s1.sched.virt.set 0 pl t.s
                                     awake := if still then s1.sched.awake else s1.sched.awake.filter (fun q => q != pl * 256 + c) } }

/-- The queues and tags of a context are removed (R289). -/
def State.dropTags (s : State) (c : Nat) : State :=
  { s with sched := { s.sched with
    tags := s.sched.tags.filter (fun e => e.1 % 256 != c), awake := s.sched.awake.filter (fun q => q % 256 != c)
    shape := s.sched.shape.set {} c {} } }

/-! ## Shapers (R290 to R292) -/

/-- Whether a shaper permits a flit (R290, R291). -/
def ShapeSt.eligible (x : ShapeSt) : Bool := x.rate == 0 || decide (256 * 80 ≤ x.tokens80)

/-- A flit takes 256 bytes of tokens. -/
def ShapeSt.take (x : ShapeSt) : ShapeSt := if x.rate = 0 then x else { x with tokens80 := x.tokens80 - 256 * 80 }

/-! ## Ports upward (R22, R264) -/

/-- The index of this block among the contributors of its upper pair (R263): the Leaf index, or the child index of a pair, which
the peer's port number gives (Table 1.1). -/
def State.ownIndex (s : State) : Nat :=
  if !s.isHub then s.boot.leafIndex
  else match s.servingPorts with
    | p :: _ => match (s.port p).peer with | some i => i.port / (4 * max 1 s.boot.cfg.kUp) | none => 0
    | [] => 0

/-- The ports on which this contributor sends chunk `c` (R264): the Leaf's serving port, or the two ports of up-group c mod k
of a lower Hub. -/
def State.sendPorts (s : State) (c : Nat) : List Nat :=
  if !s.isHub then s.servingPorts.take 1
  else
    let l := s.servingPorts
    let half := s.params.upPorts / 2
    let u := (l.headD 0 - s.params.downPorts) / max 1 half
    let b := s.params.downPorts + half * u + 2 * (c % max 1 s.boot.cfg.kUp)
    let g := [b, b + 1].filter (fun p => l.contains p)
    if g.isEmpty then l.take 1 else g

/-- Hand messages to several ports in turn. -/
def State.sendTurn (s : State) (ports : List Nat) (l : List TxMsg) : State :=
  (l.zip (List.range l.length)).foldl (fun s m => match ports[m.2 % max 1 ports.length]? with | some p => s.send p m.1 | none => s) s

/-! ## CHUNK_SEND at a Leaf -/

/-- The chunk that a collective of a Leaf sends next: the first in rotated order that is not sent and is owed, when its stream
is ready, the window has room and no save stops it (R262, R263, R358, R359). -/
def State.leafNext (s : State) (x : LColl) : Option Nat :=
  if !x.running || dSpan x.desc == 0 then none
  else
    match (sendOrder (dChunks x.desc) x.w s.ownIndex).find? (fun n => !(x.chunk n).sent && !(x.chunk n).done &&
        (match x.owed with | some l => l.contains n | none => true)) with
    | none => none
    | some n =>
      let ch := x.chunk n
      if ch.stream.isSome && x.room && !x.stopped then some n else none

/-- CHUNK_SEND at a Leaf: the flits of the next chunk are handed to the serving port, whose slots they take in their turn; the chunk counts
as sent (log 22). -/
def State.leafChunkSend (s : State) (c h n : Nat) : State :=
  match s.lcoll c h with
  | none => s
  | some x =>
    if s.leafNext x ≠ some n ∨ s.openCtx c (dGen x.desc) = false ∨ (s.sendPorts n).isEmpty = true then s
    else
      let ch := x.chunk n
      let k : ChunkKey := { slot := c, gen := dGen x.desc, handle := h, inst := x.started - 1, chunk := n }
      (s.sendTurn (s.sendPorts n) (ch.flits.map (fun d => TxMsg.contribution k d))).modLcoll c h (fun x => { x with
        sent := x.sent + 1
        chunks := x.chunks.set {} n { ch with sent := true } })

/-- R291: a shaper has reached 256 bytes of tokens while its queue was held: the queue wakes at every port. -/
def execShaperEligible (slot : Nat) (s : State) : Out :=
  let x := s.shapeOf slot
  if !s.isHub && x.held && x.eligible then
    .next (([0, 1].filter (fun p => !s.sched.awake.contains (p * 256 + slot))).foldl (fun s p => s.wakeQueue p slot)
      (s.modShape slot (fun x => { x with held := false })))
  else .next s

end Sys2Proof.Machine
end

