-- ==== Sys2Proof/Machine/CollHub.lean ====
section
/-! DEFINITION. Collectives at a Hub (R264 to R275, R324 to R330, R541 to R543): plans, chunks and their states, mapping, spill
and reload, drains, the commit gate, replays and the fence of a tile. -/

set_option linter.unusedVariables false

namespace Sys2Proof.Machine

/-! ## Plans and chunks -/

/-- The collective planned at this Hub under a slot and handle. -/
def State.plan (s : State) (c h : Nat) : Option HPlan := s.coll.hub.get none (c * 512 + h)
/-- Write it. -/
def State.setPlan (s : State) (c h : Nat) (p : Option HPlan) : State :=
  { s with coll := { s.coll with hub := s.coll.hub.set none (c * 512 + h) p } }
/-- Change it, when it is planned. -/
def State.modPlan (s : State) (c h : Nat) (f : HPlan → HPlan) : State :=
  match s.plan c h with
  | some p => s.setPlan c h (some (f p))
  | none => s

/-- A chunk held here. -/
def State.hchunk (s : State) (k : ChunkKey) : Option HChunk := s.coll.chunks.find? (fun c => c.key == k)
/-- Write a chunk. -/
def State.setChunk (s : State) (c : HChunk) : State :=
  let l := if s.coll.chunks.any (fun x => x.key == c.key) then s.coll.chunks.map (fun x => if x.key == c.key then c else x)
    else s.coll.chunks ++ [c]
  { s with coll := { s.coll with chunks := l } }
/-- Forget a chunk: it is Retired (Table 10.5). -/
def State.delChunk (s : State) (k : ChunkKey) : State :=
  { s with coll := { s.coll with chunks := s.coll.chunks.filter (fun c => c.key != k) } }

/-- The plan that a chunk key names: open context, right generation, a chunk of the collective (R437). -/
def State.kplan (s : State) (k : ChunkKey) : Option HPlan :=
  match s.plan k.slot k.handle with
  | some p => if s.openCtx k.slot k.gen && dGen p.desc == k.gen && decide (k.chunk < dChunks p.desc) then some p else none
  | none => none

/-- SENT and COMMITTED of this pair as a contributor reach the partner (Table 17.2). -/
def State.mirrorCounts (s : State) (c h : Nat) : State :=
  match s.plan c h with
  | some p => s.mirror (.counters c (dGen p.desc) h 0 p.sent.toNat p.committed.toNat)
  | none => s

/-- The contributors below this Hub (R254). -/
def State.planKids (s : State) (d : BitVec 512) : List Nat := s.kidsOf (dSlot d) (dSpan d) (dMask d)
/-- Whether this pair is the span pair of a collective. -/
def State.spans (s : State) (d : BitVec 512) : Bool := dSpan d == s.tier
/-- Whether a contribution here is a partial (R261): above tier 1 always. -/
def State.wantsPartial (s : State) (d : BitVec 512) : Bool := decide (1 < s.tier) || dPartial d

/-- The key of a message with its instance formed under R543: against the newest instance that this block has seen of the handle, at a Leaf the one that
it started last. -/
def State.formKey (s : State) (k : ChunkKey) : ChunkKey :=
  if s.isHub then
    match s.plan k.slot k.handle with
    | some p => { k with inst := fullInst p.newest k.inst }
    | none => k
  else
    match s.lcoll k.slot k.handle with
    | some x => { k with inst := fullInst (x.started - 1) k.inst }
    | none => k

/-- A message names an instance: a newer one begins with no chunk done. -/
def State.seeInst (s : State) (k : ChunkKey) : State :=
  s.modPlan k.slot k.handle (fun p => if p.newest < k.inst then { p with newest := k.inst, done := [], ackd := 0, released := [] } else p)

/-- Whether an instance runs here (R276): it holds a chunk, or some of its chunks are done and not all. -/
def State.hubRunning (s : State) (p : HPlan) : Bool :=
  s.coll.chunks.any (fun c => c.key.slot == dSlot p.desc && c.key.handle == dHandle p.desc) ||
    (decide (p.ackd ≠ 0) && decide (p.ackd < dChunks p.desc))

/-- The contributing Leaves of a collective (R208, R254, R544): those of the mask at tier 1; above it those of the job below each child, as the child counted
them when it acknowledged the opening of the context. -/
def State.leavesOf (s : State) (d : BitVec 512) : Nat :=
  if s.tier ≤ 1 then (s.planKids d).length else ((s.planKids d).map ((s.slot (dSlot d)).leaves.get 0)).sum

/-- The staged set that an instance takes in as one more contribution (R360). -/
def State.stageOf (s : State) (p : HPlan) (inst : Nat) : Option Stage :=
  match p.stageIn with
  | some i => if p.stageInst = some inst then s.jm.stages.get none i.1 else none
  | none => none

/-- The contributions expected for a chunk (R260, R360). -/
def State.expected (s : State) (p : HPlan) (inst : Nat) : Nat :=
  (s.planKids p.desc).length + (if (s.stageOf p inst).isSome then 1 else 0)

/-! ## Hallmarks (R301 to R303, R307) -/

/-- A fenced-unit map (Table 13.3). -/
def mapBytes (tiles ports chord : Nat) : List Byte := le 8 tiles ++ le 36 ports ++ le 1 chord ++ List.replicate 19 0

/-- FMAP (R303, R332): the digest of the pair's map, position 0 first. -/
def State.fmap (s : State) : Nat :=
  let own := mapBytes s.flt.tilesMap s.flt.portsMap s.flt.chordMap
  let peer := mapBytes s.flt.peerTiles s.flt.peerPorts s.flt.peerChord
  Config.sha384 (if s.boot.cfg.pos = 0 then own ++ peer else peer ++ own)

/-- Manifest digest and LABEL of a context (R311), 0 without a registration. -/
def State.manifestOf (s : State) (c : Nat) : Nat × Nat :=
  (s.hm.manifests.findSome? (fun e => if e.1 / 256 = c then e.2 else none)).getD (0, 0)

/-- The Hallmark of a chunk (Table 12.2). -/
def State.hallmarkOf (s : State) (d : BitVec 512) (k : ChunkKey) (result : List Byte) (flags fw : Nat) : Nat :=
  let m := s.manifestOf k.slot
  Config.sha384 (le 4 1 ++ le 4 0x00030002 ++ le 4 fw ++ le 4 ((dStep d + k.inst) % 2 ^ 32) ++ le 8 m.2 ++ le 4 (k.chunk % 2 ^ 23) ++
    le 4 (dOpword d) ++ le 4 (dCount d) ++ List.replicate 12 0 ++ be 48 m.1 ++ be 48 (Config.sha384 (result ++ le 2 flags)) ++ be 48 s.fmap)

/-- The record of a Hallmark (Table 12.4). -/
def State.hmRec (s : State) (d : BitVec 512) (k : ChunkKey) (hm flags : Nat) : HmRec :=
  { hallmark := hm, label := (s.manifestOf k.slot).2, step := (dStep d + k.inst) % 2 ^ 32, chunk := k.chunk % 2 ^ 23, flags := flags, key := k }

/-- Add a record to the open batch (R306). -/
def State.addHm (s : State) (r : HmRec) : State :=
  { s with hm := { s.hm with batch := s.hm.batch ++ [r], firstHt := if s.hm.batch.isEmpty then s.htNs else s.hm.firstHt, lastHt := s.htNs } }

/-! ## Panes of a chunk -/

/-- Free the panes and journal pages that a chunk holds. -/
def State.chunkFree (s : State) (k : ChunkKey) (dirty : Bool) : State :=
  match s.hchunk k with
  | none => s
  | some c =>
    let s1 := s.dropPanes c.tile c.panes dirty
    let pg := s1.jm.spillPages.flatMap (fun e => if e.1 == k then e.2 else [])
    let s2 := { s1.releasePages pg with jm := { (s1.releasePages pg).jm with spillPages := s1.jm.spillPages.filter (fun e => e.1 != k) } }
    (s2.setChunk { c with panes := [], image := [] }).modTile c.tile (fun t => { t with idleSince := s.htNs })

/-- The chunks in state Open on a tile. -/
def State.openOn (s : State) (t : Nat) : List HChunk := s.coll.chunks.filter (fun c => decide (c.state = .open_) && c.tile == t)

/-- Load a chunk's images onto its panes (R219, R268): checksum word, count and elements; an uncorrectable read of a saved
chunk poisons them (R334). -/
def State.loadImage (s : State) (c : HChunk) (poison : Bool) : State :=
  (c.image.zip c.panes).foldl (fun s e => s.modPane c.tile e.2 (fun p =>
    { e.1 with owner := some c.key, dirty := false, reserved := p.reserved
               elems := if poison then (List.range 256).foldl (fun t i => t.set {} i (t.get {} i).poison) e.1.elems else e.1.elems })) s

/-- Whether a page reads as uncorrectable (R353, Table 14.5). -/
def State.pageBad (s : State) (p : Nat) : Bool := (s.jpage p).poison || decide (s.pageState p = .failed)

/-- The images of saved or staged chunk `j` of a list, with the panes whose pages are uncorrectable poisoned (R334): each pane
takes 3 pages, in order. -/
def State.imagesOf (s : State) (l : List SavedChunk) (pages : List Nat) (j : Nat) : List Pane :=
  let before := ((l.take j).map (fun c => c.panes.length)).sum
  match l[j]? with
  | none => []
  | some c => (c.panes.zip (List.range c.panes.length)).map (fun e =>
      if ((pages.drop (3 * (before + e.2))).take 3).any s.pageBad then
        { e.1 with elems := (List.range 256).foldl (fun t i => t.set {} i (t.get {} i).poison) e.1.elems }
      else e.1)

/-- The images of a chunk that comes from a saved state, as the journal returns them now (R359, Table 14.5). -/
def State.savedImage (s : State) (c : HChunk) : List Pane :=
  match (s.plan c.key.slot c.key.handle).bind (·.resumed) with
  | some id => match s.jm.saves.get none id with
    | some v => s.imagesOf v.chunks v.pages (v.chunks.findIdx (fun x => x.chunk == c.key.chunk))
    | none => c.image
  | none => c.image

/-- The staged images enter a chunk as one more contribution (R360). -/
def State.addStage (s : State) (k : ChunkKey) (p : HPlan) : State :=
  match s.stageOf p k.inst, s.hchunk k with
  | some st, some c =>
    let j := st.chunks.findIdx (fun x => x.chunk == k.chunk)
    let im := s.imagesOf st.chunks st.pages j
    let u := fun i e => let y := chunkElem im i
      ((Elem.combine e y.n y.flag, res y.n, 0) : Upd)
    (s.applyPanes c.tile c.panes (dElems p.desc k.chunk) (fun _ => false) u).1
  | _, _ => s

/-! ## Contributions (R264, R265, R228, R235) -/

/-- Whether a contributor's whole stream is sound (R228): its kind, its length, and its packed elements or LEDGER images. -/
def State.rxOk (s : State) (d : BitVec 512) (c : Nat) (r : RxBuf) : Bool :=
  r.part == s.wantsPartial d &&
    (if r.part then (readPartial d (dElems d c) r.bytes).isSome
     else decide (r.bytes.length = rawLen d c) && imagesOk d c r.bytes)

/-- Whether element `i` takes poison from a stream (R334, R541). -/
def rxBad (d : BitVec 512) (c : Nat) (r : RxBuf) (i : Nat) : Bool :=
  if r.part then (decide (dOp d = 2 ∨ dOp d = 3) && meetsBad r.bad (i * dWidth d) (dWidth d)) else rawElemBad d (dElems d c) r.bad i

/-- The update that a stream gives element `i`. -/
def rxUpd (d : BitVec 512) (c : Nat) (r : RxBuf) : Nat → Elem → Upd :=
  if r.part then partialUpd d ((readPartial d (dElems d c) r.bytes).getD []) else rawUpd d (dElems d c) r.aux r.bytes

/-- Apply the complete streams that wait for a chunk whose panes accept updates (R235, R386), and begin its drain once every
contribution has been counted (Table 10.5); and the first check of R221 that fails. -/
def State.applyRx (s : State) (k : ChunkKey) : State × Option TileCheck :=
  match s.hchunk k, s.kplan k with
  | some c, some p =>
    if !(decide (c.state = .open_) || decide (c.state = .replay)) || c.panes.isEmpty || !s.tileRuns c.tile || c.failCode.isSome then (s, none)
    else
      let d := p.desc
      let ne := dElems d k.chunk
      let ready := c.rx.filter (fun r => r.whole)
      let r := ready.foldl (fun (a : State × Nat × Option TileCheck) r =>
        let (t, g, x) := a.1.applyPanes c.tile c.panes ne (rxBad d k.chunk r) (rxUpd d k.chunk r)
        (if (List.range ne).any (rxBad d k.chunk r) then t.poisonEntered c.tile k else t, a.2.1 ||| g ||| r.flags, a.2.2.or x)) (s, 0, none)
      let arr := c.arrived ++ ready.map (·.child)
      (r.1.setChunk { c with rx := c.rx.filter (fun r => !r.whole), arrived := arr, cflags := c.cflags ||| r.2.1
                             lastUpd := if ready.isEmpty then c.lastUpd else s.htNs
                             state := if subList (s.planKids p.desc) arr then .draining else c.state }, r.2.2)
  | _, _ => (s, none)

/-! ## The end of a chunk (R270 to R273, R542, Table 10.5) -/

/-- The two ports of an up-group on which results of chunk `c` go to a child (R264), or the Leaf's port. -/
def State.resultPorts (s : State) (kid c : Nat) : List Nat :=
  if s.tier ≤ 1 then [kid]
  else
    let g := s.boot.cfg.kGroups
    let b := 4 * g * kid + 2 * g * ((s.childPort kid % (4 * g)) / (2 * g)) + 2 * (c % max 1 g)
    let l := [b, b + 1].filter (fun p => (s.port p).up)
    if l.isEmpty then [s.childPort kid] else l

/-- The result flits of a chunk and, on each port after them, its commit message (R270, R271). -/
def State.sendCommit (s : State) (kids : List Nat) (m : CommitMsg) (result : List Byte) : State :=
  kids.foldl (fun s kid =>
    let ps := s.resultPorts kid m.key.chunk
    let s1 := if m.code = .ok then s.sendTurn ps ((flitsOf false 0 [] result).map (fun d => TxMsg.result m.key d)) else s
    s1.sendAll ps (.commit m)) s

/-- A chunk is done for its instance: recorded for duplicates, saves and the end of the instance. -/
def State.noteDone (s : State) (k : ChunkKey) : State :=
  s.modPlan k.slot k.handle (fun p => if p.newest = k.inst then { p with done := addNew p.done k.chunk } else p)

/-- The span pair commits a gated chunk (R270, R306): its Hallmark enters the open batch, results and commit messages leave. -/
def State.commitChunk (s : State) (k : ChunkKey) : State :=
  match s.hchunk k, s.kplan k with
  | some c, some p =>
    match c.msg with
    | some m =>
      let s1 := (s.addHm (s.hmRec p.desc k m.hallmark m.flags)).setChunk { c with state := .committed, copyAcked := true }
      (s1.noteDone k).sendCommit (s.planKids p.desc) m c.result
    | none => s
  | _, _ => s

/-- What the end of an instance at a Hub brings, once every chunk is Retired: a staging OUT or IN of the instance completes and
its set is freed, and a resumed state is freed (R359, R360). -/
def State.instanceEnd (s : State) (c h : Nat) : State :=
  match s.plan c h with
  | none => s
  | some p =>
    if p.ackd < dChunks p.desc then s
    else
      let s1 := match p.resumed with
        | some id => match s.jm.saves.get none id with
          | some v => let t := s.releasePages v.pages
                      ({ t with jm := { t.jm with saves := t.jm.saves.set none id none } }.mirror (.save id none)).modPlan c h (fun p => { p with resumed := none })
          | none => s
        | none => s
      if p.stageInst ≠ some p.newest then s1
      else
        let s2 := match p.stageOut with
          | some (id, src) => complete (s1.mirror (.stage id (s1.jm.stages.get none id))) src 0x0505 .ok
              (layout [(4, ((s1.jm.stages.get none id).map (fun (x : Stage) => x.chunks.length)).getD 0)])
          | none => s1
        let s3 := match p.stageIn with
          | some (id, src) => match s2.jm.stages.get none id with
            | some x => let t := s2.releasePages x.pages
                        complete ({ t with jm := { t.jm with stages := t.jm.stages.set none id none } }.mirror (.stage id none)) src 0x0505 .ok (layout [(4, x.consumed.length)])
            | none => s2
          | none => s2
        s3.modPlan c h (fun p => { p with stageOut := none, stageIn := none, stageInst := none })

/-- A chunk is Retired (Table 10.5). -/
def State.retire (s : State) (k : ChunkKey) : State :=
  ((s.delChunk k).modPlan k.slot k.handle (fun p => if p.newest = k.inst then { p with ackd := p.ackd + 1 } else p)).instanceEnd k.slot k.handle

/-- Whether a lower pair's window has room for one more chunk (R262, R185). -/
def HPlan.room (p : HPlan) : Bool := decide ((p.sent - p.committed).toNat < p.w)

/-- The notice of a failed chunk goes up in place of a lower pair's partial, and counts as sent (R542). -/
def State.hubNoticeUp (s : State) (k : ChunkKey) (code : St) : State :=
  match s.hchunk k with
  | some c => ((s.setChunk { c with noticed := true }).modPlan k.slot k.handle (fun p => { p with sent := p.sent + 1 })).sendUp (.failNotice k code)
  | none => s

/-- A chunk has failed and every contributor has been heard (R542, R333): the span pair sends the commit message with the code,
retires the chunk, and terminates the context on ST_NO_SPARE; a pair below sends a notice upward once its window has room. -/
def State.failChunk (s : State) (k : ChunkKey) (code : St) : State :=
  match s.hchunk k, s.kplan k with
  | some c, some p =>
    let s1 := s.chunkFree k false
    let c1 := { c with state := .failed, panes := [], image := [], rx := [], failCode := some code, discard := [] }
    if s.spans p.desc then
      let m : CommitMsg := { key := k, code := code, flags := 0, resultBytes := 0, hallmark := 0 }
      let s2 := (((s1.setChunk { c1 with msg := some m }).noteDone k).sendCommit (s.planKids p.desc) m []).retire k
      if code = .noSpare then s2.terminate k.slot .noSpare else s2
    else
      let s2 := s1.setChunk c1
      if p.room then s2.hubNoticeUp k code else s2
  | _, _ => s

/-- The notices of a lower pair that wait leave while its window has room (R262). -/
def State.hubStuck (s : State) (c h : Nat) : State :=
  (s.coll.chunks.filter (fun x => x.key.slot == c && x.key.handle == h && decide (x.state = .failed) && !x.noticed)).foldl (fun s x =>
    match s.plan c h with
    | some p => if !s.spans p.desc && p.room then s.hubNoticeUp x.key (x.failCode.getD .noSpare) else s
    | none => s) s

/-- A failed chunk ends once each of its contributors has sent its contribution or a notice. -/
def State.checkFailed (s : State) (k : ChunkKey) : State :=
  match s.hchunk k, s.kplan k with
  | some c, some p =>
    match c.failCode with
    | some code => if decide (c.state ≠ .failed) && subList (s.planKids p.desc) (c.arrived ++ c.heard) then s.failChunk k code else s
    | none => s
  | _, _ => s

/-- A chunk that was Committed at a former primary and is held nowhere (R413): it fails with ST_NO_SPARE, and its context ends (R333). A lower
pair, whose chunk is Committed above, sends the notice that ends the context. -/
def State.lostCommit (s : State) (k : ChunkKey) : State :=
  match s.kplan k with
  | none => s
  | some p =>
    let s1 := s.seeInst k
    if s.spans p.desc then (s1.setChunk ((s1.hchunk k).getD { key := k })).failChunk k .noSpare
    else (((s1.chunkFree k false).delChunk k).noteDone k).sendUp (.failNotice k .noSpare)

/-- Whether a chunk is yet to be done here as far as this Hub knows: not of an older instance, not done, and not held past its reduction. -/
def State.undone (s : State) (p : HPlan) (k : ChunkKey) : Bool :=
  decide (p.newest ≤ k.inst) && !(p.newest == k.inst && p.done.contains k.chunk) &&
    (match s.hchunk k with
     | some c => decide (c.state ≠ .gated) && decide (c.state ≠ .forwarded) && decide (c.state ≠ .committed) && decide (c.state ≠ .failed)
     | none => true)

/-- A contributor tells a new primary that it has released a chunk (R413). When another has begun to send it again, the chunk was Committed and
not acknowledged by every receiver, and it is lost; until then it is noted. -/
def State.childReleased (s : State) (child : Nat) (k : ChunkKey) : State :=
  match s.kplan k with
  | none => s
  | some p =>
    if !(s.planKids p.desc).contains child || !s.undone p k then s
    else if (match s.hchunk k with | some c => !c.rx.isEmpty || !c.arrived.isEmpty || !c.heard.isEmpty | none => false) then s.lostCommit k
    else (s.seeInst k).modPlan k.slot k.handle (fun p => { p with released := addNew p.released k.chunk })

/-- Whether some contributor has released a chunk that another one still sends (R413). -/
def State.lost (s : State) (p : HPlan) (k : ChunkKey) : Bool := p.newest == k.inst && p.released.contains k.chunk && s.undone p k

/-- Mark a chunk failed with a code (R542): the first stands, except that ST_NO_SPARE prevails over ST_RANGE; no further update
is applied, and complete streams count as sent. -/
def State.markFailed (s : State) (k : ChunkKey) (code : St) : State :=
  match s.hchunk k with
  | none => s
  | some c =>
    let code' := match c.failCode with
      | none => code
      | some x => if x = .range ∧ code = .noSpare then .noSpare else x
    let s1 := s.chunkFree k false
    let arr := c.arrived ++ (c.rx.filter (fun r => r.whole)).map (·.child)
    (s1.setChunk { c with failCode := some code', panes := [], image := [], state := if c.state = .failed then .failed else .waiting
                          rx := c.rx.filter (fun r => !r.whole), arrived := arr }).checkFailed k

/-! ## Replay (R324 to R328) -/

/-- The unit identifier as a number (Table 13.5). -/
def unitVal (u : UnitId) : Nat := u.kind * 4096 + u.idx

/-- A test ends without a result (R373): the unit returns to its state before the test. A restart and a firmware activation form no
record of it. -/
def State.endTest (s : State) (r : TestRun) : State :=
  let s1 := if r.unit.kind = 1 ∨ r.unit.kind = 5 then s.modTile r.unit.idx (fun x => { x with state := r.prev }) else s
  { s1 with test := { s1.test with runs := s1.test.runs.filter (fun (x : TestRun) => x.unit != r.unit), done := true, lastUnit := unitVal r.unit } }

/-- A test of a unit is aborted (R373): the unit returns to its state before the test, a record of event 0x0802 is formed, and the
test's command completes with ST_ABORTED. -/
def State.abortTest (s : State) (r : TestRun) : State :=
  let k := (s.test.packs.get none r.packSlot).getD { magic := 0, pver := 0, blockVersion := 0, packId := 0, target := 0, packSeq := 0, patterns := 0, chains := 0, chainLen := 0, march := false, reservedZero := true, length := 0, sigOk := true, digestOk := true }
  let s3 := (s.endTest r).record {
    event := 0x0802, unit := unitVal r.unit, sub := r.packSlot, code := St.aborted.val
    syn := le 2 k.packId ++ le 4 k.packSeq ++ le 4 0xFFFFFFFF ++ [0, 0, 0, 0, 0, 0] }
  complete s3 r.src 0x0604 .aborted []

/-- A replay finds no qualifying spare while one is under test: its test is aborted (R373). -/
def State.freeTestedSpare (s : State) (c : HChunk) : State :=
  if (List.range s.params.tiles).any (fun t => (s.tile t).state == 2 && !c.failedTiles.contains t) then s
  else
    match s.test.runs.find? (fun r => r.unit.kind == 1 && r.prev == 2 && !c.failedTiles.contains r.unit.idx) with
    | some r => s.abortTest r
    | none => s

/-- The spare that takes a replay: the lowest-numbered one in service that has not failed the chunk. -/
def State.spareFor (s : State) (c : HChunk) : Option Nat :=
  (List.range s.params.tiles).find? (fun t => (s.tile t).state == 2 && !c.failedTiles.contains t)

/-- Map a replay onto its spare, when that has the panes free and is powered (R324, R326). -/
def State.mapReplay (s : State) (k : ChunkKey) : State :=
  match s.hchunk k, s.kplan k with
  | some c, some p =>
    if decide (c.state ≠ .replay) || !c.panes.isEmpty then s
    else
      let l := (s.freePanes c.tile).take (dPanes p.desc)
      if l.length < dPanes p.desc || !(s.dom c.tile).on then s
      else ((s.takePanes p.desc k c.tile l).setChunk { c with panes := l, lastUpd := s.htNs }).addStage k p
  | _, _ => s

/-- A chunk goes to Replay (R324, R325): its panes are freed, what it holds is discarded, each contributor is asked for its
stream again. With no spare it fails with ST_NO_SPARE (R333). -/
def State.replayChunk (s : State) (k : ChunkKey) : State :=
  match s.hchunk k, s.kplan k with
  | some c, some p =>
    let s1 := (s.chunkFree k false).freeTestedSpare c
    let n := c.attempt + 1
    match s1.spareFor c with
    | none =>
      let s2 := { s1 with flt := { s1.flt with noSpare := true } }.record
        { event := 0x0505, unit := s.tileUnit c.tile, code := St.noSpare.val, op := 16 + dOp p.desc, slot := k.slot, gen := k.gen
          handle := k.handle, step := (dStep p.desc + k.inst) % 2 ^ 32, chunk := k.chunk }
      (s2.setChunk { c with panes := [], image := [] }).failChunk k .noSpare
    | some t =>
      let kids := s.planKids p.desc
      let s2 := s1.setChunk { c with state := .replay, tile := t, panes := [], image := [], rx := [], arrived := [], discard := kids
                                     attempt := n, cflags := 0, result := [], msg := none, pos := 0 }
      (s2.mapReplay k).sendKids kids (.replayRequest k n)
  | _, _ => s

/-! ## The fence of a Hub tile (R330, Table 13.2) -/

/-- Write the fenced-unit map: the other Hub and flash hold it (steps 5 and 6, R332). -/
def State.putMap (s : State) (tiles ports chord : Nat) : State :=
  { s with flt := { s.flt with tilesMap := tiles, portsMap := ports, chordMap := chord }
           flash := { s.flash with tilesMap := tiles, portsMap := ports, chordMap := chord } }.mirrorBoth (.fenceMap tiles ports chord)

/-- Mirror the state and history of a tile (Table 17.2). -/
def State.mirrorTile (s : State) (t : Nat) : State := s.mirror (.tileHist t (s.tile t).state (s.tile t).events)

/-- Fence a Hub tile: its chunks move to Replay, the lowest-numbered spare takes its place in the radio or tenant set, the map is
written, the record holds the cause, the spare and the number of chunks moved (R539). -/
def State.hubFence (s : State) (t cause : Nat) : State :=
  let radio := (s.tile t).radio
  let wasSpare := decide ((s.tile t).state = 2)
  let moved := s.coll.chunks.filter (fun c => c.tile == t &&
    (decide (c.state = .open_) || decide (c.state = .draining) || decide (c.state = .replay) || decide (c.state = .spilling) ||
     decide (c.state = .spilled) || decide (c.state = .reloading)))
  let s1 := s.modTile t (fun x => { x with state := 3, radio := false, testPassed := false })
  let spare := if wasSpare then none else (List.range s.params.tiles).find? (fun i => (s1.tile i).state == 2)
  let s2 := match spare with
    | some i => s1.modTile i (fun x => { x with state := 1, radio := radio })
    | none => if radio then { s1 with sched := { s1.sched with radioShort := true } } else s1
  let s3 := moved.foldl (fun s c => s.replayChunk c.key) s2
  let s4 := (s3.putMap (s3.flt.tilesMap ||| 2 ^ t) s3.flt.portsMap s3.flt.chordMap).mirrorTile t
  (match spare with | some i => s4.mirrorTile i | none => s4).record
    { event := 0x0506, unit := 0x1000 + t, cls := if cause = 0 then 2 else 0
      syn := [BitVec.ofNat 8 cause, BitVec.ofNat 8 (spare.getD 0xFF)] ++ le 2 moved.length }

/-- Fence a tile of this block. -/
def State.fenceTile (s : State) (t cause : Nat) : State := if s.isHub then s.hubFence t cause else s.leafFence t cause

/-- A check of a Hub tile has failed for a chunk: the tile event (R321, R322), the fence that a permanent event asks for, and
the replay. -/
def State.hubFail (s : State) (k : ChunkKey) (f : TileCheck) : State :=
  match s.hchunk k, s.kplan k with
  | some c, some p =>
    let (s1, perm) := s.tileEvent c.tile k p.desc c.attempt f
    let s2 := (s1.setChunk { c with failedTiles := addNew c.failedTiles c.tile }).mirrorTile c.tile
    if perm && s.scriv.restarting then (s2.laterFence c.tile).replayChunk k else if perm then s2.hubFence c.tile 0 else s2.replayChunk k
  | _, _ => s

/-! ## Arrival of contributions -/

/-- A corrupt stream (R228, R327): event 0x0502 charged to the port, and a replay request to its sender alone. -/
def State.corruptRx (s : State) (k : ChunkKey) (child : Nat) : State :=
  match s.hchunk k with
  | none => s
  | some c =>
    let p := s.childPort child
    ((s.setChunk { c with rx := c.rx.filter (fun r => r.child != child), discard := addNew c.discard child }).record
      { event := 0x0502, unit := s.portUnit p, slot := k.slot, gen := k.gen, handle := k.handle, chunk := k.chunk }).send p (.replayRequest k c.attempt)

/-- The first M of an instance, set by its first partial (R265), or by the staged set it takes in (R360). -/
def State.instM (s : State) (p : HPlan) (inst : Nat) : Option Word :=
  match p.m with
  | some (i, m) => if i = inst then some m else (s.stageOf p inst).bind (·.m)
  | none => (s.stageOf p inst).bind (·.m)

/-- The streams that wait for a chunk are applied (R235); an update whose comparison fails is a residue failure (R221), which replays the chunk. -/
def State.takeRx (s : State) (k : ChunkKey) : State :=
  match s.applyRx k with
  | (t, some f) => t.hubFail k f
  | (t, none) => t

/-- A data flit of a contribution reaches the serving Hub. -/
def State.hubRx (s0 : State) (child : Nat) (k : ChunkKey) (d : CollData) (fail : Option TileCheck) : State :=
  match s0.kplan k with
  | none => s0
  | some p0 =>
    if decide (k.inst < p0.newest ∧ (s0.hchunk k).isNone) || (p0.newest == k.inst && p0.done.contains k.chunk) || !(s0.planKids p0.desc).contains child then s0
    else if s0.lost p0 k then s0.lostCommit k
    else
      let s := s0.seeInst k
      let c := (s.hchunk k).getD { key := k }
      let p := ((s.plan k.slot k.handle)).getD p0
      let past := decide (c.state = .draining) || decide (c.state = .gated) || decide (c.state = .forwarded) ||
        decide (c.state = .committed) || decide (c.state = .failed)
      if past || c.arrived.contains child || c.heard.contains child || c.discard.contains child then s
      else
        let r := (c.rx.find? (fun r => r.child == child)).getD { child := child, aux := d.aux, part := d.partialKind }
        if r.whole then s
        else
          let r1 := r.put d
          let s1 := s.setChunk { c with rx := c.rx.filter (fun r => r.child != child) ++ [r1] }
          let m := s.instM p k.inst
          let s2 := if dOp p.desc = 6 && m.isNone then s1.modPlan k.slot k.handle (fun p => { p with m := some (k.inst, d.aux) }) else s1
          let live := decide (c.state = .open_ ∨ c.state = .replay) && !c.panes.isEmpty
          if c.failCode.isSome then
            (if r1.whole then (s2.setChunk { c with rx := c.rx.filter (fun r => r.child != child), arrived := c.arrived ++ [child] }).checkFailed k else s2)
          else if dOp p.desc == 6 && (match m with | some x => decide (x ≠ d.aux) | none => false) then s2.markFailed k .conflict
          else
            match fail with
            | some f => if live then s2.hubFail k f else s2
            | none =>
              if !r1.whole then s2
              else if !s2.rxOk p.desc k.chunk r1 then s2.corruptRx k child
              else s2.takeRx k

/-- A contribution failure notice reaches a Hub (R542, R336). One of a code that ends the context, of a chunk that is Committed here (R413), or of a local reduction,
starts the termination at the span pair and goes on upward elsewhere. -/
def State.hubNotice (s0 : State) (child : Nat) (k : ChunkKey) (code : St) : State :=
  let ended := match s0.kplan k with | some p => p.newest == k.inst && p.done.contains k.chunk | none => true
  let ends := code == .poison || (code == .noSpare && ended)
  if ends then
    let here := match s0.plan k.slot k.handle with
      | some p => s0.spans p.desc
      | none => (s0.slot k.slot).spanHere
    if here then s0.terminate k.slot code else s0.sendUp (.failNotice k code)
  else
    match s0.kplan k with
    | none => s0
    | some p =>
      if !(s0.planKids p.desc).contains child || (p.newest == k.inst && p.done.contains k.chunk) then s0
      else if s0.lost p k then s0.lostCommit k
      else
        let s := s0.seeInst k
        let c := (s.hchunk k).getD { key := k }
        if c.heard.contains child || c.arrived.contains child || decide (c.state = .failed) || decide (c.state = .committed) then s
        else (s.setChunk { c with heard := c.heard ++ [child], rx := c.rx.filter (fun r => r.child != child) }).markFailed k code

/-! ## Mapping, spill and reload (R266 to R268) -/

/-- The tile that a new mapping takes (R266): of the collective's class, in service, with enough free panes and the fewest Open
chunks; the lowest number among those. -/
def State.tileFor (s : State) (d : BitVec 512) : Option Nat :=
  let l := (List.range s.params.tiles).filter (fun t => (s.tile t).state == 1 && (s.tile t).radio == dRadio d &&
    decide (dPanes d ≤ (s.freePanes t).length) && !decide ((s.dom t).setting = .off))
  l.foldl (fun b t => match b with
    | none => some t
    | some x => if (s.openOn t).length < (s.openOn x).length then some t else some x) none

/-- Take journal pages for a chunk's panes: 3 for each (R267, R356). -/
def State.spillPagesFor (s : State) (c : HChunk) : Option State :=
  match s.takePages 0 (3 * c.panes.length) (s.slot c.key.slot).enc with
  | some (t, ps) => some { t with jm := { t.jm with spillPages := t.jm.spillPages ++ [(c.key, ps)] } }
  | none => none

/-- The Open tenant chunks of a tile, oldest last update first. -/
def State.spillOrder (s : State) (t : Nat) : List HChunk :=
  (s.openOn t).foldl (fun l c => (l.filter (fun x => decide (x.lastUpd ≤ c.lastUpd))) ++ [c] ++ (l.filter (fun x => !decide (x.lastUpd ≤ c.lastUpd)))) []

/-- Begin the spill of chunks in order, until a number of panes will be free (R267). -/
def State.spillUntil (s : State) (free : Nat) : List HChunk → State
  | [] => s
  | c :: r =>
    if 128 ≤ free then s
    else
      match s.spillPagesFor c with
      | none => s
      | some t => State.spillUntil (t.setChunk { c with state := .spilling }) (free + c.panes.length) r

/-- Spill below the watermark of a tile (R267). Radio chunks never spill. -/
def State.spillTile (s : State) (t : Nat) : State :=
  if (s.tile t).radio || !s.jm.ready then s else s.spillUntil (s.freePanes t).length (s.spillOrder t)

/-- The sequencer maps a chunk (R266, R268): panes of a tile are cleared for it; a Spilled chunk is loaded onto them first. A
tile that is off is woken, and the mapping waits (R391). -/
def State.mapChunk (s : State) (k : ChunkKey) : State :=
  match s.hchunk k, s.kplan k with
  | some c, some p =>
    match s.tileFor p.desc with
    | none => s
    | some t =>
      if !(s.dom t).on then s.turnOn t
      else
        let l := (s.freePanes t).take (dPanes p.desc)
        let s1 := s.takePanes p.desc k t l
        if c.state = .spilled then (s1.setChunk { c with state := .reloading, tile := t, panes := l }).spillTile t
        else
          let s2 := s1.setChunk { c with state := .open_, tile := t, panes := l, lastUpd := s.htNs }
          ((s2.addStage k p).takeRx k).spillTile t
  | _, _ => s

/-- Whether a chunk waits for the sequencer: Unmapped or Spilled with an arrival. -/
def HChunk.waits (c : HChunk) : Bool :=
  (decide (c.state = .waiting) && c.failCode.isNone && !c.rx.isEmpty) || (decide (c.state = .spilled) && (!c.rx.isEmpty || c.fromSave))

/-- The tenant slots with a chunk that waits and could be mapped (R288). -/
def State.seqBacklog (s : State) : List Nat :=
  (s.coll.chunks.filterMap (fun c => match s.kplan c.key with
    | some p => if c.waits && !dRadio p.desc && (s.tileFor p.desc).isSome then some c.key.slot else none
    | none => none)).eraseDups

/-- CHUNK_MAP: the sequencer maps the chunk named, or maps a waiting replay; tenant slots take their turns (R288). A primary
that hands over maps nothing new (R416). -/
def State.hubMap (s : State) (k : ChunkKey) : State :=
  match s.hchunk k, s.kplan k with
  | some c, some p =>
    if decide (c.state = .replay) then (s.mapReplay k).takeRx k
    else if !c.waits || s.pair.stopMapping || !(s.dom 79).on then s
    else if dRadio p.desc then s.mapChunk k
    else
      let s1 := s.awaken 2000 s.seqBacklog
      if s1.pickFrom 2000 s.seqBacklog ≠ some k.slot then s1
      else if (match s.tileFor p.desc with | some t => (s.dom t).on | none => false) then (s1.served 2000 k.slot false).mapChunk k
      else s1.mapChunk k
  | _, _ => s

/-- R267: the spill of a chunk has been written: its images and checksum words are in the journal, its panes free. -/
def execPaneSpillComplete (k : ChunkKey) (s : State) : Out :=
  match s.hchunk k with
  | none => .next s
  | some c =>
    if decide (c.state ≠ .spilling) then .next s
    else
      let d := ((s.plan k.slot k.handle).map (·.desc)).getD 0
      let im := c.panes.map (fun p => (s.pane c.tile p).canonical d)
      let s1 := { s with coll := { s.coll with spills := (s.coll.spills + 1) % 2 ^ 32 } }
      .next ((s1.dropPanes c.tile c.panes false).setChunk { c with state := .spilled, panes := [], image := im })

/-- R219, R268, R328, R436: the reload of a Spilled chunk ends. An image that R219 refuses fails the chunk with ST_RANGE, and nothing is loaded (DEDUCED, log 99). An uncorrectable read, or a tag failure, sends it to Replay, and poisons
a chunk that comes from a saved state (R334). -/
def execSpillReloadComplete (k : ChunkKey) (uncorrectable : Bool) (s : State) : Out :=
  match s.hchunk k with
  | none => .next s
  | some c =>
    if decide (c.state ≠ .reloading) then .next s
    else if c.image.any (fun p => !p.imagesOk) then .next (s.markFailed k .range)
    else if !c.fromSave && (uncorrectable || (s.jm.spillPages.any (fun e => e.1 == k && e.2.any s.pageBad))) then .next (s.replayChunk k)
    else
      let s1 := s.loadImage (if c.fromSave then { c with image := s.savedImage c } else c) uncorrectable
      let s2 := if uncorrectable then s1.poisonEntered c.tile k else s1
      let pg := s2.jm.spillPages.flatMap (fun e => if e.1 == k then e.2 else [])
      let s3 := { s2.releasePages pg with jm := { (s2.releasePages pg).jm with spillPages := s2.jm.spillPages.filter (fun e => e.1 != k) } }
      .next ((s3.setChunk { c with state := .open_, image := [], fromSave := false, lastUpd := s.htNs }).takeRx k)

end Sys2Proof.Machine
end

