-- ==== Sys2Proof/Machine/Collective.lean ====
section
/-! DEFINITION. The meanings of the collective rows (chapter 10): starts and queries at a Leaf, chunks sent, contributions,
drains, result copies, results, commit messages and acknowledgements; and the end of an instance at a Hub with what saving and
staging ask of it (R358 to R360). -/

set_option linter.unusedVariables false

namespace Sys2Proof.Machine

/-! ## Starts and queries (R257, R258, R277) -/

/-- A write to LF_COLL_START: a handle that is not open at this Leaf for the slot gets an error response (R258). -/
def execCollStart (ctx : Nat) (v : Word) (s : State) : Out :=
  let h := v.toNat % 512
  if s.isHub then .next (s.answer 0 true)
  else
    let refuse : State := (s.answer 0 true).ctxIrq ctx 5
    if ctx ≠ 0 ∧ s.openCtx ctx (s.slot ctx).lastGen = false then .next refuse
    else match s.lcoll ctx h with
      | none => .next refuse
      | some x =>
        if x.src.isNone then .next (refuse.setLcoll ctx h (some { x with code := St.range.val }))
        else .next ((s.startColl ctx h).answer 0 false)

/-- STATE of LF_COLL_STATE (Table 10.10). -/
def LColl.stateVal (x : LColl) : Nat :=
  if x.src.isNone then 5 else if x.running then 2 else if !x.ended then 1 else if x.failed then 4 else 3

/-- A write to LF_COLL_QUERY latches the status of a handle (R277). -/
def execCollQuery (ctx : Nat) (v : Word) (s : State) : Out :=
  if s.isHub || (ctx != 0 && (s.slot ctx).clearing) then .next (s.answer 0 true)
  else
    let h := v.toNat % 512
    let c := match s.lcoll ctx h with
      | none => { s.coll with qSlot := some ctx, qState := 0, qCode := 0, qWin := 0 }
      | some x => { s.coll with
          qSlot := some ctx
          qState := BitVec.ofNat 32 (x.stateVal + (x.started - 1) % 65536 * 65536)
          qCode := BitVec.ofNat 32 (x.code % 65536 + x.flags % 128 * 65536)
          qWin := BitVec.ofNat 32 (min 64 (x.sent - x.committed).toNat + x.w * 256) }
    .next ({ s with coll := c }.answer 0 false)

/-! ## The end of an instance at a Hub: saves, resumes and staged sets (R358 to R360) -/

/-- The chunks of an instance that a Hub holds. -/
def State.instChunks (s : State) (c h : Nat) : List HChunk := s.coll.chunks.filter (fun x => x.key.slot == c && x.key.handle == h)

/-- The resume token of a saved instance (R440): the first 16 bytes of an HMAC under K_ctx. -/
def State.resumeToken (s : State) (c id step : Nat) : Nat :=
  Config.hmac (s.slot c).key (("DXRES".toList.map (fun x => BitVec.ofNat 8 x.toNat)) ++ le 2 id ++ le 8 (s.manifestOf c).2 ++ le 4 step) % 2 ^ 384 / 2 ^ 256

/-- Write what a pair holds of an instance to its journal (R358 steps 3 and 4): one saved chunk per Open or Spilled chunk, 3
pages per pane; `none` where the pages are lacking. -/
def State.writeSave (s : State) (c h id : Nat) (p : HPlan) : Option State :=
  let l := (s.instChunks c h).filter (fun x => decide (x.state = .open_ ∨ x.state = .spilled))
  let sc := l.map (fun x => ({ chunk := x.key.chunk, panes := if x.state = .spilled then x.image else x.panes.map (fun q => (s.pane x.tile q).canonical p.desc), arrived := x.arrived, flags := x.cflags } : SavedChunk))
  match s.takePages 1 (3 * (sc.map (fun x => x.panes.length)).sum) (s.slot c).enc with
  | none => none
  | some (t, ps) =>
    let v : Save := { slot := c, desc := p.desc, inst := p.newest, step := (dStep p.desc + p.newest) % 2 ^ 32, committed := p.done
                      chunks := sc, pages := ps, tenantKeyed := (s.slot c).tenantKeyed, single := s.pair.solo,
                      token := if (s.slot c).tenantKeyed then s.resumeToken c id ((dStep p.desc + p.newest) % 2 ^ 32) else 0 }
    some ({ t with jm := { t.jm with saves := t.jm.saves.set none id (some v) } }.mirror (.save id (some v)))

/-- The chunks of an instance leave this Hub, and the instance counts as ended here. -/
def State.dropInst (s : State) (c h : Nat) : State :=
  let s1 := (s.instChunks c h).foldl (fun s x => (s.chunkFree x.key false).delChunk x.key) s
  s1.modPlan c h (fun p => { p with saving := none, done := List.range (dChunks p.desc), ackd := dChunks p.desc })

/-- A save goes on once every begun stream has been applied and no chunk of the instance is Draining, Replay or Gated
(R358): the record is written, contributors discard what they retain, and the command completes. -/
def State.trySave (s : State) (c h : Nat) : State :=
  match s.plan c h with
  | none => s
  | some p =>
    match p.saving with
    | some (id, some src) =>
      let l := s.instChunks c h
      let busy := l.any (fun x => !x.rx.isEmpty || decide (x.state ≠ .open_ ∧ x.state ≠ .spilled ∧ x.state ≠ .committed))
      if busy then s
      else
        match s.writeSave c h id p with
        | none =>
          let s1 := s.modPlan c h (fun p => { p with saving := none })
          let s2 := s1.sendKids (s.planKids p.desc) (.owed c (dGen p.desc) h id p.newest (List.range (dChunks p.desc)) p.done)
          complete s2 src 0x0503 .busy []
        | some t =>
          let n := (t.jm.saves.get none id).map (fun v => (v.chunks.length, v.pages.length))
          let t1 := (t.dropInst c h).sendKids (s.planKids p.desc) (.saveStop c (dGen p.desc) h id true)
          complete t1 src 0x0503 .ok (layout [(4, (n.getD (0, 0)).1), (4, (n.getD (0, 0)).2)])
    | _ => s

/-- A gated chunk enters the staged set of its instance (R360): its canonical images with K and M. -/
def State.stageChunk (s : State) (k : ChunkKey) (p : HPlan) (ps : List Pane) : State :=
  match p.stageOut with
  | some (id, _) =>
    if p.stageInst ≠ some k.inst then s
    else
      match s.jm.stages.get none id with
      | none => s
      | some st =>
        let im := ps.map (Pane.canonical p.desc)
        match s.takePages 2 (3 * ps.length) (s.slot k.slot).enc with
        | none => { s with jm := { s.jm with stages := s.jm.stages.set none id (some { st with incomplete := true }) } }
        | some (t, pg) =>
          let st' := { st with chunks := st.chunks ++ [({ chunk := k.chunk, panes := im, arrived := [] } : SavedChunk)], m := s.instM p k.inst, pages := st.pages ++ pg,
                                   k := dK p.desc (s.leavesOf p.desc) + ((s.stageOf p k.inst).map (fun (x : Stage) => x.k)).getD 0 }
          { t with jm := { t.jm with stages := t.jm.stages.set none id (some st') } }
  | none => s

/-- A chunk that takes in a staged contribution has consumed it. -/
def State.consumeStage (s : State) (k : ChunkKey) (p : HPlan) : State :=
  match p.stageIn, s.stageOf p k.inst with
  | some (id, _), some st => { s with jm := { s.jm with stages := s.jm.stages.set none id (some { st with consumed := addNew st.consumed k.chunk }) } }
  | _, _ => s

/-! ## Drains (R236, R318, R319) -/

/-- A chunk enters Gated at the span pair (R270, R301): the rounded result, its Hallmark, the copy to the partner; without a
partner it commits at once (R413). -/
def State.gateSpan (s : State) (k : ChunkKey) (c : HChunk) (p : HPlan) (ps : List Pane) : State :=
  let (out, fl0) := resultOf p.desc (dElems p.desc k.chunk) ps
  let fl := (fl0 ||| c.cflags) % 128
  let hm := s.hallmarkOf p.desc k out fl s.scriv.fwVersion
  let m : CommitMsg := { key := k, code := .ok, flags := fl, resultBytes := out.length, hallmark := hm }
  let s1 := ((s.stageChunk k p ps).consumeStage k p).setChunk
    { c with state := .gated, panes := [], result := out, rflags := fl, hallmark := some hm, msg := some m }
  if s.pair.solo then s1.commitChunk k
  else s1.sendChord (.resultCopy { msg := m, bytes := out, fwVersion := s.scriv.fwVersion })

/-- A chunk enters Gated at a lower pair (R261): its packed partial waits to be sent. -/
def State.gateLower (s : State) (k : ChunkKey) (c : HChunk) (p : HPlan) (ps : List Pane) : State :=
  let (out, pb) := partialOf p.desc (dElems p.desc k.chunk) ps
  s.setChunk { c with state := .gated, panes := [], result := out, partBad := pb }

/-- The drain of a Hub chunk ends: the comparisons of R236 and R318 decide between Gated and Replay. -/
def State.hubDrain (s : State) (k : ChunkKey) (fail : Option TileCheck) : State :=
  match s.hchunk k, s.kplan k with
  | some c, some p =>
    if c.state ≠ .draining then s
    else
      let ps := c.panes.map (fun q => s.pane c.tile q)
      let n := s.expected p k.inst
      match fail.or (c.panes.findSome? (fun q => (s.pane c.tile q).check p.desc q n)) with
      | some f => s.hubFail k f
      | none =>
        let s1 := s.chunkFree k false
        let s2 := if c.attempt = 0 then s1 else s1.record
          { event := 0x0504, unit := s.tileUnit c.tile, op := 16 + dOp p.desc, slot := k.slot, gen := k.gen, handle := k.handle
            step := (dStep p.desc + k.inst) % 2 ^ 32, chunk := k.chunk }
        if s.spans p.desc then s2.gateSpan k c p ps else s2.gateLower k c p ps
  | _, _ => s

/-- R236: the drain of a chunk has come to clock 16. -/
def execDrainComplete (k : ChunkKey) (fail : Option TileCheck) (s : State) : Out :=
  if s.isHub then (if s.isPrimary then .next ((s.hubDrain k fail).trySave k.slot k.handle) else .next s)
  else .next (s.leafDrain k fail)

/-! ## Contributions -/

/-- A message for a slot and generation that no open context has is discarded and counted (R437). -/
def State.staleMsg (s : State) (k : ChunkKey) : Bool := !s.openCtx k.slot k.gen
/-- R264: a collective data flit with a contribution or a partial. -/
def execContributionFlitReceive (l : Link) (k : ChunkKey) (d : CollData) (fail : Option TileCheck) (s : State) : Out :=
  s.receivedIf (s.params.isDown l.port) l (s.classOf (.contribution k d)) fun s =>
    let child := s.portChild l.port
    if !s.isHub || !s.isPrimary then .next s
    else if s.staleMsg k then .next s.countStale
    else .next (((s.hubRx child (s.formKey k) d fail).withhold l.port (s.classOf (.contribution k d)) (s.formKey k)).trySave k.slot k.handle)

/-- R542, R336: a contribution failure notice. -/
def execContributionNoticeReceive (l : Link) (k : ChunkKey) (code : St) (s : State) : Out :=
  s.receivedIf (s.params.isDown l.port) l 1 fun s =>
    let child := s.portChild l.port
    if !s.isHub || !s.isPrimary then .next s
    else if s.staleMsg k then .next s.countStale
    else .next ((s.hubNotice child (s.formKey k) code).trySave k.slot k.handle)

/-- R266: the sequencer maps a chunk. -/
def execChunkMap (k : ChunkKey) (s : State) : Out := if s.isPrimary then .next (s.hubMap k) else .next s

/-! ## Chunks sent upward by a lower pair -/

/-- The chunk of a collective that a lower pair sends next: the first of its Gated chunks in rotated order, when the window has
room (R262, R263). -/
def State.hubNext (s : State) (p : HPlan) : Option Nat :=
  if s.spans p.desc || !p.room then none
  else
    let l := s.instChunks (dSlot p.desc) (dHandle p.desc)
    (sendOrder (dChunks p.desc) p.w s.ownIndex).find? (fun n => l.any (fun c => c.key.chunk == n && decide (c.state = .gated) && p.saving.isNone))

/-- The flits of a retained partial. -/
def State.partFlits (s : State) (p : HPlan) (c : HChunk) : List CollData :=
  (flitsOf true (if dOp p.desc = 6 then (s.instM p c.key.inst).getD 0 else 0) c.partBad c.result).map (fun d => { d with flags := c.cflags &&& 48 })

/-- CHUNK_SEND at a lower pair: the partial's flits are handed to the up-group's ports, and it is retained: the chunk is Forwarded (log 22). -/
def State.hubChunkSend (s : State) (c h n : Nat) : State :=
  match s.plan c h with
  | none => s
  | some p =>
    match (s.instChunks c h).find? (fun x => x.key.chunk == n && decide (x.state = .gated)) with
    | none => s
    | some x =>
      if s.hubNext p ≠ some n ∨ s.openCtx c (dGen p.desc) = false ∨ (s.sendPorts n).isEmpty = true then s
      else
        let s1 := s.sendTurn (s.sendPorts n) ((s.partFlits p x).map (fun d => TxMsg.contribution x.key d))
        ((s1.setChunk { x with state := .forwarded }).modPlan c h (fun p => { p with sent := p.sent + 1 })).mirrorCounts c h

/-- R262: a contributor sends a chunk's stream and retains it. -/
def execChunkSend (slot handle chunk : Nat) (s : State) : Out :=
  if s.isHub then (if s.isPrimary then .next (s.hubChunkSend slot handle chunk) else .next s)
  else .next (s.leafChunkSend slot handle chunk)

/-! ## The commit gate (R270, R303) -/

/-- R270, R303: the partner keeps a result copy with the Hallmark that it forms, keeps its shadow record, and acknowledges. -/
def execResultCopyReceive (l : Link) (r : ResultCopy) (s : State) : Out :=
  s.receivedIf (s.params.isChord l.port) l 1 fun s =>
    let k := r.msg.key
    if !s.isHub || s.isPrimary || decide (s.pair.role = .isolated) then .next s
    else
      match s.plan k.slot k.handle with
      | none => .next s
      | some p =>
        let hm := s.hallmarkOf p.desc k r.bytes r.msg.flags r.fwVersion
        let c : ResultCopy := { r with msg := { r.msg with hallmark := hm } }
        let s1 := { s with coll := { s.coll with copies := s.coll.copies.filter (fun (x : ResultCopy) => x.msg.key != k) ++ [c] }
                           hm := { s.hm with shadows := s.hm.shadows.filter (fun (x : HmRec) => x.key != k) ++ [s.hmRec p.desc k hm r.msg.flags] } }
        .next ((s1.seeInst k).sendChord (.copyAck k))

/-- R270, R304: the partner has acknowledged a result: the chunk is Committed. -/
def execResultCopyAck (l : Link) (k : ChunkKey) (s : State) : Out :=
  s.receivedIf (s.params.isChord l.port) l 1 fun s =>
    match s.hchunk k with
    | some c => if s.isPrimary && decide (c.state = .gated) && c.msg.isSome then .next ((s.commitChunk k).trySave k.slot k.handle) else .next s
    | none => .next s

/-- Every chunk that is Gated at a span pair commits without a partner (R413). -/
def State.commitGated (s : State) : State :=
  (s.coll.chunks.filter (fun c => decide (c.state = .gated) && c.msg.isSome)).foldl (fun s c => s.commitChunk c.key) s

/-- The result copies that a Hub holds when it becomes primary count as Committed (R270): each is sent again to every receiver. -/
def State.takeCopies (s : State) : State :=
  let s1 := { s with coll := { s.coll with copies := [] } }
  s.coll.copies.foldl (fun s r =>
    match s.kplan r.msg.key with
    | none => s
    | some p =>
      let t := s.setChunk { key := r.msg.key, state := .committed, result := r.bytes, msg := some r.msg, hallmark := some r.msg.hallmark, copyAcked := true }
      ((t.seeInst r.msg.key).noteDone r.msg.key).sendCommit (s.planKids p.desc) r.msg r.bytes) s1

/-! ## Replay of what a contributor retains (R323, R325, R327, R412) -/

/-- Send a retained partial again: the mark, then the stream from its start. -/
def State.resendPart (s : State) (k : ChunkKey) (p : HPlan) (c : HChunk) (attempt : Nat) : State :=
  let ps := s.sendPorts k.chunk
  let s1 := s.sendAll (ps.take 1) (.replayMark k attempt)
  if c.noticed then s1.sendAll (ps.take 1) (.failNotice k (c.failCode.getD .noSpare))
  else if c.state = .forwarded then s1.sendTurn ps ((s.partFlits p c).map (fun d => TxMsg.contribution k d))
  else s1

/-- A replay request at a lower pair (R325, R327): a new attempt of the pair above takes the retained partial; a repeated
attempt, or a retained flit whose CRC fails, has the partial rebuilt from the pair's own contributors; a failed CRC is charged to the tile that
held the partial (R323). -/
def State.hubReplayRequest (s : State) (k : ChunkKey) (attempt : Nat) (crcOk : Bool) : State :=
  match s.hchunk k, s.kplan k with
  | some c, some p =>
    if decide (c.state = .committed) then s
    else if decide (c.upAttempt < attempt) && crcOk then (s.setChunk { c with upAttempt := attempt }).resendPart k p { c with upAttempt := attempt } attempt
    else
      let s1 := (s.setChunk { c with upAttempt := attempt }).sendAll ((s.sendPorts k.chunk).take 1) (.replayMark k attempt)
      if c.noticed then s1.sendAll ((s.sendPorts k.chunk).take 1) (.failNotice k (c.failCode.getD .noSpare))
      else if decide (c.state = .forwarded ∨ c.state = .gated) then
        let s2 := if c.state = .forwarded then s1.modPlan k.slot k.handle (fun p => { p with sent := p.sent - 1 }) else s1
        if crcOk then s2.replayChunk k
        else
          let (s3, perm) := s2.tileEvent c.tile k p.desc c.attempt { check := 6, pane := 0, lane := 0, limb := 255, expected := 0, observed := 0 }
          let s4 := s3.mirrorTile c.tile
          (if perm && s.scriv.restarting then s4.laterFence c.tile else if perm then s4.hubFence c.tile 0 else s4).replayChunk k
      else s1
  | _, _ => s.sendAll ((s.sendPorts k.chunk).take 1) (.replayMark k attempt)

/-- R325: a replay request. -/
def execReplayRequestReceive (l : Link) (k : ChunkKey) (attempt : Nat) (crcOk : Bool) (s : State) : Out :=
  s.received l 1 fun s =>
    let port := l.port
    if !s.params.isUp port || !(s.port port).up then .next s
    else if s.staleMsg k then .next s.countStale
    else if s.isHub then (if s.isPrimary then .next (s.hubReplayRequest (s.formKey k) attempt crcOk) else .next s)
    else .next (s.leafReplay port (s.formKey k) attempt crcOk)

/-- R325: a replay mark: the child's flits of the chunk count again. -/
def execReplayMarkReceive (l : Link) (k : ChunkKey) (attempt : Nat) (s : State) : Out :=
  s.receivedIf (s.params.isDown l.port) l 1 fun s =>
    let child := s.portChild l.port
    let k := s.formKey k
    match s.hchunk k with
    | some c =>
      if s.isPrimary && decide (c.attempt = attempt) then
        .next (s.setChunk { c with discard := c.discard.filter (fun x => x != child), rx := c.rx.filter (fun r => r.child != child) })
      else .next s
    | none => .next s

/-- What a contributor tells a new primary of an instance: the chunks that it has seen committed and released (R413; DESIGN CHOICE, log 105). -/
def State.tellReleased (s : State) (d : BitVec 512) (inst : Nat) (l : List Nat) : State :=
  if l.isEmpty then s else s.sendUp (.released (dSlot d) (dGen d) (dHandle d) inst l)

/-- A contributor sees a new primary above it (R412): what it has released, and a mark and the retained stream of each chunk begun and not
committed. -/
def State.resendAll (s0 : State) : State :=
  if s0.isHub then
    let s := s0.coll.hub.foldl (fun s e => match e.2 with
      | some p => if s0.spans p.desc || !s0.isPrimary then s else s.tellReleased p.desc p.newest p.done
      | none => s) s0
    s.coll.chunks.foldl (fun s c =>
      match s.kplan c.key with
      | some p => if !s.spans p.desc && decide (c.state = .forwarded ∨ (c.state = .failed ∧ c.noticed = true))
          then (s.setChunk { c with upAttempt := 0 }).resendPart c.key p { c with upAttempt := 0 } 0 else s
      | none => s) s
  else
    let s := s0.coll.leaf.foldl (fun s e => match e.2 with
      | some x => if dSpan x.desc == 0 || x.started == 0 then s
                  else s.tellReleased x.desc (x.started - 1) ((List.range (dChunks x.desc)).filter (fun n => (x.chunk n).committed))
      | none => s) s0
    match s.servingPorts with
    | [] => s
    | port :: _ =>
      s.coll.leaf.foldl (fun s e =>
        match e.2 with
        | some x =>
          if !x.running || dSpan x.desc == 0 then s
          else
            (List.range (dChunks x.desc)).foldl (fun s n =>
              let ch := x.chunk n
              if ch.sent && !ch.committed && !ch.done then
                s.leafReplay port { slot := dSlot x.desc, gen := dGen x.desc, handle := dHandle x.desc, inst := x.started - 1, chunk := n } 0 true
              else s) s
        | none => s) s

/-! ## Results, commit messages and acknowledgements (R270 to R272) -/

/-- R264, R270: a result flit: a Leaf keeps its bytes, a lower pair sends it on unchanged. -/
def execResultFlitReceive (l : Link) (k : ChunkKey) (d : CollData) (s : State) : Out :=
  s.receivedIf (s.params.isUp l.port) l (s.classOf (.result k d)) fun s =>
    if s.staleMsg k then .next s.countStale
    else if !s.isHub then .next (s.leafResult (s.formKey k) d)
    else
      let k := s.formKey k
      match s.kplan k with
      | none => .next s
      | some p =>
        if !s.isPrimary || s.spans p.desc then .next s
        else
          let c := (s.hchunk k).getD { key := k }
          let s1 := s.setChunk { c with pos := c.pos + d.data.length }
          .next ((s.planKids p.desc).foldl (fun s kid =>
            s.sendAll ((s.resultPorts kid k.chunk).drop ((d.ofs / 216) % max 1 (s.resultPorts kid k.chunk).length) |>.take 1) (.result k d)) s1)

/-- A commit message at a lower pair: once every result byte has passed, it goes down unchanged, and the retained partial is
released (R270, R272). One with a code retires its chunk (Table 10.5). -/
def State.hubCommit (s : State) (m : CommitMsg) : State :=
  let k := m.key
  match s.kplan k with
  | none => s
  | some p =>
    let c := (s.hchunk k).getD { key := k, state := .forwarded }
    if c.state = .committed then (if subList (s.planKids p.desc) c.acked then s.sendUp (.resultAck k) else s)
    else if decide (m.code = .ok ∧ c.pos < m.resultBytes) && c.msg.isNone then s.setChunk { c with msg := some m }
    else
      let s1 := s.chunkFree k false
      let s2 := (s1.setChunk { c with state := .committed, panes := [], image := [], rx := [], result := [], msg := some m, discard := [] }).modPlan k.slot k.handle
        (fun p => { p with committed := p.committed + 1, sent := if c.state = .forwarded ∨ c.noticed = true then p.sent else p.sent + 1 })
      let s3 := (((s2.hubStuck k.slot k.handle).mirrorCounts k.slot k.handle).noteDone k).sendCommit (s.planKids p.desc) m []
      if m.code = .ok then s3 else s3.retire k

/-- R272: a commit message. One from a Hub whose epoch is older than the newest seen is discarded (R412). -/
def execCommitMessageReceive (l : Link) (epoch : Nat) (m : CommitMsg) (s : State) : Out :=
  s.receivedIf (s.params.isUp l.port) l 1 fun s =>
    if newerEpoch s.pair.seenEpoch epoch && s.pair.seenEpoch != epoch then .next s
    else if s.staleMsg m.key then .next s.countStale
    else if s.isHub then (if s.isPrimary then .next (s.hubCommit { m with key := s.formKey m.key }) else .next s)
    else .next (s.leafCommit { m with key := s.formKey m.key })

/-- R270, R272, Table 10.5: a receiver has acknowledged a chunk. When all have, the chunk is Retired; a lower pair acknowledges
upward. An acknowledgement of a chunk that this Hub has not committed tells of one that a former primary committed without a copy (R413). -/
def execResultAckReceive (l : Link) (k0 : ChunkKey) (s : State) : Out :=
  s.receivedIf (s.params.isDown l.port) l 1 fun s =>
    let child := s.portChild l.port
    let k := s.formKey k0
    match s.hchunk k, s.kplan k with
    | none, some p => if s.isPrimary && (s.planKids p.desc).contains child && s.undone p k then .next (s.lostCommit k) else .next s
    | some c, some p =>
      if !s.isPrimary || !(s.planKids p.desc).contains child then .next s
      else if s.undone p k then .next (s.lostCommit k)
      else if !decide (c.state = .committed ∨ c.state = .failed) then .next s
      else
        let acked := addNew c.acked child
        if !subList (s.planKids p.desc) acked then .next (s.setChunk { c with acked := acked })
        else
          let s1 := (s.delChunk k).modPlan k.slot k.handle (fun p => if p.newest = k.inst then { p with ackd := p.ackd + 1 } else p)
          let s2 := if s.spans p.desc then s1.mirror (.retired k) else s1.sendUp (.resultAck k)
          .next ((s2.instanceEnd k.slot k.handle).trySave k.slot k.handle)
    | _, _ => .next s

/-! ## Fabric responses at a Leaf (R509) -/

/-- R509: a beat of a Leaf's own read of a source. -/
def execFabricReadResponse (k : ChunkKey) (ofs : Nat) (beat : Option (List Byte × Bool)) (fail : Option TileCheck) (s : State) : Out :=
  if s.isHub then .next s
  else
    let s1 := match beat with
      | none => { s with irq := { s.irq with rdErr := true } }
      | some (_, true) => { s with irq := { s.irq with fbPoison := true } }
      | _ => s
    .next (s1.leafRead k ofs beat fail)

/-- R509, R194: the fabric's answer to the write of a chunk's result. -/
def execFabricWriteResponse (k : ChunkKey) (err : Bool) (s : State) : Out :=
  if s.isHub then .next s
  else
    let s1 := if err then { s with irq := { s.irq with wrErr := true } } else s
    .next (s1.leafWritten k err)

/-! ## Binding a source (R255) -/

/-- CMD_COLL_BIND (R255, R276). -/
def execCmdCollBind (h : CmdHdr) (handle src : Nat) (s : State) : Out :=
  runCmd { opcode := 0x0402, hub := false, iss := .ctx } h s fun s =>
    match s.lcoll h.slot handle with
    | none => .err s .range
    | some x =>
      if 512 ≤ handle ∨ src % 64 ≠ 0 then .err s .range
      else if x.running then .err s .busy
      else .ok (s.setLcoll h.slot handle (some { x with src := some src })) []

end Sys2Proof.Machine
end

