-- ==== Sys2Proof/Machine/Slots.lean ====
section
/-! DEFINITION. The slots of every port (R118, R119, R123, R124, R278 to R282, R288): which waiting message fills a slot, and the flit that carries it
(R121, R122, R129 to R132, R435). -/

set_option linter.unusedVariables false

namespace Sys2Proof.Machine

/-! ## Flits (R121, R131, R132, R429, R435) -/

/-- CTX_SLOT and CTX_GEN of the flit of a message: 0 for flits of no context (Table 5.2). -/
def TxMsg.slotGen : TxMsg → Nat × Nat
  | .arrival c g _ _ _ => (c, g)
  | .release c g _ _ _ => (c, g)
  | .contribution k _ => (k.slot, k.gen)
  | .result k _ => (k.slot, k.gen)
  | .failNotice k _ => (k.slot, k.gen)
  | .saveStop c g _ _ _ => (c, g)
  | .owed c g _ _ _ _ _ => (c, g)
  | .released c g _ _ _ => (c, g)
  | .replayRequest k _ => (k.slot, k.gen)
  | .replayMark k _ => (k.slot, k.gen)
  | .commit m => (m.key.slot, m.key.gen)
  | .resultAck k => (k.slot, k.gen)
  | .resultCopy r => (r.msg.key.slot, r.msg.key.gen)
  | .copyAck k => (k.slot, k.gen)
  | .mirror (.save _ (some v)) => (v.slot, dGen v.desc)
  | .mirror (.stage _ (some v)) => (v.slot, dGen v.desc)
  | _ => (0, 0)

/-- The TYPE of the flit of a message (Table 5.2). -/
def TxMsg.flitType : TxMsg → FlitType
  | .timing _ => .timing
  | .bringUp _ => .bringUp
  | .contribution _ _ => .data
  | .result _ _ => .data
  | .mirror _ => .mirror
  | .resultCopy _ => .mirror
  | .copyAck _ => .mirror
  | _ => .control

/-- Whether the payload of a message is encrypted when its context has ENC (R132, R435): collective data, and on the chord results with their
shadow records and Ledger images. -/
def TxMsg.payload : TxMsg → Bool
  | .contribution _ _ => true
  | .result _ _ => true
  | .resultCopy _ => true
  | .mirror (.save _ _) => true
  | .mirror (.stage _ _) => true
  | _ => false

/-- K_j of a direction: the derived key after j changes (R429). -/
def rekey (k : Nat) : Nat → Nat
  | 0 => k
  | j + 1 => Config.hkdf (rekey k j) "DXNX" []

/-- The key and salt of the direction in which this block sends on a port, for the flit of a count (R131, R429). -/
def State.sendKey (s : State) (p count : Nat) : Nat × Nat :=
  match (s.port p).keys with
  | none => (0, 0)
  | some k => if s.childEnd p then (rekey k.up (count / 2 ^ 36), k.saltUp) else (rekey k.down (count / 2 ^ 36), k.saltDown)

/-- The key of a context's payload in the direction in which this block sends on a port (R435). -/
def State.payloadKey (s : State) (p c : Nat) : Nat :=
  let o := s.port p
  Config.hkdf (s.slot c).key "DXLNK" (if s.childEnd p then [o.peerNonce, o.nonce, 1] else [o.nonce, o.peerNonce, 0])

/-- The flit that carries a message, or an idle flit, with the header fields of this moment (Table 5.2, R131, R132). -/
def State.mkFlit (s : State) (p : Nat) (m : Option TxMsg) : Flit :=
  let o := s.port p
  let f : Flit := { ack := (o.rxSeq + 4095) % 4096, crCtl := min 63 o.retCtl, crRadio := min 63 o.retRadio, crTen := min 63 o.retTen, nak := o.nakOut, count := o.txCount, body := m }
  match m with
  | none => f
  | some m =>
    let c := m.slotGen
    let enc := m.payload && (s.slot c.1).enc
    let auth := enc || (decide (m.flitType ≠ .data) && o.keys.isSome)
    let k := if enc then (s.payloadKey p c.1, 0) else s.sendKey p o.txCount
    { f with
      type := m.flitType, cls := s.classOf m, auth := auth, enc := enc, seq := if m.numbered then o.txSeq else 0, slot := c.1, gen := c.2
      key := if auth then k.1 else 0, salt := if auth then k.2 else 0 }

/-- A flit takes the line (R122, R129, R130): it returns the credits that it carries; a new numbered flit uses a credit, takes the next SEQ
and enters the replay buffer. -/
def State.putFlit (s : State) (p : Nat) (f : Flit) (numbered : Bool) : State :=
  s.modPort p (fun o =>
    let o1 := { o with line := some f, txCount := o.txCount + 1, nakOut := false, retCtl := o.retCtl - f.crCtl, retRadio := o.retRadio - f.crRadio, retTen := o.retTen - f.crTen }
    if numbered then { o1.takeCredit f.cls with txSeq := (o.txSeq + 1) % 4096, replay := o.replay ++ [(f, s.htNs)] } else o1)

/-- The flit of a waiting message leaves on a port. -/
def State.emit (s : State) (p : Nat) (m : TxMsg) : State :=
  { s with tx := s.tx.erase { port := p, msg := m } }.putFlit p (s.mkFlit p (some m)) (m.numbered || (s.port p).up)

/-! ## Which message fills a slot (R279, R280, R288) -/

/-- The messages that wait for a slot of a port, oldest first. -/
def State.waitingOn (s : State) (p : Nat) : List TxMsg := (s.tx.filter (fun x => x.port == p)).map (·.msg)

/-- Whether a waiting message of a port may be sent: its class has a credit, the replay buffer of 512 flits has room, and a commit message
follows every result flit of its chunk (R122, R130, R271). -/
def State.readyOn (s : State) (p : Nat) (m : TxMsg) : Bool :=
  let o := s.port p
  decide (0 < o.credit (s.classOf m)) && decide (o.replay.length < 512) &&
    (match m with
     | .commit c => !(s.waitingOn p).any (fun x => match x with | .result k _ => k == c.key | _ => false)
     | _ => true)

/-- The waiting messages of a class that may be sent on a port. -/
def State.readyClass (s : State) (p cls : Nat) : List TxMsg := (s.waitingOn p).filter (fun m => s.classOf m == cls && s.readyOn p m)

/-- The context slots whose tenant queues at a port are backlogged, and those among them that are eligible: at a Leaf while the shaper permits it
(R288, R291). -/
def State.tenantQueues (s : State) (p : Nat) : List Nat := ((s.readyClass p 3).map (fun m => m.slotGen.1)).eraseDups
@[inherit_doc State.tenantQueues] def State.tenantReady (s : State) (p : Nat) : List Nat :=
  (s.tenantQueues p).filter (fun c => s.isHub || (s.shapeOf c).eligible)

/-- Whether a context has tenant flits waiting at this block. -/
def State.backlogged (s : State) (c : Nat) : Bool := s.tx.any (fun x => s.classOf x.msg == 3 && x.msg.slotGen.1 == c)

/-- Mark the queues that wait for tokens: backlogged and not eligible (R291). -/
def State.markHeld (s : State) (c : Nat) : State :=
  let b := s.backlogged c
  s.modShape c (fun x => { x with held := b && !x.eligible })

/-- The tenant flit that a slot takes: the first of the context queue that start-time fair queueing picks; a shaped flit takes its tokens, and a queue
left with too few is marked held (R288, R290, R291). -/
def State.pickTenant (s : State) (p : Nat) : State × Option TxMsg :=
  let s0 := if s.isHub then s else (s.tenantQueues p).foldl (fun s c => s.markHeld c) s
  let bl := s0.tenantReady p
  let s1 := s0.awaken p bl
  match s1.pickFrom p bl with
  | none => (s1, none)
  | some c =>
    let l := (s1.readyClass p 3).filter (fun m => m.slotGen.1 == c)
    let s2 := s1.modShape c (fun x => if s.isHub then x else x.take)
    (s2.served p c (decide (2 ≤ l.length) && (s.isHub || (s2.shapeOf c).eligible)), l.head?)

/-- The first message that a slot finds ready in the order of its classes. -/
def State.pickMsg (s : State) (p : Nat) : List Nat → State × Option TxMsg
  | [] => (s, none)
  | c :: r =>
    if c = 3 then
      match s.pickTenant p with
      | (t, some m) => (t, some m)
      | (t, none) => State.pickMsg t p r
    else
      match (s.readyClass p c).head? with
      | some m => (s, some m)
      | none => State.pickMsg s p r

/-- RADIO_SLOTS in force on a port: an up-group of a Hub uses that of the upper pair (R281). -/
def State.slotsOf (s : State) (p : Nat) : Nat := if s.isHub && s.params.isUp p then s.sched.upSlots else s.sched.radioSlots

/-- Whether slot `n` of a period is reserved for the radio class (R280). -/
def State.reservedSlot (s : State) (p n : Nat) : Bool := (List.range (s.slotsOf p)).any (fun j => n == 4 + 56 * j / s.slotsOf p)

/-- The classes that a slot from 1 on takes, in order (Table 11.2). -/
def State.slotOrder (s : State) (p n : Nat) : List Nat :=
  if n ≤ 3 then [1, 2, 3] else if s.reservedSlot p n then [2, 1] else [2, 1, 3]

/-- A slot from 1 on of a port that is up (R279, R282): a replay goes first, in SEQ order; then the first message found ready; else an idle flit. -/
def State.fillSlot (s : State) (p n : Nat) : State :=
  match (s.port p).resend with
  | f :: r => (s.modPort p (fun o => { o with resend := r })).putFlit p f false
  | [] =>
    match s.pickMsg p (s.slotOrder p n) with
    | (t, some m) => t.emit p m
    | (t, none) => t.putFlit p (t.mkFlit p none) false

/-- A tick of a port's line (R119, R123, R124): a flit takes 2176/257 ns. The first slot of a new period of HT is slot 0, which only the port's
timing flit fills (TIMING_FLIT_SEND); a port that is down sends bring-up and idle flits. -/
def State.lineTick (s : State) (p : Nat) : State :=
  let o := s.port p
  if !o.phyRdy then s
  else if o.lineAcc + 257 < 2176 then s.modPort p (fun o => { o with lineAcc := o.lineAcc + 257 })
  else
    let s1 := s.modPort p (fun o => { o with lineAcc := o.lineAcc + 257 - 2176 })
    if !o.up then
      match (s1.waitingOn p).find? (fun m => !m.numbered) with
      | some m => s1.emit p m
      | none => s1.putFlit p (s1.mkFlit p none) false
    else if s.htNs / 512 ≠ o.slotPeriod then s1.modPort p (fun o => { o with line := some (s1.mkFlit p none) })
    else (s1.modPort p (fun o => { o with slotNo := o.slotNo + 1 })).fillSlot p (o.slotNo + 1)

/-- The lines of all ports on one tick. -/
def State.linesTick (s : State) : State := (s.ports.map (·.1)).foldl State.lineTick s

end Sys2Proof.Machine
end

