-- ==== Sys2Proof/Machine/Tdc.lean ====
section
/-! DEFINITION. The TDC (chapter 4): stamps, gates, anchors, calibration, and what the references of a Hub take from
them (R62, R68 to R70, R73 to R75). -/

set_option linter.unusedVariables false

namespace Sys2Proof.Machine

/-- Whether a channel is fixed-function (Table 4.1). -/
def State.tdcFixed (s : State) (ch : Nat) : Bool := if s.isHub then decide (ch < 6) else decide (ch < 2)

/-- What an accepted edge of a fixed channel of a Hub tells about its reference (R62, R70): the loss of REF0, REF1 or REF2
ends when its edges are back, and a 1PPS edge gives the phase error of REF2. -/
def State.refEdge (s : State) (ch stamp : Nat) : State :=
  let now := s.htNs
  match ch with
  | 0 => (s.modRef 0 (fun r => { r with lastEdge := now, los := false })).updCond 0
  | 1 => (s.modRef 1 (fun r => { r with lastEdge := now, los := false })).updCond 1
  | 2 => (s.modRef 2 (fun r => { r with lastEdge := now, los := r.los && decide (r.lastPps + 1500000000 < now) })).updCond 2
  | 3 =>
    let s1 := (s.modRef 2 (fun r => { r with lastPps := now, los := r.los && decide (r.lastEdge + 400 < now) })).updCond 2
    s1.newPhase 2 (ppsError (s.stampHt 3 stamp + (s.time.ofs + s.dpll.cfg.ref2Comp) * 256))
  | _ => s

/-- Whether a channel sees an input of the block: not the internal loopback of a pulse output (R113). -/
def State.seesInput (s : State) (ch : Nat) : Bool :=
  match s.tdc.cal with
  | some c => if c.ch = ch then c.path != .internal else decide ((s.tdcCh ch).cfg.src < 4)
  | none => decide ((s.tdcCh ch).cfg.src < 4) || (s.tdcCh ch).loop

/-- R102 to R106: an input level held for `held` consecutive samples from the instant `stamp`, of which the last needed was taken within the last
two ticks (R105). It is accepted when the channel is on or in calibration, out of hold-off, the level is new and HYST + 1 samples hold it; a polarity
that EDGE does not select only becomes the tracked level. -/
def execTdcEdgeAccept (ch : Nat) (rising : Bool) (held : Nat) (stamp : Nat) (s : State) : Out :=
  let t := s.tdcCh ch
  if 8 ≤ ch ∨ (t.cfg.en = false ∧ t.loop = false) ∨ s.seesInput ch = false ∨ t.holdEnd.isSome ∨ t.level = rising ∨ held < t.cfg.hyst + 1 ∨
      s.tickBins < stamp + t.cfg.hyst ∨ stamp + t.cfg.hyst + 32 ≤ s.tickBins then .next s
  else
    let s1 := s.takeLevel ch rising stamp
    .next (if s.isTop && edgeSelected t.cfg.edge rising then s1.refEdge ch stamp else s1)

/-- R103: hold-off ends: the present level becomes the tracked level, and nothing is stamped. -/
def execHoldoffEnd (ch : Nat) (level : Bool) (s : State) : Out :=
  match (s.tdcCh ch).holdEnd with
  | some e => if e ≤ s.tdc.coarse * 8 then .next (s.modTdc ch (fun t => { t with holdEnd := none, level := level })) else .next s
  | none => .next s

/-! ## Gates -/

/-- Whether the GAP test of R109 finds a missed or extra edge between two stamps. Stamps in units of 7.8125 ps; the nominal
period of an edge in units of 62.5 ps is `pnom`. -/
def gapIn (pnom : Rat) : List (Nat × Nat) → Bool
  | (k0, t0) :: (k1, t1) :: r =>
    let dk : Rat := ((k1 : Int) - (k0 : Int) : Int)
    let d : Rat := (((t1 : Int) - (t0 : Int) : Int) : Rat) / 8 - dk * pnom
    decide (dk * pnom / 4 < rabs d) || gapIn pnom ((k1, t1) :: r)
  | _ => false

/-- The measured period per edge of R109, by least squares over indices and stamps, in units of 62.5 ps. -/
def slopeOf (l : List (Rat × Rat)) : Rat :=
  let n : Rat := l.length
  let kb := rsum (l.map (·.1)) / n
  let tb := rsum (l.map (·.2)) / n
  rsum (l.map (fun p => (p.1 - kb) * (p.2 - tb))) / rsum (l.map (fun p => (p.1 - kb) * (p.1 - kb)))

/-- y of a gate in ppb (R109): (pnom ÷ s − 1) × 10⁹. -/
def gateY (pnom : Rat) (st : List (Nat × Nat)) : Rat :=
  let k0 : Int := (st.head?.getD (0, 0)).1
  let t0 : Int := (st.head?.getD (0, 0)).2
  let sl := slopeOf (st.map (fun p => ((((p.1 : Int) - k0 : Int) : Rat), ((((p.2 : Int) - t0 : Int) : Rat) / 8))))
  (pnom / sl - 1) * 1000000000

/-- The end of a gate of one channel (R108 to R110): status, y of a valid gate, and the configuration that waited. -/
def TdcCh.endGate (t : TdcCh) (coarse : Nat) (now : HT) : TdcCh :=
  let pnom : Rat := 16000000000 / (t.cfg.fnom : Rat)
  let few := decide (t.stamps.length < 16)
  let gap := !few && gapIn pnom t.stamps
  let valid := !few && !gap && t.pendCfg.isNone
  let y := if valid then gateY pnom t.stamps else t.yPpb
  { t with
    nstamp := t.stamps.length, valid := valid, wrap := decide (t.gateStart / 2 ^ 32 < coarse / 2 ^ 32)
    few := few, gap := gap, cap := decide (65536 < t.taken)
    gateSeq := (t.gateSeq + 1) % 256, yPpb := y, y := if valid then sat32 (rround (y * 65536)) else t.y
    stamps := [], taken := 0, divCnt := 0, gateStart := coarse, gateHt := now
    cfg := t.pendCfg.getD t.cfg, pendCfg := none }

/-- The slope of the offsets of REF3 reported in the gate that ends, in ppb: y(3) (R62); `none` with fewer than two. -/
def State.ref3Slope (s : State) (from_ : HT) : Option Rat :=
  let l := (s.ref 3).ofs3Log.filter (fun p => decide (from_ ≤ p.1))
  if l.length < 2 then none
  else
    let t0 : Int := (l.head?.getD (0, 0)).1
    let pts := l.map (fun p => ((((p.1 : Int) - t0 : Int) : Rat), ((p.2 : Rat) / 256)))
    if decide (pts.all (fun p => decide (p.1 = 0))) then none else some (slopeOf pts * 1000000000)

/-- A new y of reference `n` at the end of a gate (R62, R68, R69): the conditions follow it, and within the first three
gates after start-up a reference that meets them qualifies without waiting while none is active. -/
def State.newY (s : State) (n : Nat) (y : Rat) : State :=
  let s1 := (s.modRef n (fun r => { r with y := y })).updCond n
  let s2 := if s1.refCond n && !(s1.ref n).qualified && decide ((s1.ref n).gates < 3) && decide (s1.dpll.active = none) then s1.qualify n else s1
  if s2.selecting && decide (s2.dpll.active = some n) then
    ({ s2 with freeCtr := s2.freeCtr + 1 }).fcwTo (fcwOf y + Config.freeLoop s2.freeCtr)
  else s2

/-- What the end of a gate of a Hub's channels 0 to 3 does to the references: y of REF0 to REF2 (R110), y of REF3 with
channel 3, the dispute tests (R73, R74, R75) at the last of them, and selection (R71). -/
def State.refGate (s : State) (ch : Nat) (valid : Bool) (y : Rat) (from_ : HT) : State :=
  if 4 ≤ ch then s
  else
    let v : Option Rat := if ch = 3 then s.ref3Slope from_ else if valid then some y else none
    let s1 := match v with | some y => s.newY ch y | none => s
    let s2 := s1.modRef ch (fun r => { r with gates := r.gates + 1, ofs3Log := [] })
    let s3 := if ch = 3 then (allPairs.foldl State.gatePair s2) else s2
    s3.reselect

/-- R108 to R110: a gate boundary of a channel, when HT has reached the next multiple of its gate time. A channel that is
off only takes a configuration that waits. -/
def execTdcGateEnd (ch : Nat) (s : State) : Out :=
  let t := s.tdcCh ch
  let g := t.cfg.gateMs * 1000000
  if 8 ≤ ch ∨ s.htNs / g ≤ t.gateHt / g then .next s
  else
    let u := if t.cfg.en then t.endGate s.tdc.coarse s.htNs
      else { t with cfg := t.pendCfg.getD t.cfg, pendCfg := none, gateStart := s.tdc.coarse, gateHt := s.htNs }
    let s1 := s.modTdc ch (fun _ => u)
    .next (if s.isTop && t.cfg.en then s1.refGate ch u.valid u.yPpb t.gateHt else s1)

/-- R107: the anchors are latched on the tick that reaches a multiple of 2²⁰ ns, once for each. The stamp value is that of the instant at which HT was the
multiple: a tick may lie a part of a nanosecond after it (DEDUCED from the accuracy that the rule gives, log 93). -/
def execTdcAnchorLatch (s : State) : Out :=
  let n := s.htNs / 2 ^ 20
  if s.htNs % 2 ^ 20 ≤ 1 ∧ s.tdc.ancHt ≠ BitVec.ofNat 32 n then
    let past := (s.time.ht48 - n * 2 ^ 68 + 2 ^ 43) / 2 ^ 44
    .next { s with tdc := { s.tdc with ancCnt := BitVec.ofNat 32 (s.tickBins - past), ancHt := BitVec.ofNat 32 n } }
  else .next s

/-! ## Commands (Table 4.4) -/

/-- The ranges of CMD_TDC_CONFIG (R101 to R104, R108, Table 4.5). -/
def tdcCfgOk (c : TdcCfg) : Bool :=
  (c.src == 1 || c.src == 2 || (decide (4 ≤ c.src) && decide (c.src ≤ 7))) && decide (1 ≤ c.edge) && decide (c.edge ≤ 3) &&
  decide (c.hyst ≤ 15) && decide (1 ≤ c.holdoff) && decide (c.holdoff ≤ 255) && decide (c.div < 2 ^ 24) &&
  decide (1 ≤ c.gateMs) && decide (c.gateMs ≤ 16000) && decide (1 ≤ c.fnom) && decide (c.fnom ≤ 250000000) &&
  decide (c.fnom ≤ 125000000 * (c.div + 1))

/-- Whether a channel is in calibration (R114), by CMD_TDC_CAL or in a Plumb commissioning. -/
def State.inCal (s : State) (ch : Nat) : Bool := (s.tdcCh ch).loop

/-- CMD_TDC_CONFIG (R101, R104, R108, R116). A value out of range is answered before ST_CONFLICT: the manual gives no order to a command's own checks
(DESIGN CHOICE, log 94). -/
def execCmdTdcConfig (h : CmdHdr) (ch : Nat) (c : TdcCfg) (s : State) : Out :=
  runCmd { opcode := 0x0107 } h s fun s =>
    if 8 ≤ ch ∨ !tdcCfgOk c then .err s .range
    else if s.tdcFixed ch || s.inCal ch then .err s .conflict
    else .ok (s.modTdc ch (fun t => { t with pendCfg := some c })) []

/-- Take an output and a channel for calibration pulses (R114, R115, Table 6.1): the output goes to Calibration mode, LOOP is set, and a Leaf takes a
comparator. -/
def State.takeCal (s : State) (po ch : Nat) : State :=
  ((s.alloc 1 (.cal po)).modPo po (fun o => { o with mode := 3, lastRise := none })).modTdc ch (fun t => { t with loop := true })

/-- Give them back: the comparator, the output and the channel are free again (R115). -/
def State.freeCal (s : State) (po ch : Nat) : State :=
  (((s.release (.cal po)).setPo po false s.htNs).modPo po (fun o => { o with mode := 0, fallAt := none })).modTdc ch (fun t => { t with loop := false })

/-- What stops the start of a calibration (R115, Table 4.4, Table 5.6): a fixed channel, an output or channel in use, another run, no comparator. -/
def State.calCheck (s : State) (po ch : Nat) (busy : Bool) : Option St :=
  if s.tdcFixed ch || s.inCal ch || (s.po po).mode != 0 then some .conflict
  else if busy then some .busy
  else if !s.isHub && !s.canAlloc 1 true then some .noComparator
  else none

/-- CMD_TDC_CAL (R114, R115). -/
def execCmdTdcCal (h : CmdHdr) (ch po : Nat) (path : CalPath) (count : Nat) (s : State) : Out :=
  runCmd { opcode := 0x0108 } h s fun s =>
    if 8 ≤ ch ∨ 4 ≤ po ∨ count < 16 ∨ 4096 < count then .err s .range
    else
      match s.calCheck po ch (s.tdc.cal.isSome || s.tsrc.plumb.isSome) with
      | some c => .err s c
      | none =>
        let run : CalRun := { ch := ch, po := po, path := path, count := count, start := roundUp (s.htNs + 10000) 1024, src := h.src }
        let s1 := s.takeCal po ch
        .wait { s1 with tdc := { s1.tdc with cal := some run } }

/-- The end of a calibration: what it holds is released (R115). -/
def State.endCal (s : State) (c : CalRun) : State :=
  let s1 := s.freeCal c.po c.ch
  { s1 with tdc := { s1.tdc with cal := none } }

/-- R114, R115: the calibration ends after its last pulse: CAL_OFS is the mean difference of stamp and strike time. Fewer edges than `count` fail with
ST_RANGE and leave CAL_OFS unchanged. -/
def execTdcCalComplete (s : State) : Out :=
  match s.tdc.cal with
  | none => .next s
  | some c =>
    if s.htNs < c.start + (c.count - 1) * 1024 + 64 then .next s
    else if c.got.1 < c.count then .next (complete (s.endCal c) c.src 0x0108 .range [])
    else
      let mean := countMean c.got
      let t := s.tdcCh c.ch
      let s1 := (s.endCal c).modTdc c.ch (fun t =>
        { t with calOfs := mean, calInternal := if c.path = .internal then mean else t.calInternal })
      let ext := if c.path = .internal then 0 else mean - t.calInternal
      .next (complete s1 c.src 0x0108 .ok (layout [(8, twos 64 mean), (8, twos 64 ext)]))

end Sys2Proof.Machine
end

