-- ==== Sys2Proof/Machine/Links.lean ====
section
/-! DEFINITION. Dexora ports (chapter 5, R25, R428 to R430, R483 to R485, R505): bring-up and the key exchange, timing flits,
round trips, the servo that moves the replica, retry, and the ways in which a port goes down. -/

set_option linter.unusedVariables false

namespace Sys2Proof.Machine

/-! ## Times that count ticks -/

/-- The full 80-bit HT: whole nanoseconds and 16 bits of fraction (R33, R34). -/
def State.now16 (s : State) : Nat := s.time.ht48 / 2 ^ 32

/-- Move an HT by a step. -/
def moveHt (d : Int) (t : HT) : HT := ((t : Int) + d).toNat

/-- HT moves by `d` ns between two ticks (R36, R37). The times at which the block next acts by counting ticks keep their distance;
strike times and effective HTs stay as given. -/
def State.moveTime (s : State) (d : Int) : State :=
  let f := moveHt d
  { s with
    time := { s.time with ht48 := ((s.time.ht48 : Int) + d * 2 ^ 48).toNat, synBack := s.time.synBack.map f }
    ports := s.ports.map (fun e => (e.1, { e.2 with
      exchStart := f e.2.exchStart, lastGood := f e.2.lastGood, lastTiming := f e.2.lastTiming, rttAt := f e.2.rttAt
      replayAt := e.2.replayAt.map f, replay := e.2.replay.map (fun r => (r.1, f r.2)), slotPeriod := f (512 * e.2.slotPeriod) / 512, lastClaim := e.2.lastClaim.map f
      sentTx := e.2.sentTx.map (fun x => (x.1, ((x.2 : Int) + d * 65536).toNat))
      echoes := e.2.echoes.map (fun x => (x.1, ((x.2 : Int) + d * 65536).toNat)), phases := [], lastPeriod := none }))
    tsrc := { s.tsrc with lastUpdate := f s.tsrc.lastUpdate, plumb := s.tsrc.plumb.map (fun x => { x with start := f x.start }) }
    tdc := { s.tdc with ch := s.tdc.ch.map (fun e => (e.1, { e.2 with gateHt := f e.2.gateHt })), cal := s.tdc.cal.map (fun x => { x with start := f x.start }) }
    docket := { s.docket with pos := s.docket.pos.map (fun e => (e.1, { e.2 with
      fallAt := e.2.fallAt.map f, lastRise := e.2.lastRise.map f, changedAt := e.2.changedAt.map f })), lnTick := f s.docket.lnTick }
    sync := { s.sync with queue := s.sync.queue.map (fun u => { u with arrived := f u.arrived }) }
    pwr := { s.pwr with
      groups := s.pwr.groups.map (fun e => (e.1, { e.2 with restartAt := e.2.restartAt.map f, intervalAt := f e.2.intervalAt }))
      onTimes := s.pwr.onTimes.map f, run := s.pwr.run.map (fun r => { r with since := r.since.map f }) }
    pair := { s.pair with
      lastRenew := s.pair.lastRenew.map f, lastClaim := s.pair.lastClaim.map f, lastNewClaim := s.pair.lastNewClaim.map f
      chordRenewAt := f s.pair.chordRenewAt, chordDownAt := s.pair.chordDownAt.map f, gLastRenew := f s.pair.gLastRenew
      leaseEnd := s.pair.leaseEnd.map f }
    scriv := { s.scriv with watchdog := f s.scriv.watchdog, restartAt := f s.scriv.restartAt
                            fwds := s.scriv.fwds.map (fun x => { x with sentAt := f x.sentAt }) }
    boot := { s.boot with stage3At := f s.boot.stage3At }
    tiles := s.tiles.map (fun e => (e.1, { e.2 with idleSince := f e.2.idleSince }))
    test := { s.test with runs := s.test.runs.map (fun r => { r with started := f r.started }) }
    jm := { s.jm with chans := s.jm.chans.map (fun e => (e.1, { e.2 with
      lastRec := e.2.lastRec.map f, recent := e.2.recent.map (fun r => (r.1, r.2.1, f r.2.2))
      lastRefresh := f e.2.lastRefresh, lastMr4 := f e.2.lastMr4, lastZq := f e.2.lastZq })) }
    dpll := { s.dpll with
      refs := s.dpll.refs.map (fun e => (e.1, { e.2 with wtrStart := e.2.wtrStart.map f, lastEdge := f e.2.lastEdge, lastPps := f e.2.lastPps, lastReport := f e.2.lastReport }))
      disp := s.dpll.disp.map (fun e => (e.1, { e.2 with agreeSince := e.2.agreeSince.map f }))
      settleStart := s.dpll.settleStart.map f, openAt := f s.dpll.openAt, lastMsg := f s.dpll.lastMsg, tempAt := f s.dpll.tempAt
      cfgBusyUntil := f s.dpll.cfgBusyUntil, holdEntry := s.dpll.holdEntry.map f, fcwLog := s.dpll.fcwLog.map (fun e => (f e.1, e.2))
      msgSec := s.dpll.msgSec.map (fun e => (e.1, f e.2)) } }

/-! ## Delays and sources (R138, R143, R144, R148) -/

/-- The delay of what arrives on a port (R138, R407): RTT_EST ÷ 2 + A from the parent, − A from the child. -/
def State.inDelay (s : State) (p : Nat) : Int :=
  let o := s.port p
  if s.childEnd p then o.rtt / 2 + o.asym else o.rtt / 2 - o.asym

/-! ## A port goes down (R130, R505) -/

/-- R505: lk_phy_rdy or a bit of lk_rx_lock falls. -/
def execPhyDown (p : Nat) (s : State) : Out :=
  if s.params.hasPort p then
    .next ((s.portDown p false .ok).modPort p (fun o => { o with phyRdy := false, rxLock := 0 }))
  else .next s

/-! ## Bring-up (R25, R540) -/

/-- The power domain of a port (Table 16.6); a Leaf's ports are always on. -/
def State.portPowered (s : State) (p : Nat) : Bool :=
  if !s.isHub then true else if 288 ≤ p then (s.dom 76).on else (s.dom (64 + p / 24)).on

/-- lk<n>_phy_rst_n of a port (Table 21.2): 0 while the port is fenced or its power domain is off. -/
def State.phyRstN (s : State) (p : Nat) : Bool := !s.portFenced p && s.portPowered p

/-- The identity fields that this block sends on a port (R25). A chord port Cn sends n, its number in Table 1.4; the manual does not say whether it
sends n or 288 + n (DESIGN CHOICE, log 94). -/
def State.ownIdent (s : State) (p : Nat) : Ident :=
  { hub := s.isHub, config := s.params.configCode, tier := s.tier
    pairId := if s.isHub then s.boot.cfg.pairId else s.boot.pairId
    pos := if s.isHub then s.boot.cfg.pos else 0, port := if s.params.isChord p then p - 288 else p }

/-- Down ports and up ports of a Hub by its CONFIG code (Table 0.5). -/
def hubPorts (config : Nat) : Nat × Nat := if config = 3 then (256, 32) else (128, 16)

/-- Whether a count of up-groups toward one upper Hub is permitted (R22): 1, 2, 4, and 8 under a lower Hub-64 (CONFIG 3). -/
def kOk (k config : Nat) : Bool := k == 1 || k == 2 || k == 4 || (k == 8 && config == 3)

/-- The peers known on other ports whose bring-up has passed the identities. -/
def State.peersBut (s : State) (p : Nat) : List (Nat × Ident) :=
  s.params.portList.filterMap (fun q => if q != p && decide ((s.port q).bring ≠ .down) && decide ((s.port q).bring ≠ .locking) then (s.port q).peer.map (fun i => (q, i)) else none)

/-- Whether a peer's identity is one that Table 1.4 permits on a port, with the port number of Table 1.1 or R19. A block of 4k down ports
belongs to one child pair, and a child pair to one block (R22, R23). -/
def State.peerOk (s : State) (p : Nat) (i : Ident) : Bool :=
  let cfg := s.boot.cfg
  if !s.isHub then
    i.hub && i.tier == 1 && i.pos == p && decide (i.port < (hubPorts i.config).1) &&
      (!s.boot.placeValid || (i.pairId == s.boot.pairId && i.port == s.boot.leafIndex))
  else if s.params.isChord p then
    i.hub && i.config == s.params.configCode && i.tier == cfg.tier && i.pairId == cfg.pairId && i.pos + cfg.pos == 1 && i.port == p - 288
  else if s.params.isDown p then
    if cfg.tier ≤ 1 then !i.hub && i.port == cfg.pos
    else
      let k := cfg.kGroups
      let (d, u) := hubPorts i.config
      let r := p % (4 * k)
      i.hub && i.tier + 1 == cfg.tier && kOk k i.config && i.pos == r / (2 * k) && i.port == d + u / 2 * cfg.pos + r % (2 * k) &&
        (s.peersBut p).all (fun e => !s.params.isDown e.1 || decide (e.1 / (4 * k) = p / (4 * k)) == (e.2.pairId == i.pairId))
  else
    let k := cfg.kUp
    let half := s.params.upPorts / 2
    let r := (p - s.params.downPorts) % half
    !cfg.top && i.hub && i.tier == cfg.tier + 1 && kOk k s.params.configCode && i.pos == (p - s.params.downPorts) / half && decide (r < 2 * k) &&
      decide (i.port < (hubPorts i.config).1) && i.port % (4 * k) == 2 * k * cfg.pos + r &&
      (s.peersBut p).all (fun e => !s.params.isUp e.1 || (e.2.pairId == i.pairId && e.2.port / (4 * k) == i.port / (4 * k)))

/-- The stored asymmetry of a port between this block's identity and a peer's (R141). -/
def State.storedAsym (s : State) (p : Nat) (i : Ident) : Option Int :=
  (s.flash.asyms.find? (fun e => e.1 == p && e.2.1 == s.ownIdent p && e.2.2.1 == i)).map (·.2.2.2)

/-- Set a port's A and CALIBRATED; every change of the A of a port that brings time puts the servo in Pull (R145). -/
def State.setAsym (s : State) (p : Nat) (a : Int) (cal : Bool) : State :=
  let ch := decide ((s.port p).asym ≠ a) && (s.params.isUp p || s.params.isChord p)
  let s1 := s.modPort p (fun o => { o with asym := a, calibrated := cal })
  { s1 with tsrc := { s1.tsrc with asymChanged := s1.tsrc.asymChanged || ch } }

/-- R540 step 1: the PHY is ready and locked: bring-up of a port starts. It does not on a fenced port, on one under test, in a group whose power is off,
before the ports' stage of Table 20.4, in recovery or unconfigured; without keys the port is held with AUTH_FAIL (R423). -/
def execPortBringUpStart (p : Nat) (s : State) : Out :=
  if !s.params.hasPort p then .next s
  else
    let s1 := s.modPort p (fun o => { o with phyRdy := true, rxLock := 3 })
    let o := s.port p
    if decide (o.bring ≠ .down) || s.portFenced p || s.test.runs.any (fun r => unitVal r.unit == s.portUnit p) || !s.portPowered p || decide (s.boot.stage < 5 ∨ 8 ≤ s.boot.stage) then .next s1
    else if !s.sec.keysValid then .next (s1.modPort p (fun o => { o with held := true, authFail := true }))
    else .next ((s1.modPort p (fun o => { o with bring := .locking, held := false })).send p (.bringUp (s.ownIdent p)))

/-- R25, R130, R141, R540: a bring-up flit with a good CRC. A port that is up goes down with RETRY_DOWN. Otherwise the identity is
checked: a mismatch holds the port down and is recorded; a match sets the peer, the Leaf's place and the stored A. -/
def execBringUpFlitReceive (p : Nat) (i : Ident) (s : State) : Out :=
  if !s.params.hasPort p then .next s
  else if (s.port p).up then .next (s.portDown p true .ok)
  else if (s.port p).bring ≠ .locking then .next s
  else if !s.peerOk p i then
    .next (((s.holdPort p).modPort p (fun o => { o with peerMismatch := true })).record { event := 0x0200, unit := s.portUnit p })
  else
    let s1 := if s.isHub then s
      else { s with boot := { s.boot with leafIndex := i.port, pairId := i.pairId, placeValid := true } }
    let keep := s1.flash.asyms.filter (fun e => e.1 != p || (e.2.1 == s1.ownIdent p && e.2.2.1 == i))
    let s2 := { s1 with flash := { s1.flash with asyms := keep } }
    let s3 := match s1.storedAsym p i with
      | some a => s2.setAsym p a true
      | none => s2.setAsym p 0 false
    .next (s3.modPort p (fun o => { o with peer := some i, bring := .waiting, lastGood := s.htNs }))

/-! ## The key exchange (R428 to R430) -/

/-- The ports whose exchange runs. -/
def State.exchanging (s : State) : List Nat := s.params.portList.filter (fun p => (s.port p).bring == BringUp.exchanging && (s.port p).keys.isNone)

/-- R428, R540 step 2: the lowest port that waits starts its exchange while fewer than 4 run: a nonce and a share are drawn. -/
def execKeyExchangeStart (p : Nat) (s : State) : Out :=
  let first := s.params.portList.find? (fun q => decide ((s.port q).bring = .waiting))
  if first = some p ∧ s.exchanging.length < 4 then
    let nonce := Config.freeRandom s.freeCtr
    let priv := Config.freeRandom (s.freeCtr + 1)
    .next (({ s with freeCtr := s.freeCtr + 2 }.modPort p (fun o => { o with bring := .exchanging, nonce := nonce, share := priv, exchStart := s.htNs })).send p
      (.exchange nonce (Config.pubOf priv)))
  else .next s

/-- The number of the first check of R428 that a peer fails; in the exchange of a pair its identity is checked too (R430). -/
def State.exchangeFail (s : State) (pair : Bool) (x : Exchange) : Option Nat :=
  if !x.chainOk then some 1
  else if !x.reportOk then some 2
  else if !x.userDataOk then some 3
  else if x.ownerDigest ≠ s.boot.cfg.ownerDigest then some 4
  else if x.fwSvn < s.scriv.minSvn then some 5
  else if pair = true ∧ ¬ (x.ident.pairId = s.boot.cfg.pairId ∧ x.ident.pos + s.boot.cfg.pos = 1) then some 6
  else none

/-- The full mirror of Table 17.2, in the order in which a primary sends it (R414); the journal copies follow it. -/
def State.fullMirror (s : State) : List MirrorMsg :=
  [.status s.time.word, .taiNow { ofs := s.time.ofs, utc := s.time.utc, leap := s.time.leap, eff := 0 } s.time.seq s.time.taiValid, .taiMap s.time.pend,
   .holdoverEntry s.dpll.holdEntry, .phaseTarget s.dpll.phaseTarget, .dpllMode s.dpll.mode s.dpll.modeRef, .refConfig s.dpll.cfg] ++
  (List.range 4).map (fun n => MirrorMsg.refState n (s.ref n).qualified (s.dpll.disp.any (fun e => (e.1 / 4 == n || e.1 % 4 == n) && e.2.marked)) (s.ref n).disq (s.ref n).wtrStart) ++
  allPairs.map (fun k => MirrorMsg.dispute k (s.dpll.disp.get {} k).marked) ++
  (s.ctx.filter (fun e => e.2.open_)).map (fun e => MirrorMsg.ctxInstall { slot := e.1, gen := e.2.lastGen, radio := e.2.radio, enc := e.2.enc, tenantKeyed := e.2.tenantKeyed, key := Config.wrap s.pair.pairKey e.2.key, span := e.2.tier, mask := some (s.kidMask e.2.ports) }) ++
  (s.ctx.filter (fun e => e.2.open_ && !e.2.leaves.isEmpty)).map (fun e => MirrorMsg.ctxLeaves e.1 e.2.lastGen e.2.leaves) ++
  s.sync.hbars.flatMap (fun e => match e.2 with
    | some b => MirrorMsg.barrierDef (e.1 / 64) b.gen b.d (b.completed - (b.insts.filter (fun i => i.s.isSome)).length) :: b.insts.flatMap (fun i =>
        i.arrived.map (fun k => MirrorMsg.barrierArrival (e.1 / 64) b.gen b.d.id i.n k (some (i.ds.get 0 k))) ++
        (match i.h with | some h => [MirrorMsg.barrierH (e.1 / 64) b.gen b.d.id i.n h] | none => []) ++
        (match i.s with | some t => [MirrorMsg.barrierRelease (e.1 / 64) b.gen b.d.id i.n t] | none => []))
    | none => []) ++
  s.coll.hub.flatMap (fun e => match e.2 with
    | some p => [MirrorMsg.collPlan p.desc p.w, .counters (e.1 / 512) (dGen p.desc) (e.1 % 512) 0 p.sent.toNat p.committed.toNat]
    | none => []) ++
  s.sched.shape.map (fun e => MirrorMsg.shape e.1 (s.slot e.1).lastGen e.2.weight e.2.rate e.2.burst) ++
  [.radioSlots s.sched.radioSlots 0, .radioTiles s.sched.radioTiles 0] ++
  (match s.sched.slotsPend with | some (v, e) => [MirrorMsg.radioSlots v e] | none => []) ++
  (match s.sched.tilesPend with | some (v, e) => [MirrorMsg.radioTiles v e] | none => []) ++
  [.fenceMap s.flt.tilesMap s.flt.portsMap s.flt.chordMap] ++
  s.tiles.map (fun e => MirrorMsg.tileHist e.1 e.2.state e.2.events) ++
  s.hm.manifests.filterMap (fun e => e.2.map (fun m => MirrorMsg.manifest (e.1 / 256) (s.slot (e.1 / 256)).lastGen m.1 m.2)) ++
  s.scriv.completions.map (fun c => MirrorMsg.completion c.block c.m c.seq c.code c.results) ++
  [.lease s.pair.epoch, .fullDone]

/-- The mirror of a Hub that is not primary is discarded (R404, R414, R456): contexts with their LAST_GEN kept, barriers, plans, result
copies, shadow records, manifests, settings of contexts, completion records, and what it heard over the chord. -/
def State.discardMirror (s : State) : State :=
  let s1 := s.coll.hub.foldl (fun s e => match e.2 with | some p => s.reserve p.ret false | none => s) s
  { s1 with
    ctx := s1.ctx.map (fun (e : Nat × Ctx) => (e.1, { e.2 with open_ := e.2.open_ && e.2.clearing, clearReq := false, key := 0, ports := [], leaves := [], spanHere := false, closing := none, ackTo := none }))
    sync := { s1.sync with hbars := [] }
    coll := { s1.coll with hub := [], chunks := [], copies := [] }
    hm := { s1.hm with shadows := [], manifests := [] }
    sched := { s1.sched with shape := [] }
    scriv := { s1.scriv with completions := [], seen := s1.scriv.seen.filter (fun e => !s1.params.isChord e.port) }
    pair := { s1.pair with mirRefs := [], mirHold := none, mirDisp := [], mirTarget := 0 } }

/-- The Hub takes role Syncing without a mirror (R404, R414). -/
def State.toSyncing (s : State) : State :=
  let t := s.discardMirror
  { t with pair := { t.pair with role := .syncing, mirrorDone := false, solo := false, since := s.htNs } }

/-- This Hub's part of the pair exchange that runs goes out over C0. -/
def State.sendPairEx (s : State) : State :=
  match s.pair.pairEx with
  | some (n, priv) => s.send 288 (.exchange n (Config.pubOf priv))
  | none => s

/-- The exchange of a pair begins at this Hub (R430): a nonce and a share are drawn. -/
def State.pairExchange (s : State) : State :=
  ({ s with pair := { s.pair with pairEx := some (Config.freeRandom s.freeCtr, Config.freeRandom (s.freeCtr + 1)) }, freeCtr := s.freeCtr + 2 }).sendPairEx

/-- The Hub enters Syncing with its chord up: the pair exchange begins (R430). -/
def State.enterSyncing (s : State) : State := if s.chordUp.isEmpty then s.toSyncing else s.toSyncing.pairExchange

/-- The primary rebuilds its other Hub's mirror (R413, R414, R456): SOLO until the rebuild is complete, and the pair exchange, after which the
full mirror follows. -/
def State.rebuild (s : State) : State :=
  ({ s with pair := { s.pair with solo := true, peerRole := .syncing } }).pairExchange

/-- The full mirror goes out over the chord. -/
def State.sendMirror (s : State) : State := s.fullMirror.foldl (fun s m => s.sendChord (.mirror m)) s

/-- The chord comes up (R413, R414): a primary rebuilds the mirror of its other Hub; another Hub goes to Syncing when its other Hub
may hold role Primary. -/
def State.chordUpNow (s : State) : State :=
  let s1 := { s with pair := { s.pair with chordDownAt := none } }
  match s.pair.role with
  | .primary =>
    if s.pair.peerRole = .isolated then s1 else s1.rebuild
  | .partner => s1.enterSyncing
  | .claiming => if s.pair.peerRole = .primary then s1.enterSyncing else s1
  | .syncing => s1.pairExchange
  | .isolated => s1

/-- Bring-up of a port is complete (R540): UP, fresh credits and sequence numbers; the first timing flit leaves in the next period
(R125, R540). -/
def State.portComplete (s : State) (p : Nat) : State :=
  let first := s.params.isChord p && s.chordUp.isEmpty
  let s1 := s.modPort p (fun o => { o with
    bring := .complete, up := true, everUp := true, held := false, lastGood := s.htNs, lastTiming := s.htNs, rttAt := s.htNs
    timingRun := 0, nSamples := 0, samples := [], stepRun := [], lostTiming := false
    creditCtl := Config.initialCredit 1, creditRadio := Config.initialCredit 2, creditTen := Config.initialCredit 3
    lastPeriod := some (s.htNs / 512) })
  (if first then s1.chordUpNow else if p = 288 then s1.sendPairEx else s1).flushUp

/-- Ports toward children whose exchange has passed complete once VALID is 1 (R483). -/
def State.completeWaiting (s : State) : State :=
  if s.time.valid then
    s.params.portList.foldl (fun s p => if s.params.isDown p && !(s.port p).up && (s.port p).keys.isSome then s.portComplete p else s) s
  else s

/-- A peer has failed check `n` of an exchange: the port is held down with AUTH_FAIL, and a record of event 0x0911 is written (R428). -/
def State.exchangeFailed (s : State) (p n : Nat) : State :=
  let s1 := (s.holdPort p).modPort p (fun o => { o with authFail := true })
  { s1 with sec := { s1.sec with peerFail := true } }.record { event := 0x0911, unit := s.portUnit p, code := St.auth.val, syn := [BitVec.ofNat 8 n] }

/-- PRK of an exchange (R429): the nonce of the parent comes first. -/
def State.prk (s : State) (p priv nonce : Nat) (x : Exchange) : Nat :=
  Config.hkdf (Config.ecdh priv x.share) "Extract" (if s.childEnd p then [x.nonce, nonce] else [nonce, x.nonce])

/-- The other Hub's data of a pair exchange arrive over C0 (R430). A Syncing Hub, or a primary whose other Hub has entered Syncing, that
runs none joins it. The pair key follows, and from the primary the full mirror. -/
def State.pairExReceive (s : State) (x : Exchange) (peerPassed : Bool) : State :=
  let s1 := if s.pair.pairEx.isSome then s
    else match s.pair.role with
      | .syncing => s.pairExchange
      | .primary => if s.pair.peerRole = .isolated then s else s.rebuild
      | _ => s
  match s1.pair.pairEx with
  | none => s1
  | some (n, priv) =>
    match s1.exchangeFail true x with
    | some k => ((s1.portDown 288 false .auth).exchangeFailed 288 k)
    | none =>
      let s2 := { s1 with pair := { s1.pair with pairEx := none } }
      if !peerPassed then s2
      else
        let s3 := { s2 with pair := { s2.pair with pairKey := Config.hkdf (s.prk 288 priv n x) "DXPR" [], peerMirrorVer := x.mirrorVer } }
        if s3.isPrimary then s3.sendMirror else s3

/-- R428 to R430, R540: the peer's data of the exchange. A failed check holds the port down with AUTH_FAIL; when both ends pass, the
port keys and salts are derived and bring-up completes, toward a child only while VALID is 1. -/
def execKeyExchangeReceive (p : Nat) (x : Exchange) (peerPassed : Bool) (s : State) : Out :=
  let o := s.port p
  if s.isHub && p == 288 && o.up then .next (s.pairExReceive x peerPassed)
  else if !s.params.hasPort p || decide (o.bring ≠ .exchanging) || o.keys.isSome then .next s
  else
    match s.exchangeFail false x with
    | some n => .next (s.exchangeFailed p n)
    | none =>
      if !peerPassed then .next (s.modPort p (fun o => o.cleared))
      else
        let prk := s.prk p o.share o.nonce x
        let s1 := s.modPort p (fun o => { o with
          keys := some { down := Config.hkdf prk "DXDN" [], up := Config.hkdf prk "DXUP" [], saltDown := Config.hkdf prk "DXSD" [] % 2 ^ 32
                         saltUp := Config.hkdf prk "DXSU" [] % 2 ^ 32, wrap := Config.hkdf prk "DXKW" [] }
          peerNonce := x.nonce, share := 0 })
        let s2 := if s.params.isChord p then { s1 with pair := { s1.pair with peerMirrorVer := x.mirrorVer } } else s1
        if s.params.isDown p && !s.time.valid then .next s2 else .next (s2.portComplete p)

/-! ## Timing flits (R123 to R128, R136, R139, R143) -/

/-- The timing flit of a period (Table 5.3), its transmit timing point in slot 0 at HT and `k` bits of the word's lanes further (R126): TX_HT is
the full 80-bit HT, in units of 2⁻¹⁶ ns. It echoes the latest flit whose RX stamp lies at least 100 ns before that point. -/
def State.timingBody (s : State) (p k : Nat) : TimingBody :=
  let t := s.now16 + k % 128 * 512
  let e := (s.port p).echoes.reverse.find? (fun x => decide (x.2 + 6553600 ≤ t))
  { txHt := t, echoTx := (e.map (·.1)).getD 0, echoDwell := (e.map (fun x => (t - x.2) / 256)).getD 0, status := s.time.word
    primary := s.isPrimary, stepCnt := s.time.stepCnt, epoch := if s.isHub then s.pair.epoch else 0 }

/-- Bytes 12 to 243 of a timing flit (Table 5.3). -/
def TimingBody.bytes (b : TimingBody) : List Byte :=
  le 10 b.txHt ++ le 10 b.echoTx ++ le 4 b.echoDwell ++ le 1 (b.status.val + 8 * b2n b.primary) ++ le 1 b.stepCnt ++ le 4 b.epoch ++ List.replicate 202 0

/-- R123 to R126, R128: slot 0 of a period: the port's timing flit takes the line, bit 0 of it at bit `k` of its word. -/
def execTimingFlitSend (p k : Nat) (s : State) : Out :=
  let o := s.port p
  let period := s.htNs / 512
  if s.params.hasPort p && o.up && decide (o.lastPeriod ≠ some period) then
    let b := s.timingBody p k
    let l := o.sentTx ++ [(b.txHt, b.txHt)]
    .next ((s.modPort p (fun o => { o with
      lastPeriod := some period, slotPeriod := period, slotNo := 0, lineAcc := 0, sentTx := l.drop (l.length - 16) })).putFlit p (s.mkFlit p (some (.timing b))) false)
  else .next s

/-- The mean of samples, in whole units. -/
def meanOf (l : List Int) : Int := l.sum / max 1 (l.length : Int)

/-- Give a port a new RTT_EST; above 3,400 ns the port is SUSPECT and a record is formed (R137). -/
def State.setRtt (s : State) (p : Nat) (r : Int) : State :=
  let s1 := s.modPort p (fun o => { o with rtt := r })
  if 870400 < r then (s1.modPort p (fun o => { o with suspect := true })).record { event := 0x0205, unit := s.portUnit p } else s1

/-- A round-trip sample (R135, R136): 16 in a row that differ by more than 0.30 ns in one direction replace the estimate. -/
def State.rttSample (s : State) (p : Nat) (r : Int) : State :=
  let o := s.port p
  let d := r - o.rtt
  let run := if 77 ≤ d.natAbs ∧ (match o.stepRun.head? with | some x => decide (0 < x - o.rtt) == decide (0 < d) | none => true) = true then o.stepRun ++ [r]
    else if 77 ≤ d.natAbs then [r] else []
  let s1 := s.modPort p (fun o => { o with nSamples := o.nSamples + 1, samples := o.samples ++ [r], stepRun := run })
  if run.length = 16 then
    (s1.modPort p (fun o => { o with rttStep := true, suspect := true, stepRun := [] })).record { event := 0x0203, unit := s.portUnit p } |>.setRtt p (meanOf run)
  else s1

/-- The tile events that the Daybook holds of a tile since it last returned to service, by HT (R322, R331). Once HT is valid for the first
time, a record written while VALID was 0 counts as if written then, and only those within 24 h of it count. -/
def State.tileHistory (s : State) (t : Nat) (first : Option HT) : List HT :=
  let at_ (r : DbRec) : HT := match first with | some h => if bit r.cls 7 then r.ht else h | none => r.ht
  let near (x : HT) : Bool := match first with | some h => decide (x < h + dayNs ∧ h < x + dayNs) | none => true
  ((s.flash.daybook ++ s.flt.buf).foldl (fun l r =>
    if r.unit != s.tileUnit t then l
    else if r.event == 0x0507 then []
    else if r.event == 0x0500 || r.event == 0x0501 || r.event == 0x0503 then l ++ [at_ r]
    else l) []).filter near

/-- Firmware rebuilds the history of every tile at the first valid HT (R322). -/
def State.rebuildHistories (s : State) : State :=
  (List.range s.params.tiles).foldl (fun s t =>
    let h := s.tileHistory t (some s.htNs)
    if (s.tile t).events = h then s else s.modTile t (fun x => { x with events := h })) s

/-- The first load of HT from a timing flit (R38, R484): HT becomes TX_HT plus the delay and what has passed since the RX stamp;
VALID is 1 and STEP_CNT stays. -/
def State.firstLoad (s : State) (p : Nat) (b : TimingBody) (rxStamp : Nat) : State :=
  let t : Int := (b.txHt : Int) + s.inDelay p * 256 + ((s.now16 : Int) - rxStamp)
  let d := t / 65536 - (s.htNs : Int)
  let s1 := s.moveTime d
  let s2 := { s1 with time := { s1.time with ht48 := (t * 2 ^ 32).toNat, valid := true }, boot := { s1.boot with stage := max 6 s1.boot.stage } }
  s2.rebuildHistories.completeWaiting

/-- Whether a port is a time-source port of the first load: one toward the block's own parent, or in the top pair a chord port that
carries PRIMARY (R38, R483, R484). -/
def State.loadPort (s : State) (p : Nat) (b : TimingBody) : Bool :=
  if s.isTop then s.params.isChord p && b.primary else s.params.isUp p

/-- The averaged chord phase error (R407). -/
def State.chordE (s : State) : Int := meanOf (s.slavePorts.map (fun p => (s.port p).phase))

/-- Take the output and the channel of a Plumb commissioning at this end (R114, R140). -/
def State.plumbTake (s : State) (r : PlumbRun) (po ch : Nat) : State :=
  let s1 := s.takeCal po ch
  { s1 with tsrc := { s1.tsrc with plumb := some r } }

/-- Whether an end of a Plumb commissioning can start, by the rules of R115; ST_BUSY while another commissioning runs (Table 5.6). -/
def State.plumbCheck (s : State) (po ch : Nat) : Option St := s.calCheck po ch s.tsrc.plumb.isSome

/-- What this end of a commissioning found (R140): the mean of step 2 and the external-path delay of step 1, both less the internal-path CAL_OFS of the
channel, which the commissioning does not change (DEDUCED from the worked example, log 93). -/
def State.plumbMeans (s : State) (r : PlumbRun) : Int × Int :=
  (countMean r.got - (s.tdcCh r.mine.2).calInternal, countMean r.ext - (s.tdcCh r.mine.2).calInternal)

/-- The end of a Plumb commissioning at this end: its resources are free again. -/
def State.plumbDrop (s : State) : State :=
  match s.tsrc.plumb with
  | none => s
  | some r =>
    let s1 := s.freeCal r.mine.1 r.mine.2
    { s1 with tsrc := { s1.tsrc with plumb := none } }

/-- A Plumb commissioning of this child end fails with a code; A is unchanged. -/
def State.plumbFails (s : State) (code : St) : State :=
  match s.tsrc.plumb with
  | some r =>
    (match r.src with
     | some src => (complete s.plumbDrop src 0x0109 code []).send r.args.port (.plumb (.plumbEnd none))
     | none => s)
  | none => s

/-- A commissioned A is stored in flash, keyed by both ends' identities (R141). -/
def State.storeAsym (s : State) (p : Nat) (a : Int) : State :=
  let s1 := (s.setAsym p a true).modPort p (fun o => { o with suspect := false })
  match (s.port p).peer with
  | some i => { s1 with flash := { s1.flash with asyms := s1.flash.asyms.filter (fun e => e.1 != p) ++ [(p, s.ownIdent p, i, a)] } }
  | none => s1

/-- A contributor or an originator sees PRIMARY from a Hub of a newer epoch (R412, R462): what it retains and what it forwarded is
sent again. -/
def State.seeEpoch (s : State) (p : Nat) (b : TimingBody) : State :=
  if s.params.isUp p && b.primary && newerEpoch b.epoch s.pair.seenEpoch && b.epoch != s.pair.seenEpoch then
    let s1 := if !s.isHub && (match s.tsrc.plumb with | some r => r.src.isSome | none => false) && s.pair.seenEpoch != 0 then s.plumbFails .busy else s
    ({ s1 with pair := { s1.pair with seenEpoch := b.epoch } }).resendAll.resendForwards
  else s

/-- R485: a Hub that is not primary and finds itself more than 1,000 ns off its primary resets itself: SELF_RESET and a record of
event 0x0930, which reaches flash first. -/
def State.selfReset (s : State) : State :=
  let s1 := s.record { event := 0x0930 }
  let s2 := (s1.storeRecords s1.flt.buf.length).afterReset
  { s2 with boot := { s2.boot with selfReset := true } }

/-- The HT of a sampled edge, in units of 2⁻¹⁶ ns: HT now less the time that has passed since the sample, which is in units of 7.8125 ps (R105, R127). -/
def State.sampleHt (s : State) (sample : Nat) : Int :=
  (s.now16 : Int) - ((s.tdc.coarse * 32768 + s.tdc.busFrac / 2 ^ 41 : Nat) - (sample * 512 : Nat) : Int)

/-- The RX stamp of a flit in units of 2⁻¹⁶ ns (R126, R127): the HT of the recovered-clock edge that presents its word, `n` periods of 1 ns of that
clock after the port's sample, and `k` bits of the word's lanes further. In a Leaf the sample is the latest stamp of TDC channel 0 or 1 (R111). -/
def State.rxStamp (s : State) (p sample n k : Nat) : Nat :=
  let v := if s.isHub then sample else ((s.tdcCh p).sample).getD sample
  (s.sampleHt v + n * 65536 + k % 128 * 512).toNat

/-- R126, R136, R139, R143, R38, R412: a timing flit arrives; the operands say how its RX stamp is formed. One whose tag fails counts as missing
(R133), and so does a slot without one: 16 valid flits regain timing only when no slot between them was missed. -/
def execTimingFlitReceive (l : Link) (b : TimingBody) (sample n k : Nat) (s : State) : Out :=
  let p := l.port
  if !s.params.hasPort p || !(s.port p).up then .next s
  else if !b.authOk then
    .next (s.modPort p (fun o => { o with authFail := true, authFails := (o.authFails + 1) % 65536, lastGood := s.htNs, timingRun := 0 }))
  else if !((s.takeHeader l).port p).up then .next (s.takeHeader l)
  else
    let s := s.takeHeader l
    let o := s.port p
    let rx := s.rxStamp p sample n k
    let e := o.echoes ++ [(b.txHt, rx)]
    let s1 := s.modPort p (fun o => { o with
      lastGood := s.htNs, lastTiming := s.htNs, timingRun := if o.lastTiming + 768 < s.htNs then 1 else satN 16 (o.timingRun + 1)
      peerPrimary := b.primary, peerEpoch := b.epoch, peerStatus := b.status, echoes := e.drop (e.length - 2) })
    let s2 := match (if b.echoTx = 0 then none else o.sentTx.find? (fun x => x.1 == b.echoTx)) with
      | some g => s1.rttSample p (((rx : Int) - g.2) / 256 - b.echoDwell)
      | none => s1
    let o2 := s2.port p
    let lost := o2.lostTiming && decide (o2.timingRun < 16)
    let usable := decide (16 ≤ o2.nSamples) && !lost
    let s3 := s2.modPort p (fun o => { o with lostTiming := lost, timeUsable := usable })
    let fresh := usable && !o.timeUsable
    let s4 := if usable && !s.time.valid && s.loadPort p b then s3.firstLoad p b rx else s3
    let ph : Int := ((rx : Int) - b.txHt) / 256 - s4.inDelay p
    let s5 := if usable && s.time.valid then s4.modPort p (fun o => { o with phases := o.phases ++ [ph] }) else s4
    let s6 : State := if fresh then (let t := s5.chooseSource; { t with pair := { t.pair with chordLost := t.pair.chordLost && t.chordTime.isEmpty } }) else s5
    let s7 := (s6.seeEpoch p b).flushUp
    if fresh && s.time.valid && s.params.isChord p && !s.isPrimary && b.primary && decide (256000 < ph.natAbs) then .next s7.selfReset
    else .next s7.refreshWord

/-- R139, R409: 8 timing slots without a valid timing flit: the port loses timing. -/
def execPortTimingLoss (p : Nat) (s : State) : Out :=
  let o := s.port p
  if s.params.hasPort p && o.up && decide (o.lastTiming + 4096 ≤ s.htNs) && !(o.lostTiming && decide (o.timingRun = 0)) then
    let s1 := s.modPort p (fun o => { o with timeUsable := false, lostTiming := true, timingRun := 0, lostFrames := true, peerPrimary := false, source := false })
    .next ((s1.chooseSource.chordLoss).refreshWord)
  else .next s

/-- R130: no flit with a good CRC for 16,384 ns. -/
def execPortNoFlitTimeout (p : Nat) (s : State) : Out :=
  if s.params.hasPort p && (s.port p).up && decide ((s.port p).lastGood + 16384 ≤ s.htNs) then .next (s.portDown p true .ok) else .next s

/-- R137, R138: every 1,048,576 ns RTT_EST takes the mean of the interval's samples, when there are at least 1,024. -/
def execRttEstimateUpdate (p : Nat) (s : State) : Out :=
  let o := s.port p
  if s.params.hasPort p && o.up && decide (o.rttAt + 1048576 ≤ s.htNs) then
    let s1 := s.modPort p (fun o => { o with rttAt := s.htNs, samples := [] })
    .next (if 1024 ≤ o.samples.length then s1.setRtt p (meanOf o.samples) else s1)
  else .next s

/-! ## The servo (R142 to R148, R407) -/

/-- The correction of HT per tick that removes E ÷ 4 over the next 8,192 ns, at most 0.25 ns (R145), in units of 2⁻⁴⁸ ns. -/
def trackCorr (e : Int) : Int :=
  let c := e * 2 ^ 25
  let m : Int := 2 ^ 33
  Int.neg (if c > m then m else if c < -m then -m else c)

/-- The mode of a Leaf's servo at an update (R145). -/
def servoMode (m : ServoMode) (e : Int) (big : Nat) (asymChanged : Bool) : ServoMode :=
  if 256000 < e.natAbs then .recovery
  else match m with
    | .tracking => if 4 ≤ big ∨ asymChanged = true then .pull else .tracking
    | _ => if e.natAbs ≤ 64 then .tracking else m

/-- The phase errors of the interval become E_p (R143): the mean of at least 8. -/
def State.formE (s : State) : State :=
  let f (p : Nat) (o : PortSt) : PortSt :=
    { o with phase := if s.params.isDown p then 0 else if 8 ≤ o.phases.length then meanOf o.phases else o.phase, phases := [] }
  { s with ports := s.ports.map (fun x => (x.1, f x.1 x.2)) }

/-- The counts of R145 and R147 at an update with error `e`. -/
def State.servoCounts (s : State) (e : Int) (tracking recovery : Bool) : State :=
  let big := if 512 < e.natAbs then s.tsrc.bigRun + 1 else 0
  let good := if tracking && decide (e.natAbs ≤ 128) then s.tsrc.goodRun + 1 else 0
  { s with tsrc := { s.tsrc with bigRun := big, goodRun := good, errRec := e
                                 criteria := (s.tsrc.criteria || decide (64 ≤ good)) && !recovery && decide (big < 4) } }

/-- The servo of a Leaf acts on E of its source (R145 to R147): it steers the frequency word from the recovered clock, a free
value, and moves the phase. -/
def State.leafServo (s : State) : State :=
  match s.tsrc.source with
  | none => { s with tsrc := { s.tsrc with criteria := s.tsrc.criteria && !s.usableUp.isEmpty, goodRun := 0, bigRun := 0, servo := .tracking }, time := { s.time with corr := 0, slew := false } }
  | some p =>
    let e := (s.port p).phase
    let big := if 512 < e.natAbs then s.tsrc.bigRun + 1 else 0
    let m := servoMode s.tsrc.servo e big s.tsrc.asymChanged
    let s1 := s.servoCounts e (decide (m = .tracking)) (decide (m = .recovery))
    let corr := match m with
      | .tracking => trackCorr e
      | .pull => pullCorr s.tsrc.slope e
      | .recovery => pullCorr (100 * s.tsrc.recSlope) e
    let fcw := clampFcw (Config.freeLoop s.freeCtr)
    { s1 with tsrc := { s1.tsrc with servo := m, asymChanged := false }
              time := { s1.time with corr := corr, slew := decide (m ≠ ServoMode.tracking) }
              dpll := { s1.dpll with fcw := fcw, fcwTgl := if fcw = s.dpll.fcw then s.dpll.fcwTgl else !s.dpll.fcwTgl }
              freeCtr := s.freeCtr + 1 }

/-- The phase error of the up-servo of a lower Hub (R148): the mean of its up-groups, each the mean of its ports. -/
def State.upE (s : State) : Int :=
  match s.tsrc.source with
  | none => 0
  | some q =>
    let l := s.usableUp.filter (fun p => s.hubOf p == s.hubOf q)
    let grp (p : Nat) : Nat := (p - s.params.downPorts) / 2
    meanOf ((l.map grp).eraseDups.map (fun g => meanOf ((l.filter (fun p => grp p == g)).map (fun p => (s.port p).phase))))

/-- The input of a Hub's servo (R148, R407): the chord while slaved, else in a lower pair the upper Hub of its source. -/
def State.servoInput (s : State) : Option (Option Nat) :=
  if !s.slavePorts.isEmpty then some none
  else if s.isTop then none
  else s.tsrc.source.map (fun q => some (s.hubOf q))

/-- The input servo of a Hub (R59, R148, R407 to R410): the chord while slaved, else the up-groups of a lower pair; the average is
the phase input of the DPLL, whose loop gives a free correction of FCW. A change of input or of A is a switch: it starts a pull (R77),
and a Locked DPLL that is more than 10 ns off its new input goes to Acquiring (R89, R90). A pull that runs goes on toward the new error
(R78). Without either input a slaved DPLL has lost its input. -/
def State.hubServo (s : State) : State :=
  let inp := s.servoInput
  let s0 := { s with pair := { s.pair with chordPhase := if s.isPrimary || s.chordTime.isEmpty then 0 else meanOf (s.chordTime.map (fun p => (s.port p).phase)) } }
  if inp.isSome then
    let e := if inp = some none then s.chordE else s.upE
    let new := !s.dpll.uplinkInput || decide (inp ≠ s.tsrc.input)
    let s1 := (s0.servoCounts e true false)
    let s2 := if new then ({ s1 with dpll := { s1.dpll with uplinkInput := true, active := none } }).hist 2 else s1
    let s3 := { s2 with dpll := { s2.dpll with phaseErr := e }, tsrc := { s2.tsrc with input := inp, asymChanged := false }, freeCtr := s2.freeCtr + 1 }
    let s4 := (if new || s.tsrc.asymChanged || s.dpll.pull then s3.pullTo e else s3.aim e).fcwTo (s.dpll.fcw + Config.freeLoop s.freeCtr)
    let s5 := { s4 with time := { s4.time with slew := s4.dpll.pull } }
    if s.dpll.state = .freeRun ∨ s.dpll.state = .holdover ∨ s.dpll.state = .lost ∨ (s.dpll.state = .locked ∧ new = true ∧ 2560 < e.natAbs) then s5.enter .acquiring
    else s5
  else
    let s1 := { s0 with tsrc := { s0.tsrc with criteria := false, goodRun := 0, bigRun := 0, input := none } }
    if s.dpll.uplinkInput then
      ({ s1.stopPull with dpll := { s1.stopPull.dpll with uplinkInput := false } }).loseInput.reselect
    else s1

/-- R142: both ports of a Leaf time-usable and calibrated, and their errors more than 1.0 ns apart for 64 updates. -/
def State.plumbMismatch (s : State) : State :=
  let a := s.port 0
  let b := s.port 1
  let d := a.timeUsable && b.timeUsable && a.calibrated && b.calibrated && decide (256 < (a.phase - b.phase).natAbs)
  let n := if d then a.mismatchRun + 1 else 0
  let s1 := s.modPort 0 (fun o => { o with mismatchRun := n })
  if n = 64 then
    ((s1.modPort 0 (fun o => { o with plumbMismatch := true })).modPort 1 (fun o => { o with plumbMismatch := true })).record { event := 0x0204 }
  else s1

/-- Stage 7 of Table 20.4: a Leaf with HT has a time source; a Hub with HT holds or follows a lease. -/
def State.inServiceNow (s : State) : State :=
  if s.boot.stage = 6 ∧ s.time.valid = true ∧ (if s.isHub then decide (s.pair.role = .primary ∨ s.pair.role = .partner) else s.tsrc.source.isSome) = true then
    { s with boot := { s.boot with stage := 7 } }
  else s

/-- A Syncing Hub whose full mirror is applied takes role Partner once its chord servo meets its criteria (R414); the primary hears
of it. -/
def State.tryPartner (s : State) : State :=
  if s.isHub && decide (s.pair.role = .syncing) && s.pair.mirrorDone && !s.slavePorts.isEmpty && s.tsrc.criteria then
    let s1 := { s with pair := { s.pair with role := .partner, chordRenewAt := s.htNs, since := s.htNs } }
    (s1.sendChord (.mirror .fullDone)).refreshWord
  else s

/-- R143 to R148: every 8,192 ns E is formed, the source chosen and the replica moved. -/
def execServoUpdate (s : State) : Out :=
  if s.htNs < s.tsrc.lastUpdate + 8192 then .next s
  else
    let s1 := { s.formE with tsrc := { s.formE.tsrc with lastUpdate := s.htNs } }
    let s2 := s1.chooseSource
    if s.isHub then .next ((s2.hubServo).tryPartner.inServiceNow.refreshWord)
    else .next ((s2.plumbMismatch).leafServo.inServiceNow.refreshWord)

/-! ## Numbered flits and retry (R129, R130, R133) -/

/-- A save stops a contributor's instance (R358): it begins no new chunk; when final it drops what it retains. A lower pair passes
the order to its own contributors, and at the end writes what it holds. -/
def State.saveStopped (s : State) (c h id : Nat) (final : Bool) : State :=
  if s.isHub then
    match s.plan c h with
    | none => s
    | some p =>
      if final then
        let s1 := match s.writeSave c h id p with | some t => t | none => s
        (s1.dropInst c h).sendKids (s.planKids p.desc) (.saveStop c (dGen p.desc) h id true)
      else (s.modPlan c h (fun p => { p with saving := some (id, none) })).sendKids (s.planKids p.desc) (.saveStop c (dGen p.desc) h id false)
  else if final then
    match s.lcoll c h with
    | none => s
    | some x =>
      let s1 := x.chunks.foldl (fun s e => s.dropAcc e.2.panes) s
      s1.setLcoll c h (some { x with running := false, stopped := false, chunks := [] })
  else
    match s.lcoll c h with
    | none => s
    | some x =>
      let s1 := x.chunks.foldl (fun s e => s.dropAcc e.2.panes) s
      s1.setLcoll c h (some { x with
        stopped := true
        chunks := x.chunks.map (fun e => if e.2.panes.isEmpty then e else (e.1, { e.2 with panes := [], buf := [], bad := [] })) })

/-- The mask of owed chunks reaches a contributor (R359): the instance goes on with what is owed; committed chunks are done. A
lower pair loads what it saved and tells its own contributors. -/
def State.owedNow (s : State) (c h id inst : Nat) (chunks committed : List Nat) : State :=
  if s.isHub then
    match s.plan c h with
    | none => s
    | some p =>
      let saved := (s.jm.saves.get none id).map (·.chunks) |>.getD []
      let pages := (s.jm.saves.get none id).map (·.pages) |>.getD []
      let p1 := { p with newest := inst, saving := none, done := committed, ackd := committed.length, resumed := if (s.jm.saves.get none id).isSome then some id else none }
      let s1 := s.setPlan c h (some p1)
      let mine := saved.filter (fun x => !committed.contains x.chunk)
      let s2 := mine.foldl (fun s x =>
        let j := ((saved.takeWhile (fun y => y.chunk != x.chunk)).map (fun y => y.panes.length)).sum
        s.setChunk { key := { slot := c, gen := dGen p.desc, handle := h, inst := inst, chunk := x.chunk }, state := .spilled
                     image := s.imagesOf [x] (pages.drop (3 * j)) 0, arrived := x.arrived, cflags := x.flags, fromSave := true }) s1
      (s.planKids p.desc).foldl (fun s k =>
        let owes := (List.range (dChunks p.desc)).filter (fun n => chunks.contains n && !(mine.any (fun x => x.chunk == n && x.arrived.contains k)))
        s.sendKids [k] (.owed c (dGen p.desc) h id inst owes committed)) s2
  else
    match s.lcoll c h with
    | none => s
    | some x =>
      let started := x.running && x.started == inst + 1
      let done : Tbl LChunk := committed.map (fun n => (n, ({ sent := true, committed := true, done := true } : LChunk)))
      if started then s.setLcoll c h (some { x with stopped := false })
      else s.setLcoll c h (some { x with
        started := inst + 1, running := true, ended := false, sent := 0, committed := 0, noSignal := false, stopped := false
        owed := some chunks, chunks := done })

/-- What a control flit without a row of its own says. -/
def State.control (s : State) (p : Nat) : CtlBody → State
  | .idle => s
  | .manifest child c g digest label =>
    if s.isHub && s.params.isDown p && s.openCtx c g then
      ({ s with hm := { s.hm with manifests := s.hm.manifests.set none (c * 256 + s.portChild p % 256) (some (digest, label)) } }).mirror (.manifest c g digest label)
    else s
  | .saveStop c g h id final => if s.params.isUp p then s.saveStopped c h id final else s
  | .owed c g h id inst chunks committed => if s.params.isUp p then s.owedNow c h id inst chunks committed else s
  | .released c g h inst l =>
    if s.params.isDown p && s.isPrimary then
      l.foldl (fun s n => s.childReleased (s.portChild p) (s.formKey { slot := c, gen := g, handle := h, inst := inst, chunk := n })) s
    else s
  | .plumbStart po ch count start =>
    if s.childEnd p then s
    else
      match s.plumbCheck po ch with
      | some c => s.send p (.plumb (.plumbFail c))
      | none => s.plumbTake { args := { port := p, poChild := 0, chChild := 0, poParent := po, chParent := ch, count := count }, start := start } po ch
  | .plumbMeans m e =>
    (match s.tsrc.plumb with
     | some r => if r.args.port = p ∧ r.src.isSome = true then { s with tsrc := { s.tsrc with plumb := some { r with peer := some (m, e) } } } else s
     | none => s)
  | .plumbFail c => (match s.tsrc.plumb with | some r => if r.args.port = p then s.plumbFails c else s | none => s)
  | .plumbEnd a =>
    if s.childEnd p then s
    else
      let s1 := match s.tsrc.plumb with | some r => if r.args.port = p ∧ r.src = none then s.plumbDrop else s | none => s
      (match a with | some v => s1.storeAsym p v | none => s1)

/-- R122, R129, R130, R437: a control flit that has no row of its own: its header, then its contents in SEQ order. A flit of
a context that is not open here is discarded and counted. An idle flit is received here too: only its header counts (R121). -/
def execControlFlitReceive (l : Link) (slot gen : Nat) (body : CtlBody) (s : State) : Out :=
  match body with
  | .idle => .next (if s.params.hasPort l.port && (s.port l.port).up then s.takeHeader l else s)
  | b => s.received l 1 fun s => if slot ≠ 0 ∧ s.openCtx slot gen = false then .next s.countStale else .next (s.control l.port b)

/-! ## Flits that are discarded (R120, R121, R133) -/

/-- Bits `[hi:lo]` of word `w` of a flit's header (Table 5.2). -/
def hdrBits (raw : List Byte) (w lo n : Nat) : Nat := leNat ((raw.drop (4 * w)).take 4) / 2 ^ lo % 2 ^ n

/-- Whether a flit is 256 bytes long and its CRC holds (R121). -/
def crcGood (raw : List Byte) : Bool := raw.length == 256 && decide (crc32c (raw.take 252) = leNat (raw.drop 252))

/-- Whether a flit's TYPE is one of the numbered ones (R129). -/
def rawNumbered (raw : List Byte) : Bool := decide (3 ≤ hdrBits raw 0 0 4) && decide (hdrBits raw 0 0 4 ≤ 5)

/-- Whether a flit has a reserved TYPE, or a reserved field that is not 0 (Tables 5.2 and 5.3). A mirror flit on a port that is no chord port has a
reserved TYPE there (DEDUCED, log 22). -/
def State.reservedFlit (s : State) (p : Nat) (raw : List Byte) : Bool :=
  let ty := hdrBits raw 0 0 4
  decide (5 < ty) || (decide (ty = 5) && !s.params.isChord p) || decide (hdrBits raw 1 24 8 ≠ 0) || decide (hdrBits raw 2 27 5 ≠ 0) ||
    (decide (ty = 1) && (decide (((raw.drop 36).headD 0).toNat / 16 ≠ 0) || ((raw.drop 42).take 202).any (fun b => decide (b ≠ 0))))

/-- A flit of this port is discarded: a replay is requested of a numbered one (R129). -/
def State.discardFlit (s : State) (p : Nat) (numbered : Bool) : State := if numbered then s.requestReplay p else s

/-- R120, R121, R129, R133, R139: a flit is discarded: one that overlaps an uncorrectable codeword or whose CRC fails; one with a reserved TYPE or
field, which is recorded; one whose tag fails, which is counted; a second tag failure on the same SEQ takes the port down with ST_AUTH. What the
decoder and the tag check find are operands (log 22). A flit in which nothing is wrong counts as an idle one. -/
def execCorruptFlitReceive (p : Nat) (raw : List Byte) (codewordOk tagOk : Bool) (corr : Nat) (s : State) : Out :=
  let s := s.modPort p (fun o => if o.up then { o with fecCorr := (o.fecCorr + corr) % 65536 } else o)
  if !s.params.hasPort p || !(s.port p).up then .next s
  else if !codewordOk then
    .next ((s.modPort p (fun o => { o with fecUncorr := (o.fecUncorr + 1) % 65536 })).discardFlit p (rawNumbered raw))
  else if !crcGood raw then .next (s.discardFlit p (rawNumbered raw))
  else
    let s0 := s.modPort p (fun o => { o with lastGood := s.htNs })
    if s.reservedFlit p raw then .next ((s0.record { event := 0x0201, unit := s.portUnit p }).discardFlit p (rawNumbered raw))
    else if hdrBits raw 0 6 1 = 1 ∧ tagOk = false then
      let s1 := s0.modPort p (fun o => { o with authFail := true, authFails := (o.authFails + 1) % 65536 })
      let q := hdrBits raw 0 8 12
      if rawNumbered raw = false then .next (s1.modPort p (fun o => { o with timingRun := if hdrBits raw 0 0 4 = 1 then 0 else o.timingRun }))
      else if (s.port p).tagFailSeq = some q then .next (s1.portDown p true .auth)
      else .next ((s1.modPort p (fun o => { o with tagFailSeq := some q })).requestReplay p)
    else .next s0

end Sys2Proof.Machine
end

