-- ==== Sys2Proof/Machine/Faults.lean ====
section
/-! DEFINITION. Fencing by command, the Daybook and fault notices (chapter 13, R26, R519, R535). -/

set_option linter.unusedVariables false

namespace Sys2Proof.Machine

/-! ## Units (Table 13.5, R332) -/

/-- The tile that a unit names in this block. -/
def State.unitTile (s : State) (u : UnitId) : Option Nat :=
  if decide (u.kind = (if s.isHub then 1 else 5)) && decide (u.idx < s.params.tiles) then some u.idx else none

/-- The register index of the port that a fence command may name: a Hub port or a chord port (Table 13.10). -/
def State.unitPort (s : State) (u : UnitId) : Option Nat :=
  if !s.isHub then none
  else if u.kind = 2 ∧ u.idx < s.params.downPorts + s.params.upPorts then some u.idx
  else if u.kind = 3 ∧ u.idx < 8 then some (288 + u.idx)
  else none

/-- Clear bit `i` of a mask. -/
def clearBit (n i : Nat) : Nat := if bit n i then n - 2 ^ i else n

/-- A port is fenced (R332): its bit in the map, and the port held in the link-down state. -/
def State.fencePort (s : State) (p cause : Nat) : State :=
  let wasUp := (s.port p).up
  let s1 := if 288 ≤ p then s.putMap s.flt.tilesMap s.flt.portsMap (s.flt.chordMap ||| 2 ^ (p - 288))
    else s.putMap s.flt.tilesMap (s.flt.portsMap ||| 2 ^ p) s.flt.chordMap
  let s2 := (s1.holdPort p).modPort p (fun o => { o with downCnt := if wasUp then (o.downCnt + 1) % 65536 else o.downCnt })
  ((((s2.chordGone p).chooseSource).chordLoss).refreshWord).record
    { event := 0x0506, unit := s.portUnit p, syn := [BitVec.ofNat 8 cause, 0xFF#8] }

/-- A port returns (R332): bring-up may start. -/
def State.unfencePort (s : State) (p : Nat) : State :=
  let s1 := if 288 ≤ p then s.putMap s.flt.tilesMap s.flt.portsMap (clearBit s.flt.chordMap (p - 288))
    else s.putMap s.flt.tilesMap (clearBit s.flt.portsMap p) s.flt.chordMap
  (s1.modPort p (fun o => { o with held := false })).record { event := 0x0507, unit := s.portUnit p, syn := [2#8] }

/-- A fenced tile returns (R331): a Hub tile as a spare when its group is at point 0 and otherwise as an active tenant tile, a Leaf
tile as active; its history is cleared. -/
def State.unfenceTile (s : State) (t : Nat) : State :=
  let spare := s.isHub && decide ((s.grp (t / 4)).freq = 0)
  let s1 := s.modTile t (fun x => { x with state := if spare then 2 else 1, radio := false, testPassed := false, events := [], idleSince := s.htNs })
  let m := clearBit s1.flt.tilesMap t
  let s2 := if s.isHub then (s1.putMap m s1.flt.portsMap s1.flt.chordMap).mirrorTile t
    else { s1 with flt := { s1.flt with tilesMap := m }, flash := { s1.flash with tilesMap := m } }
  s2.record { event := 0x0507, unit := s.tileUnit t, syn := [if spare then 0#8 else 1#8] }

/-! ## CMD_FENCE_TILE (R342) -/

/-- CMD_FENCE_TILE FENCE. -/
def execFenceTileFence (h : CmdHdr) (u : UnitId) (s : State) : Out :=
  runCmd { opcode := 0x0601, flash := true } h s fun s =>
    match s.unitTile u, s.unitPort u with
    | some t, _ => if (s.tile t).state = 3 ∨ (s.tile t).state = 4 then .err s .conflict else .ok (s.fenceTile t 1) []
    | none, some p => if s.portFenced p then .err s .conflict else .ok (s.fencePort p 1) []
    | none, none => .err s .range

/-- CMD_FENCE_TILE UNFENCE: a tile only after a passing test since it was fenced (R331); a port without one. -/
def execFenceTileUnfence (h : CmdHdr) (u : UnitId) (s : State) : Out :=
  runCmd { opcode := 0x0601, flash := true } h s fun s =>
    match s.unitTile u, s.unitPort u with
    | some t, _ => if (s.tile t).state = 3 ∧ (s.tile t).testPassed = true then .ok (s.unfenceTile t) [] else .err s .conflict
    | none, some p => if s.portFenced p then .ok (s.unfencePort p) [] else .err s .conflict
    | none, none => .err s .range

/-- The spare tiles in service. -/
def State.spares (s : State) : Nat := ((List.range s.params.tiles).filter (fun t => decide ((s.tile t).state = 2))).length

/-- The tile events of a tile that lie in the window of 24 h (R322). -/
def State.eventsIn (s : State) (t : Nat) : Nat := ((s.tile t).events.filter (fun e => decide (s.htNs < e + dayNs))).length

/-- CMD_FENCE_TILE READ: the map of the pair or of the Leaf, the spares in service, and the events of each tile. -/
def execFenceTileRead (h : CmdHdr) (s : State) : Out :=
  runCmd { opcode := 0x0601, read := true } h s fun s =>
    let own := mapBytes s.flt.tilesMap s.flt.portsMap s.flt.chordMap
    let peer := mapBytes s.flt.peerTiles s.flt.peerPorts s.flt.peerChord
    let map := if s.isHub then (if s.boot.cfg.pos = 0 then own ++ peer else peer ++ own) else mapBytes s.flt.tilesMap 0 0
    .ok s (map ++ le 2 (if s.isHub then s.spares else 0) ++ (List.range s.params.tiles).flatMap (fun t => le 2 (s.eventsIn t)))

/-! ## The Daybook (R337, R338) -/

/-- A Daybook record as bytes (Table 13.4). -/
def recBytes (r : DbRec) : List Byte :=
  let l := le 8 r.ht ++ le 8 r.seq ++ le 2 r.unit ++ le 2 r.sub ++ le 2 r.event ++ le 2 r.code ++ le 1 r.op ++ le 1 r.cls ++ le 2 r.temp ++ le 2 r.volt ++
    le 1 r.slot ++ [0] ++ le 2 r.gen ++ le 2 r.handle ++ le 4 r.step ++ le 4 r.chunk ++ padTo 16 r.syndrome
  l ++ le 4 (crc32c l)

/-- CMD_DAYBOOK_READ (R342): records of the flash ring, from a SEQ that the ring holds. -/
def execCmdDaybookRead (h : CmdHdr) (first count addr len : Nat) (wrErr : Bool) (s : State) : Out :=
  runCmd { opcode := 0x0602, read := true } h s fun s =>
    let db := s.flash.daybook
    let oldest := ((db.head?).map (·.seq)).getD 0
    let l := db.filter (fun r => decide (first ≤ r.seq) && decide (r.seq < first + count))
    if count < 1 ∨ 4096 < count ∨ addr % 64 ≠ 0 ∨ len < 64 * count ∨ l.length ≠ count then .err s .range
    else
      let out (n : Nat) : List Byte := layout [(2, n), (8, oldest), (4, s.flt.dropped)]
      if wrErr then writeFailed s count out
      else .ok (s.fabricWrite addr (l.flatMap recBytes) false 1) (out count)

/-- R337, R519: the Scrivener writes the oldest buffered record to flash. A write that failed twice sets FLASH_ERR and the record
stays buffered. -/
def execDaybookRecordWrite (flashOk : Bool) (s : State) : Out :=
  if s.flt.buf.isEmpty || s.scriv.restarting then .next s
  else if flashOk then .next (s.storeRecords 1)
  else .next { s with irq := { s.irq with flashErr := true } }

/-- R26, R535: a fault notice of a child. -/
def execFaultNoticeReceive (l : Link) (n : Notice) (s : State) : Out :=
  s.received l 1 fun s =>
    let port := l.port
    if s.params.isDown port && (s.port port).up then
      .next (s.pushNotice { event := n.event, unit := n.unit, port := port, self := false, seqLo := n.seqLo })
    else .next s

end Sys2Proof.Machine
end

