-- ==== Sys2Proof/Machine/Test.lean ====
section
/-! DEFINITION. Pattern packs and structural tests (chapter 15). -/

set_option linter.unusedVariables false

namespace Sys2Proof.Machine

/-! ## Packs (R364 to R368) -/

/-- A pack slot. -/
def State.packAt (s : State) (i : Nat) : Option Pack := s.test.packs.get none i
/-- Write a pack slot: the store is a region of flash. -/
def State.setPack (s : State) (i : Nat) (p : Option Pack) : State :=
  { s with test := { s.test with packs := s.test.packs.set none i p }, flash := { s.flash with packs := s.flash.packs.set none i p } }

/-- The slot that holds a pack for a PACK_ID and a target. -/
def State.packSlot (s : State) (id target : Nat) : Option Nat :=
  (List.range 16).find? (fun i => match s.packAt i with | some p => p.packId == id && p.target == target | none => false)

/-- Whether a slot's pack is in use by a running test. -/
def State.packBusy (s : State) (i : Nat) : Bool := s.test.runs.any (fun r => r.packSlot == i)

/-- Whether units of a kind are present in the role (Table 13.5, Table 15.1). -/
def State.targetHere (s : State) (k : Nat) : Bool := if s.isHub then k == 1 || k == 2 || k == 3 else k == 5 || k == 6

/-- Whether the header fields of a pack lie in the ranges of Table 15.1. -/
def packRanges (p : Pack) : Bool :=
  decide (1 ≤ p.packId) && decide (p.packId < 65536) && decide (1 ≤ p.packSeq) && decide (1 ≤ p.patterns) && decide (p.patterns ≤ 1048576) &&
  decide (1 ≤ p.chains) && decide (p.chains ≤ 64) && decide (1 ≤ p.chainLen) && decide (p.chainLen ≤ 8192)

/-- The checks of Table 15.2 in their order: the slot that takes the pack, or the code of the first that fails. -/
def State.packCheck (s : State) (p : Pack) : Except St Nat :=
  if p.magic ≠ 0x4B505844 ∨ p.pver ≠ 1 ∨ p.reservedZero = false ∨ packRanges p = false ∨ 16777216 < p.length ∨ s.boot.cfg.packStoreBytes / 16 < p.length ∨ p.length < 224 then .error .range
  else if p.blockVersion ≠ 0x00030002 ∨ s.targetHere p.target = false ∨ (p.march = true ∧ p.target ≠ 1 ∧ p.target ≠ 5) then .error .range
  else if p.sigOk = false ∨ p.digestOk = false then .error .auth
  else
    match s.packSlot p.packId p.target with
    | some i =>
      if p.packSeq ≤ ((s.packAt i).map (·.packSeq)).getD 0 then .error .conflict
      else if s.packBusy i then .error .busy
      else .ok i
    | none =>
      match (List.range 16).find? (fun i => (s.packAt i).isNone) with
      | some i => .ok i
      | none => .error .busy

/-- SYNDROME of a pack or test record (R374). -/
def packSyn (p : Pack) (r : TestResult) : List Byte :=
  le 2 p.packId ++ le 4 p.packSeq ++ le 4 r.pattern ++ le 2 r.chain ++ le 2 r.bitPos ++ le 1 (b2n r.phaseMarch) ++ le 1 (satN 255 r.mismatches)

/-- Check and store a pack (R366): the slot or the failure code, with its record; a read-back that fails leaves the slot empty. -/
def State.storePack (s : State) (p : Pack) : State × Except St Nat :=
  match s.packCheck p with
  | .error c =>
    let s1 := { s with test := { s.test with packErr := true } }
    (s1.record { event := 0x0804, code := c.val, syn := packSyn p { mismatches := 0 } }, .error c)
  | .ok i =>
    if p.readBackOk then ((s.setPack i (some p)).record { event := 0x0803, sub := i, syn := packSyn p { mismatches := 0 } }, .ok i)
    else
      let s1 := s.setPack i none
      (({ s1 with test := { s1.test with packErr := true } }).record { event := 0x0804, sub := i, code := St.auth.val, syn := packSyn p { mismatches := 0 } }, .error .auth)

/-- The ports to every child: the lowest that is up toward each. -/
def State.kidPorts (s : State) : List Nat :=
  if s.isHub then ((List.range s.children).map s.childPort).filter (fun p => (s.port p).up) else []

/-- A pack is passed on to every child (R367). -/
def State.passPack (s : State) (p : Pack) : State := s.sendAll s.kidPorts (.pack p)

/-- CMD_PATTERN_LOAD LOAD (R366, R367). With DISTRIBUTE a Hub forwards the pack whatever its own check of it says: each block checks it on its
own authority (DEDUCED, log 104). -/
def execPatternLoad (h : CmdHdr) (p : FabRead Pack) (aligned distribute : Bool) (s : State) : Out :=
  runRead { opcode := 0x0603, flash := true } h s p fun s =>
    if !aligned then .err s .range
    else withRead s p fun k =>
      let (s1, r) := s.storePack k
      let s2 := if distribute && s.isHub then (s1.sendChord (.pack k)).passPack k else s1
      match r with
      | .error c => .err s2 c
      | .ok i => .ok s2 (layout [(2, i)])

/-- R367: a pack from another block: checked and stored on this block's own authority, and passed on down and to the partner, never
back up or back over the chord. -/
def execPackReceive (l : Link) (p : Pack) (s : State) : Out :=
  s.received l 1 fun s =>
    let port := l.port
    if s.params.hasPort port && (s.port port).up && !s.params.isDown port then
      let s1 := (s.storePack p).1
      let s2 := if s.params.isUp port && s.isHub then s1.sendChord (.pack p) else s1
      .next (s2.passPack p)
    else .next s

/-- CMD_PATTERN_LOAD DELETE (R368). -/
def execPatternDelete (h : CmdHdr) (slot : Nat) (s : State) : Out :=
  runCmd { opcode := 0x0603, flash := true } h s fun s =>
    if 16 ≤ slot then .err s .range
    else if s.packBusy slot then .err s .busy
    else
      match s.packAt slot with
      | none => .ok s (layout [(2, slot)])
      | some p => .ok ((s.setPack slot none).record { event := 0x0805, sub := slot, syn := packSyn p { mismatches := 0 } }) (layout [(2, slot)])

/-- The header of a stored pack (Table 15.1) with its slot; the body digest is that of the body, which the model does not hold. -/
def packHdr (i : Nat) (p : Pack) : List Byte :=
  le 2 i ++ le 4 p.magic ++ le 4 p.pver ++ le 4 p.blockVersion ++ le 2 p.packId ++ le 2 p.target ++ le 4 p.packSeq ++ le 4 p.patterns ++ le 2 p.chains ++
    le 2 p.chainLen ++ le 1 (b2n p.march) ++ [0, 0, 0] ++ le 8 p.length ++ be 48 (Config.packDigest p.packId p.target p.packSeq) ++ List.replicate 40 0

/-- CMD_PATTERN_LOAD READ (R368): the header and slot of every stored pack. -/
def execPatternRead (h : CmdHdr) (s : State) : Out :=
  runCmd { opcode := 0x0603, read := true } h s fun s =>
    .ok s ((List.range 16).flatMap (fun i => match s.packAt i with | some p => packHdr i p | none => []))

/-! ## Tests (R369 to R374) -/

/-- The running test of a unit. -/
def State.testOf (s : State) (u : UnitId) : Option TestRun := s.test.runs.find? (fun r => r.unit == u)

/-- The port that a unit names for a test: a Hub port, a chord port or a Leaf port. -/
def State.testPort (s : State) (u : UnitId) : Option Nat :=
  if !s.isHub ∧ u.kind = 6 ∧ u.idx < 2 then some u.idx else s.unitPort u

/-- The panes of a tile that hold a chunk or a reservation. -/
def State.panesUsed (s : State) (t : Nat) : Bool := (s.tile t).panes.any (fun p => p.2.owner.isSome || p.2.reserved)

/-- Table 15.3 and R370: the code with which a test of a unit is refused. -/
def State.testRefusal (s : State) (u : UnitId) : Option St :=
  if (s.testOf u).isSome then some .conflict
  else
    let full := decide ((if s.isHub then 4 else 1) ≤ s.test.runs.length)
    match s.unitTile u, s.testPort u with
    | some t, _ =>
      let x := s.tile t
      if x.state = 3 then (if full then some .busy else none)
      else if x.radio then some .conflict
      else if x.state = 2 then (if full || s.panesUsed t || decide (s.spares < 2) then some .busy else none)
      else if full || s.panesUsed t then some .busy else none
    | none, some p =>
      if s.portFenced p then (if full then some .busy else none)
      else if (s.port p).bring ≠ .down then some .conflict
      else if full then some .busy else none
    | none, none => some .range

/-- CMD_TEST_TILE RUN: the unit leaves mapping and the test runs; the command completes at its end. -/
def execTestTileRun (h : CmdHdr) (u : UnitId) (packId : Nat) (s : State) : Out :=
  runCmd { opcode := 0x0604 } h s fun s =>
    match (if (s.unitTile u).isSome || (s.testPort u).isSome then s.packSlot packId u.kind else none) with
    | none => .err s .range
    | some i =>
      match s.testRefusal u with
      | some c => .err s c
      | none =>
        let prev := match s.unitTile u with | some t => (s.tile t).state | none => 0
        let s1 := match s.unitTile u with | some t => s.modTile t (fun x => { x with state := 4 }) | none => s
        .wait { s1 with test := { s1.test with runs := s1.test.runs ++ [({ unit := u, packSlot := i, prev := prev, src := h.src, started := s.htNs } : TestRun)] } }

/-- CMD_TEST_TILE ABORT (R373). -/
def execTestTileAbort (h : CmdHdr) (u : UnitId) (s : State) : Out :=
  runCmd { opcode := 0x0604 } h s fun s =>
    if (s.unitTile u).isNone && (s.testPort u).isNone then .err s .range
    else
      match s.testOf u with
      | none => .err s .conflict
      | some r => .ok (s.abortTest r) []

/-- The nanoseconds that a test with a pack takes (R371): CHAIN_LEN + 4 shift cycles of 2 ns per pattern, and with MARCH set a march of 10
operations over the storage words of a lane, one per Tally clock of 0.5 ns: 12 words for each of the tile's elements (R230), 64 lanes. -/
def State.testNs (s : State) (k : Pack) : Nat :=
  k.patterns * (k.chainLen + 4) * 2 + (if k.march then 10 * ((if s.isHub then 262144 else 65536) * 12 / 64) / 2 else 0)

/-- R371, R372, Table 15.4: a test ends, once its patterns and march have run. The panes of a tile are clear; a unit that was in service and failed is fenced; a fenced tile
that passed may be returned. -/
def execTestComplete (u : UnitId) (r : TestResult) (s : State) : Out :=
  match s.testOf u with
  | none => .next s
  | some run =>
    let p := s.packAt run.packSlot
    if s.htNs < run.started + (p.map s.testNs).getD 0 then .next s
    else
    let pass := decide (r.mismatches = 0)
    let s1 := { s with test := { s.test with
      runs := s.test.runs.filter (fun (x : TestRun) => x.unit != u), done := true, fail := s.test.fail || !pass, lastUnit := unitVal u } }
    let s2 := match s.unitTile u with
      | some t => s1.modTile t (fun x => { x with
          state := run.prev, panes := [], idleSince := s.htNs, testPassed := if run.prev = 3 then pass else x.testPassed })
      | none => s1
    let s3 := s2.record { event := if pass then 0x0800 else 0x0801, unit := unitVal u, sub := run.packSlot
                          syn := match p with | some k => packSyn k r | none => [] }
    let s4 := if pass then s3
      else
        match s.unitTile u, s.testPort u with
        | some t, _ => if run.prev = 3 then s3 else s3.fenceTile t 2
        | none, some q => if s.portFenced q then s3 else s3.fencePort q 2
        | none, none => s3
    .next (complete s4 run.src 0x0604 .ok (layout [(1, b2n (!pass)), (4, r.pattern), (2, r.chain), (2, r.bitPos), (4, r.mismatches)]))

end Sys2Proof.Machine
end

