-- ==== Sys2Proof/Machine/Classes.lean ====
section
/-! DEFINITION. RADIO_SLOTS, the radio set and the shapers as they are set and take effect (R280 to R292). -/

set_option linter.unusedVariables false

namespace Sys2Proof.Machine

/-! ## RADIO_SLOTS (R281) -/

/-- A new RADIO_SLOTS applies from the first period that begins at or after its effective HT. -/
def slotsDue (now : HT) (p : Option (Nat × HT)) : Option Nat :=
  match p with
  | some (v, e) => if e ≤ now / 512 * 512 then some v else none
  | none => none

/-- R281: RADIO_SLOTS takes effect, that of the pair and that of the up-groups. -/
def execRadioSlotsApply (s : State) : Out :=
  let s1 := match slotsDue s.htNs s.sched.slotsPend with
    | some v => { s with sched := { s.sched with radioSlots := v, slotsPend := none } }
    | none => s
  match slotsDue s.htNs s1.sched.upSlotsPend with
  | some v => .next { s1 with sched := { s1.sched with upSlots := v, upSlotsPend := none } }
  | none => .next s1

/-- The reserved slot numbers of a period (R280). -/
def reservedSlots (n : Nat) : List Nat := (List.range n).map (fun j => 4 + 56 * j / n)

/-! ## The radio set (R283, R284) -/

/-- Whether a tile may be of the radio or tenant set: active, or under test and active before (R373). -/
def State.setTile (s : State) (t : Nat) : Bool :=
  (s.tile t).state == 1 || s.test.runs.any (fun r => r.unit.kind == 1 && r.unit.idx == t && r.prev == 1)

/-- The radio set for a number of tiles: the highest-numbered in service that are neither spare nor fenced. -/
def State.radioSet (s : State) (n : Nat) : List Nat :=
  let l := (List.range s.params.tiles).filter (fun t => s.setTile t)
  l.drop (l.length - n)

/-- The tenant chunks of a tile that joins the radio set are spilled, without regard to the watermark. -/
def State.spillAll (s : State) (t : Nat) : State :=
  (s.openOn t).foldl (fun s c =>
    match s.spillPagesFor c with
    | some u => u.setChunk { c with state := .spilling }
    | none => s) s

/-- Choose the radio set afresh (R283): a test of a tile that joins is aborted (R373), its tenant chunks are spilled, and
RADIO_SHORT is set when there are too few tiles. -/
def State.chooseRadio (s : State) (n : Nat) : State :=
  let set := s.radioSet n
  let s1 := set.foldl (fun s t => if (s.tile t).radio then s else
    let s' := match s.test.runs.find? (fun r => r.unit.kind == 1 && r.unit.idx == t) with | some r => s.abortTest r | none => s
    s'.spillAll t) s
  let s2 := (List.range s.params.tiles).foldl (fun s t => if (s.tile t).radio == set.contains t then s else s.modTile t (fun x => { x with radio := set.contains t })) s1
  { s2 with sched := { s2.sched with radioTiles := n, radioShort := s2.sched.radioShort || decide (set.length < n) } }

/-- R284: RADIO_TILES takes effect. -/
def execRadioTilesApply (s : State) : Out :=
  match s.sched.tilesPend with
  | some (n, e) =>
    if s.isHub && decide (e ≤ s.htNs) then
      let s1 := s.chooseRadio n
      .next { s1 with sched := { s1.sched with tilesPend := none } }
    else .next s
  | none => .next s

/-! ## Shapers (R289, R292) -/

/-- Whether weight, RATE and BURST lie in their ranges (R289, R290). -/
def shapeRange (weight rate burst : Nat) : Bool :=
  decide (1 ≤ weight) && decide (weight ≤ 256) && decide (rate ≤ 2419) && decide (256 ≤ burst) && decide (burst ≤ 16777216) && burst % 256 == 0

/-- Replace weight, RATE, BURST and the tokens of a context on one tick; a queue that was held is woken when it is now eligible
(R291, R292, Table 11.5). -/
def State.setShape (s : State) (c weight rate burst : Nat) (full : Bool) : State :=
  let held := (s.shapeOf c).held
  let s1 := s.modShape c (fun _ => { weight := weight, rate := rate, burst := burst, tokens80 := if full then burst * 80 else 0, held := held })
  if s.isHub then s1
  else
    let s2 := s1.markHeld c
    if held && !(s2.shapeOf c).held then [0, 1].foldl (fun s p => s.wakeQueue p c) s2 else s2

end Sys2Proof.Machine
end

