-- ==== Sys2Proof/Machine/Hallmarks.lean ====
section
/-! DEFINITION. Hallmark batches, their archive, and the manifests of a Leaf (R306 to R315). -/

set_option linter.unusedVariables false

namespace Sys2Proof.Machine

/-! ## Batches and the archive (R306 to R308) -/

/-- A record of Table 12.4. -/
def hmRecBytes (r : HmRec) : List Byte :=
  be 48 r.hallmark ++ le 8 r.label ++ le 4 r.step ++ le 4 (r.chunk % 2 ^ 23 + r.flags % 128 * 2 ^ 23)

/-- Header and records of a batch (Table 12.4): what is signed. -/
def batchBody (b : Batch) : List Byte :=
  le 4 1 ++ le 4 b.recs.length ++ le 8 b.seq ++ le 8 b.htFirst ++ le 8 b.htLast ++ le 4 b.pairId ++ le 1 b.pos ++ List.replicate 11 0 ++
    be 48 b.prev ++ b.recs.flatMap hmRecBytes

/-- A whole batch, signature included. -/
def batchBytes (b : Batch) : List Byte := batchBody b ++ be 96 b.sig

/-- The size of a batch in bytes. -/
def batchSize (b : Batch) : Nat := 192 + 64 * b.recs.length

/-- The pages that a list of batches takes. -/
def archNeed (l : List Batch) : Nat := ((l.map batchSize).sum + 4095) / 4096

/-- Drop the oldest batches until the rest fit a number of bytes; says whether one was dropped. -/
def dropOld (cap : Nat) : List Batch → List Batch × Bool
  | [] => ([], false)
  | b :: r => if ((b :: r).map batchSize).sum ≤ cap then (b :: r, false) else ((dropOld cap r).1, true)

/-- Write a signed batch to the archive (R308): a ring in journal memory, whose oldest batches are overwritten when the size of the
configuration image, or the pages that the region gets (R356), are used up. While the journal is not ready it is a ring of 64 batches
in SRAM (R354). HM_WRAP says that a batch was overwritten. -/
def State.archive (s : State) (b : Batch) : State :=
  let l := s.hm.archive ++ [b]
  if !s.jm.ready then
    { s with hm := { s.hm with archive := l.drop (l.length - 64), hmWrap := s.hm.hmWrap || decide (64 < l.length) } }
  else
    let (l1, w1) := dropOld s.boot.cfg.archiveBytes l
    let more := archNeed l1 - s.jm.archivePages.length
    match (if more = 0 then some (s, []) else s.takePages 3 more false) with
    | some (t, ps) => { t with hm := { t.hm with archive := l1, hmWrap := t.hm.hmWrap || w1 }, jm := { t.jm with archivePages := t.jm.archivePages ++ ps } }
    | none =>
      let (l2, w2) := dropOld (4096 * s.jm.archivePages.length) l1
      { s with hm := { s.hm with archive := l2, hmWrap := s.hm.hmWrap || w1 || w2 } }

/-- Whether the open batch closes: 4,096 records, or 1,000,000 ns after its first (R306). -/
def State.batchDue (s : State) : Bool :=
  !s.hm.batch.isEmpty && (decide (4096 ≤ s.hm.batch.length) || decide (s.hm.firstHt + 1000000 ≤ s.htNs))

/-- Close and sign the open batch (R306, R307): PREV chains it to the previous one, and the partner drops its shadow records. -/
def State.signBatch (s : State) : State :=
  let recs := s.hm.batch.take 4096
  let rest := s.hm.batch.drop 4096
  let b0 : Batch := { seq := s.hm.nextSeq, htFirst := s.hm.firstHt, htLast := s.hm.lastHt, pairId := s.boot.cfg.pairId, pos := s.boot.cfg.pos
                      prev := s.hm.prev, recs := recs, sig := 0 }
  let b : Batch := { b0 with sig := Config.sign s.sec.attKey (batchBody b0) }
  let s1 := s.archive b
  let s2 := { s1 with hm := { s1.hm with batch := rest, firstHt := s.htNs, nextSeq := s.hm.nextSeq + 1, prev := Config.sha384 (batchBytes b) } }
  match recs.getLast? with
  | some r => s2.mirror (.batchSigned b.seq r.key)
  | none => s2

/-- R306: a batch closes. Only the primary signs (R401), and a Hub without keys signs nothing (R423). -/
def execHallmarkBatchClose (s : State) : Out :=
  if s.isPrimary && s.batchDue && s.sec.keysValid then .next s.signBatch else .next s

/-- SEQ of the oldest batch that the archive holds. -/
def State.oldestBatch (s : State) : Nat := ((s.hm.archive.head?).map (·.seq)).getD s.hm.nextSeq

/-- CMD_HALLMARK_READ (R308, R315): batches of the archive from a SEQ. `bad` is the number of batches before the first that is
uncorrectable: those are copied and the code is ST_POISON (Table 14.4). -/
def execCmdHallmarkRead (h : CmdHdr) (first count addr len : Nat) (bad : Option Nat) (wrErr : Bool) (s : State) : Out :=
  runCmd { opcode := 0x0502, leaf := false, read := true } h s fun s =>
    let all := s.hm.archive.filter (fun b => decide (first ≤ b.seq) && decide (b.seq < first + count))
    let l := match bad with | some n => all.take n | none => all
    let total := (l.map batchSize).sum
    if count < 1 ∨ 256 < count ∨ addr % 64 ≠ 0 ∨ all.length ≠ count ∨ len < (all.map batchSize).sum then .err s .range
    else
      let out (n bytes : Nat) : List Byte := layout [(2, n), (4, bytes), (8, s.oldestBatch)]
      if wrErr then writeFailed s l.length (fun n => out n ((l.take n).map batchSize).sum)
      else
        let s1 := if l.isEmpty then s else s.fabricWrite addr (l.flatMap batchBytes) false 1
        match bad with
        | some n => if n < count then .done s1 .poison (out l.length total) else .ok s1 (out l.length total)
        | none => .ok s1 (out l.length total)

/-! ## Manifests at a Leaf (R309 to R311) -/

/-- The manifest digest and LABEL of a context at this Leaf. -/
def State.manifest (s : State) (c : Nat) : Option (Nat × Nat) := s.hm.manifests.get none (c * 256)

/-- Whether a context has an open collective at this Leaf. -/
def State.leafCollOpen (s : State) (c : Nat) : Bool := s.coll.leaf.any (fun e => e.1 / 512 == c && e.2.isSome)

/-- The entry indexes of a local map ascend (R311). -/
def ascending : List Nat → Bool
  | a :: b :: r => decide (a < b) && ascending (b :: r)
  | _ => true

/-- The results of CMD_MANIFEST (Table 12.8). -/
def manifestOut (digest label segs : Nat) : List Byte := be 48 digest ++ le 8 label ++ le 2 segs

/-- The number of entries of a manifest file whose header is valid (Table 12.5). -/
def manifestEntries (f : List Byte) : Option Nat :=
  let n := fieldAt f 8 4
  if fieldAt f 0 4 = 0x464D5844 ∧ fieldAt f 4 4 = 1 ∧ 1 ≤ n ∧ n ≤ 1048576 ∧ ((f.drop 12).take 52).all (· == 0) = true ∧ f.length = 64 + 64 * n then some n else none

/-- Whether a segment is the one that entry `j` of a manifest describes: its LENGTH and its SHA-384 (Table 12.5, R311). -/
def entryOk (f : List Byte) (j : Nat) (seg : List Byte) : Bool :=
  fieldAt f (72 + 64 * j) 8 == seg.length && (f.drop (80 + 64 * j)).take 48 == be 48 (Config.sha384 seg)

/-- The mapped segments are hashed in turn and compared with their entries; the first mismatch stops with its entry index (R311, R314). -/
def State.hashItems (s : State) (f : List Byte) (k : CmdRes) : List (Nat × FabRead (List Byte)) → CmdRes
  | [] => k
  | (j, r) :: t => withRead s r fun g =>
    if entryOk f j g then State.hashItems s f k t else .err { s with hm := { s.hm with failEntry := j % 2 ^ 20 } } .auth

/-- The Assay engine hashes the manifest file and the mapped segments of a context (R309, R311): STATE and the entry of a mismatch
(R314). The header must be valid, each mapped segment equal to its entry; the continuation gets the manifest digest. -/
def State.assayRun (s : State) (c : Nat) (file : FabRead (List Byte)) (items : List (Nat × FabRead (List Byte))) (k : State → Nat → CmdRes) : CmdRes :=
  let s0 := { s with hm := { s.hm with assaySlot := c, assay := 3 } }
  if items.length < 1 ∨ 1024 < items.length ∨ ascending (items.map (·.1)) = false then .err s .range
  else
    withRead s0 file fun f =>
      match manifestEntries f with
      | none => .err s0 .range
      | some n => if items.any (fun i => decide (n ≤ i.1)) then .err s0 .range else s0.hashItems f (k s0 (Config.sha384 f)) items

/-- The Assay engine has done its command. -/
def State.assayDone (s : State) : State := { s with hm := { s.hm with assay := 2 } }

/-- What the reads of a manifest file and of the segments return together (R545). -/
def allReads (file : FabRead (List Byte)) (items : List (Nat × FabRead (List Byte))) : FabRead (List Byte) :=
  match items.foldl (fun r i => bothReads r i.2) (bothReads (.ok ()) file) with
  | .ok _ => file
  | .poison => .poison
  | .err => .err

/-- CMD_MANIFEST REGISTER (R311). -/
def execManifestRegister (h : CmdHdr) (label : Nat) (file : FabRead (List Byte)) (items : List (Nat × FabRead (List Byte))) (s : State) : Out :=
  runRead { opcode := 0x0501, hub := false, iss := .ctx } h s (allReads file items) fun s =>
    if (s.manifest h.slot).isSome then .err s .conflict
    else if s.leafCollOpen h.slot then .err s .busy
    else s.assayRun h.slot file items fun s d =>
      let s1 := { s.assayDone with hm := { s.assayDone.hm with manifests := s.hm.manifests.set none (h.slot * 256) (some (d, label)) } }
      .ok (s1.sendUp (.manifest h.slot h.gen d label)) (manifestOut d label items.length)

/-- CMD_MANIFEST VERIFY (R311): the file must hash to the recorded digest. -/
def execManifestVerify (h : CmdHdr) (file : FabRead (List Byte)) (items : List (Nat × FabRead (List Byte))) (s : State) : Out :=
  runRead { opcode := 0x0501, hub := false, iss := .ctx } h s (allReads file items) fun s =>
    let m := (s.manifest h.slot).getD (0, 0)
    match file with
    | .ok f =>
      if items.length < 1 ∨ 1024 < items.length ∨ ascending (items.map (·.1)) = false then .err s .range
      else if Config.sha384 f ≠ m.1 ∨ (s.manifest h.slot).isNone then .err { s with hm := { s.hm with assay := 3, assaySlot := h.slot } } .auth
      else s.assayRun h.slot file items fun s d => .ok s.assayDone (manifestOut d m.2 items.length)
    | _ => s.assayRun h.slot file items fun s d => .ok s.assayDone (manifestOut d m.2 items.length)

/-- CMD_MANIFEST READ. -/
def execManifestRead (h : CmdHdr) (s : State) : Out :=
  runCmd { opcode := 0x0501, hub := false, iss := .ctx, read := true } h s fun s =>
    let m := (s.manifest h.slot).getD (0, 0)
    .ok s (manifestOut m.1 m.2 0)

end Sys2Proof.Machine
end

