-- ==== Sys2Proof/Machine/Journal.lean ====
section
/-! DEFINITION. The journal (chapter 14, R516, R517): self-test, decoded accesses, the scrubber, retirement, and the commands that
save, resume and stage collectives. -/

set_option linter.unusedVariables false

namespace Sys2Proof.Machine

/-! ## Records and marks (R348, R350) -/

/-- A journal record (R350): channel, device or 0xFFFF, page, access, codeword mask and use. -/
def State.jmRecord (s : State) (event c sub page acc mask use : Nat) : State :=
  s.record { event := event, unit := 0x4000 + c, sub := sub, syn := le 4 page ++ le 1 acc ++ le 1 mask ++ le 1 use }

/-- Mark a device of a channel, or remove the mark (R348); the mark persists in flash. -/
def State.setMark (s : State) (c : Nat) (m : Option Nat) (dev : Nat) : State :=
  let s1 := s.modChan c (fun x => { x with mark := m })
  { s1 with flash := { s1.flash with marks := s1.flash.marks.set none c m } }.jmRecord 0x0606 c dev 0 0 0 0xFF

/-- Firmware marks a device that corrections name in 16 distinct pages within 1,000,000,000 ns (R348). -/
def State.autoMark (s : State) (c dev page : Nat) : State :=
  let l := ((s.chan c).recent.filter (fun r => decide (s.htNs < r.2.2 + 1000000000) && !(r.1 == dev && r.2.1 == page))) ++ [(dev, page, s.htNs)]
  let s1 := s.modChan c (fun x => { x with recent := l })
  if (s.chan c).mark.isNone && decide (16 ≤ (l.filter (fun r => r.1 == dev)).length) then s1.setMark c (some dev) dev else s1

/-! ## Decoding an access (R347 to R351, R353) -/

/-- An uncorrectable access (R350): counted, UE_SEEN, and a record without a rate limit. -/
def State.jmBad (s : State) (page acc mask use : Nat) : State :=
  let c := s.pageChan page
  let s1 := s.modChan c (fun x => { x with uncorr := (x.uncorr + 1) % 65536 })
  { s1 with jm := { s1.jm with ueSeen := true } }.jmRecord 0x0601 c 0xFFFF page acc mask use

/-- A corrected access (R349, R350): counted, recorded at most once per channel per 1,000,000 ns, written back, and its device counted
toward a mark. -/
def State.jmCorr (s : State) (page acc use : Nat) (devs : List Nat) (e : JournalErr) : State :=
  let c := s.pageChan page
  let due := match (s.chan c).lastRec with | some h => decide (h + 1000000 ≤ s.htNs) | none => true
  let sub := match namedDevs (s.chan c).mark e with
    | [d] => d
    | _ => 0xFFFF
  let s1 := s.modChan c (fun x => { x with corr := (x.corr + 1) % 65536, lastRec := if due then some s.htNs else x.lastRec })
  let s2 := if due then s1.jmRecord 0x0600 c sub page acc (cwMask e) use else s1
  let wb : List (Nat × Nat) := if s2.jm.writeBacks.contains (page, acc) then s2.jm.writeBacks else s2.jm.writeBacks ++ [(page, acc)]
  let s3 := { s2 with jm := { s2.jm with writeBacks := wb } }
  devs.foldl (fun s d => s.autoMark c d page) s3

/-- A write-back is the next command to its bank (R349): the next access of the bank finds it done. -/
def State.issueWb (s : State) (page : Nat) : State :=
  { s with jm := { s.jm with writeBacks := s.jm.writeBacks.filter (fun w => !(s.pageChan w.1 == s.pageChan page && s.pageBank w.1 == s.pageBank page)) } }

/-- One access is read and decoded. The second part says whether it is uncorrectable. The page's valid bit and state come from the
page-state SRAM (R352); a page whose valid bit is 0 reads as zeros and makes no access (R351). -/
def State.jmAccess (s : State) (use page acc : Nat) (e : JournalErr) : State × Bool :=
  let s1 := (s.pageSram page e.sram).issueWb page
  if !(s1.jpage page).valid then (s1, false)
  else if s1.pageBad page then (s1.jmBad page acc (cwMask e) use, true)
  else
    match decodeAcc (s.chan (s.pageChan page)).mark e with
    | none => (s1.jmBad page acc (cwMask e) use, true)
    | some d => if cwMask e = 0 then (s1, false) else (s1.jmCorr page acc use d e, false)

/-- Whether the journal can be read. -/
def State.jmLive (s : State) (page acc : Nat) : Bool := s.isHub && s.jm.ready && (s.dom 77).on && decide (page < s.pageCount) && decide (acc < 32)

/-- R347: a use reads an access. What it does with an uncorrectable one is said with the use (Table 14.4). -/
def execJournalRead (use page acc : Nat) (e : JournalErr) (s : State) : Out :=
  if s.jmLive page acc && decide ((s.jpage page).state = .inUse use) then .next (s.jmAccess use page acc e).1 else .next s

/-- The pages of a channel that the scrubber reads. -/
def State.scrubPages (s : State) (c : Nat) : List Nat :=
  (s.jm.pages.filter (fun p => s.pageChan p.1 == c && p.2.valid && (match s.pageState p.1 with | .inUse _ => true | _ => false))).map (·.1)

/-- The access that the scrubber of a channel reads next (R353). -/
def State.nextScrub (s : State) (c : Nat) : Option (Nat × Nat) :=
  let l := s.scrubPages c
  match (s.chan c).scrub with
  | none => l.head?.map (fun p => (p, 0))
  | some (p, a) =>
    if a < 31 ∧ l.contains p = true then some (p, a + 1)
    else match l.find? (fun q => decide (p < q)) with
      | some q => some (q, 0)
      | none => l.head?.map (fun q => (q, 0))

/-- Whether the next scrub read of a channel is due (R353): the reads of a pass are spread evenly over the scrub interval. -/
def State.scrubDue (s : State) (c : Nat) : Bool :=
  match (s.chan c).scrubAt with
  | none => true
  | some t => decide (t + s.jm.scrubHours * 3600000000000 / (32 * max 1 (s.scrubPages c).length) ≤ s.htNs)

/-- R353: the scrubber reads its next access. An uncorrectable one sets the page's poison bit; the last access of the last page ends
a pass of the channel. -/
def execScrubRead (page acc : Nat) (e : JournalErr) (s : State) : Out :=
  let c := s.pageChan page
  if s.jmLive page acc && decide (s.nextScrub c = some (page, acc)) && s.scrubDue c then
    let (s1, bad) := s.jmAccess 5 page acc e
    let s2 := if bad then s1.modPage page (fun p => { p with poison := true }) else s1
    let s3 := s2.modChan c (fun x => { x with scrub := some (page, acc), scrubAt := some s.htNs })
    if acc = 31 ∧ (s.scrubPages c).all (fun q => decide (q ≤ page)) = true then
      let s4 := s3.jmRecord 0x0602 c 0xFFFF page acc 0 5
      .next (if c = 0 then { s4 with jm := { s4.jm with passes := (s4.jm.passes + 1) % 2 ^ 24 } } else s4)
    else .next s3
  else .next s

/-! ## Self-test and channels (R354, R361, R516, R517) -/

/-- A channel fails: every page of it is in the failed state (Table 14.3, Table 14.5). -/
def State.failChan (s : State) (c : Nat) : State :=
  ((s.modChan c (fun x => { x with failed := true })).jmRecord 0x0607 c 0xFFFF 0 0 0 0xFF).checkQuota

/-- A record of a failing self-test step. -/
def State.testRecord (s : State) (c step : Nat) : State := s.jmRecord 0x0603 c 0xFFFF 0 0 step 0xFF

/-- Batches that waited in SRAM go to the archive once the journal is ready (R354). -/
def State.flushRing (s : State) : State :=
  s.hm.archive.foldl (fun s b => s.archive b) { s with hm := { s.hm with archive := [] } }

/-- The self-test of Table 14.3: step 1 disables the journal, step 2 fails channels, step 3 applies the retirement list and marks of
flash or discards them. -/
def State.selfTest (s : State) (step1Ok : Bool) (bad : List Nat) (listOk : Bool) : State :=
  let s1 := (List.range s.params.channels).foldl (fun s c => s.modChan c (fun x => { x with trained := true })) s
  if !step1Ok then { s1 with jm := { s1.jm with fail := true, ready := false } }.testRecord 0 1
  else
    let s2 := (bad.filter (fun c => decide (c < s.params.channels))).foldl (fun s c => (s.testRecord c 2).failChan c) s1
    let s3 := if listOk && s.flash.listOk then
        let t := { s2 with jm := { s2.jm with retired := s2.flash.retired, banks := s2.flash.banks } }
        (List.range s.params.channels).foldl (fun s c => s.modChan c (fun x => { x with mark := s.flash.marks.get none c })) t
      else ({ s2 with jm := { s2.jm with retired := [], banks := [] }, flash := { s2.flash with retired := [], banks := [], marks := [], listOk := true } }.testRecord 0 3).jmRecord
        0x0608 0 0xFFFF 0 0 0 0xFF
    ({ s3 with jm := { s3.jm with ready := true } }.checkQuota).flushRing

/-- R354: the self-test ends. -/
def execJournalSelfTest (step1Ok : Bool) (badChannels : List Nat) (listOk : Bool) (s : State) : Out :=
  if s.isHub && (s.dom 77).on && !s.jm.ready && !s.jm.fail then .next (s.selfTest step1Ok badChannels listOk) else .next s

/-- Whether a channel works. -/
def State.chanLive (s : State) (c : Nat) : Bool := s.isHub && decide (c < s.params.channels) && (s.chan c).trained && !(s.chan c).failed && (s.dom 77).on

/-- R361: a channel stops responding on DFI. -/
def execChannelFailure (c : Nat) (s : State) : Out := if s.chanLive c then .next (s.failChan c) else .next s

/-- R517: all-bank refresh every 3,900 ns, or 1,950 ns at the doubled rate. -/
def execDramRefresh (c : Nat) (s : State) : Out :=
  let x := s.chan c
  if s.chanLive c && decide (x.lastRefresh + (if x.doubled then 1950 else 3900) ≤ s.htNs) then
    .next (s.modChan c (fun x => { x with refreshes := x.refreshes + 1, lastRefresh := s.htNs }))
  else .next s

/-- R517: MR4 is read every 32,000,000 ns. -/
def execMr4Read (c : Nat) (doubled : Bool) (s : State) : Out :=
  if s.chanLive c && decide ((s.chan c).lastMr4 + 32000000 ≤ s.htNs) then .next (s.modChan c (fun x => { x with doubled := doubled, lastMr4 := s.htNs }))
  else .next s

/-- R517: ZQ calibration every 128,000,000 ns. -/
def execZqCalibration (c : Nat) (s : State) : Out :=
  if s.chanLive c && decide ((s.chan c).lastZq + 128000000 ≤ s.htNs) then .next (s.modChan c (fun x => { x with zqs := x.zqs + 1, lastZq := s.htNs }))
  else .next s

/-- R516: a PHY update request is granted. -/
def execPhyUpdateRequest (c : Nat) (s : State) : Out :=
  if s.chanLive c then .next (s.modChan c (fun x => { x with phyGrants := x.phyGrants + 1 })) else .next s

/-! ## Retirement (R355) -/

/-- The lowest free page that is not in a bank which is being retired. -/
def State.spareFrom (s : State) (avoid : Nat → Bool) : Nat → Nat → Option Nat
  | 0, _ => none
  | n + 1, p => if s.pageFree p && !avoid p then some p else s.spareFrom avoid n (p + 1)

/-- The free page that takes a copy. -/
def State.spareFor' (s : State) (avoid : Nat → Bool) : Option Nat :=
  s.spareFrom avoid ((s.jm.pages.length + s.jm.retired.length + 64) * 400) 0

/-- The owner's pointers follow a moved page. -/
def State.movePage (s : State) (p q : Nat) : State :=
  let m (l : List Nat) : List Nat := l.map (fun x => if x = p then q else x)
  { s with jm := { s.jm with
    saves := s.jm.saves.map (fun e => (e.1, e.2.map (fun v => { v with pages := m v.pages })))
    stages := s.jm.stages.map (fun e => (e.1, e.2.map (fun v => { v with pages := m v.pages })))
    spillPages := s.jm.spillPages.map (fun e => (e.1, m e.2)), archivePages := m s.jm.archivePages } }

/-- The list of retirements persists in flash. -/
def State.keepList (s : State) : State := { s with flash := { s.flash with retired := s.jm.retired, banks := s.jm.banks } }.checkQuota

/-- Retire one page (R355): a free page at once; an in-use page after its copy, whose uncorrectable accesses poison the new page, and which
is encrypted anew under the new page's number where it was encrypted (R436);
`none` when no free page is found. -/
def State.retireOne (s : State) (p : Nat) (bad : List Nat) (avoid : Nat → Bool) : Option State :=
  let add (s : State) (use : Nat) : State := ({ s with jm := { s.jm with retired := s.jm.retired ++ [p] } }.keepList).jmRecord 0x0604 (s.pageChan p) 0xFFFF p 0 0 use
  match (s.jpage p).state with
  | .inUse u =>
    if s.isRetired p then some s
    else
      match s.spareFor' (fun q => q == p || avoid q) with
      | none => none
      | some q =>
        let old := s.jpage p
        let s1 := bad.foldl (fun s a => s.jmBad p a 0 4) s
        let s2 := (s1.modPage q (fun _ => { state := .inUse u, valid := old.valid, poison := s.pageBad p || !bad.isEmpty })).modPage p (fun _ => {})
        some (add ((if old.count.isSome then s2.sealPage q else s2).movePage p q) u)
  | _ => if s.isRetired p then some s else some (add s 0xFF)

/-- CMD_JOURNAL_RETIRE PAGE (R355). `uncorrectable` lists the accesses that the copy finds so. -/
def execJournalRetirePage (h : CmdHdr) (page : Nat) (uncorrectable : List Nat) (s : State) : Out :=
  runCmd { opcode := 0x0506, leaf := false, flash := true } h s fun s =>
    if s.pageCount ≤ page ∨ (65536 ≤ s.jm.retired.length ∧ s.isRetired page = false) then .err s .range
    else
      match s.retireOne page uncorrectable (fun _ => false) with
      | some t => .ok t []
      | none => .err s .noSpare

/-- Retire the in-use pages of a bank, one after another. -/
def State.retireMany (s : State) (bad : List Nat) (avoid : Nat → Bool) : List Nat → State × Bool
  | [] => (s, true)
  | p :: r =>
    match s.retireOne p (if bad.contains p then [0] else []) avoid with
    | some t => t.retireMany bad avoid r
    | none => (s, false)

/-- CMD_JOURNAL_RETIRE BANK (R355). `uncorrectable` lists the pages whose copy finds an uncorrectable access. The pages already
moved when no free page is left stay moved and retired. -/
def execJournalRetireBank (h : CmdHdr) (c b : Nat) (uncorrectable : List Nat) (s : State) : Out :=
  runCmd { opcode := 0x0506, leaf := false, flash := true } h s fun s =>
    if s.params.channels ≤ c ∨ 32 ≤ b ∨ (32 ≤ s.jm.banks.length ∧ s.jm.banks.contains (c, b) = false) then .err s .range
    else if s.jm.banks.contains (c, b) then .ok s []
    else
      let inBank (p : Nat) : Bool := s.pageChan p == c && s.pageBank p == b
      let l := (s.jm.pages.filter (fun p => inBank p.1 && (match p.2.state with | .inUse _ => true | _ => false))).map (·.1)
      let (t, all) := s.retireMany uncorrectable inBank l
      if all then
        let t1 := { t with jm := { t.jm with banks := t.jm.banks ++ [(c, b)], retired := t.jm.retired.filter (fun p => !inBank p) } }
        .ok ((t1.keepList).jmRecord 0x0605 c 0xFFFF (c + s.params.channels * b) 0 0 0xFF) []
      else .done t .noSpare []

/-- CMD_JOURNAL_RETIRE MARK (R348): at most one device per channel is marked. -/
def execJournalRetireMark (h : CmdHdr) (c dev : Nat) (s : State) : Out :=
  runCmd { opcode := 0x0506, leaf := false, flash := true } h s fun s =>
    if s.params.channels ≤ c ∨ 20 ≤ dev then .err s .range
    else if (s.chan c).mark = some dev then .ok s []
    else if (s.chan c).mark.isSome then .err s .conflict
    else .ok (s.setMark c (some dev) dev) []

/-- CMD_JOURNAL_RETIRE UNMARK (R348). -/
def execJournalRetireUnmark (h : CmdHdr) (c dev : Nat) (s : State) : Out :=
  runCmd { opcode := 0x0506, leaf := false, flash := true } h s fun s =>
    if s.params.channels ≤ c ∨ 20 ≤ dev then .err s .range
    else if (s.chan c).mark = some dev then .ok ((s.setMark c none dev).modChan c (fun x => { x with recent := [] })) []
    else .err s .conflict

/-- CMD_JOURNAL_RETIRE READ: the retirement list and marks. -/
def execJournalRetireRead (h : CmdHdr) (s : State) : Out :=
  runCmd { opcode := 0x0506, leaf := false, read := true } h s fun s =>
    .ok s (le 4 s.jm.retired.length ++ le 4 s.jm.banks.length ++ s.jm.retired.flatMap (le 4) ++ s.jm.banks.flatMap (fun b => le 1 b.1 ++ le 1 b.2) ++
      (List.range s.params.channels).flatMap (fun c => le 1 (((s.chan c).mark).getD 0xFF)))

/-- CMD_JOURNAL_CONFIG (R353). -/
def execCmdJournalConfig (h : CmdHdr) (hours : Nat) (s : State) : Out :=
  runCmd { opcode := 0x0507, leaf := false } h s fun s =>
    if hours < 1 ∨ 168 < hours then .err s .range
    else .ok { s with jm := { s.jm with scrubHours := hours } } (layout [(4, s.jm.scrubHours)])

/-! ## Saving and resuming (R358, R359, R440) -/

/-- CMD_LEDGER_SAVE SAVE (R358): contributors begin no new chunk; the save goes on when what has begun has been applied. -/
def execLedgerSave (h : CmdHdr) (handle saveId : Nat) (s : State) : Out :=
  runCmd { opcode := 0x0503, leaf := false, iss := .ctx, span := true, mirrored := true } h s fun s =>
    match s.plan h.slot handle with
    | none => .err s .range
    | some p =>
      if 512 ≤ handle ∨ 256 ≤ saveId ∨ s.spans p.desc = false then .err s .range
      else if (s.jm.saves.get none saveId).isSome ∨ s.hubRunning p = false ∨
          (s.coll.hub.any (fun e => match e.2 with | some q => (match q.saving with | some (i, _) => i == saveId | none => false) | none => false)) = true then .err s .conflict
      else if s.jm.ready = false ∨ p.saving.isSome = true then .err s .busy
      else
        let s1 := (s.modPlan h.slot handle (fun p => { p with saving := some (saveId, some h.src) })).sendKids (s.planKids p.desc)
          (.saveStop h.slot (dGen p.desc) handle saveId false)
        .wait (s1.trySave h.slot handle)

/-- Whether a saved state is being resumed. -/
def State.saveInUse (s : State) (id : Nat) : Bool := s.coll.hub.any (fun e => match e.2 with | some q => q.resumed == some id | none => false)

/-- CMD_LEDGER_SAVE DELETE. -/
def execLedgerSaveDelete (h : CmdHdr) (saveId : Nat) (s : State) : Out :=
  runCmd { opcode := 0x0503, leaf := false, iss := .ctx, span := true, mirrored := true } h s fun s =>
    match s.jm.saves.get none saveId with
    | none => .err s .range
    | some v =>
      if s.jm.ready = false ∨ s.saveInUse saveId = true then .err s .busy
      else
        let t := s.releasePages v.pages
        .ok ({ t with jm := { t.jm with saves := t.jm.saves.set none saveId none } }.mirror (.save saveId none)) (layout [(4, v.chunks.length), (4, v.pages.length)])

/-- A descriptor without CTX_GEN, CTX_SLOT and HANDLE (R359). -/
def descBody (d : BitVec 512) : Nat × Nat × Nat := (dbits d 0 256, dbits d 280 136, dbits d 425 87)

/-- The chunks that a contributor still owes of a saved instance. -/
def owesOf (v : Save) (n kid : Nat) : List Nat :=
  (List.range n).filter (fun c => !v.committed.contains c && !(v.chunks.any (fun x => x.chunk == c && x.arrived.contains kid)))

/-- The saved chunks of a resumed instance wait, Spilled, for the sequencer. -/
def State.loadSaved (s : State) (c gen h : Nat) (v : Save) : State :=
  v.chunks.foldl (fun s x =>
    s.setChunk { key := { slot := c, gen := gen, handle := h, inst := v.inst, chunk := x.chunk }, state := .spilled
                 image := s.imagesOf v.chunks v.pages (v.chunks.findIdx (fun y => y.chunk == x.chunk)), arrived := x.arrived, cflags := x.flags, fromSave := true }) s

/-- CMD_LEDGER_RESUME (R359, R440). `bound` says whether the handle is bound at every contributor. A saved image that is uncorrectable
poisons its chunk and is reported with ST_POISON; the instance goes on. -/
def execCmdLedgerResume (h : CmdHdr) (saveId handle : Nat) (token : Option Nat) (bound uncorrectable : Bool) (s : State) : Out :=
  runCmd { opcode := 0x0504, leaf := false, iss := .ctx, span := true, mirrored := true } h s fun s =>
    match s.jm.saves.get none saveId with
    | none => .err s .range
    | some v =>
      if v.tenantKeyed ≠ (s.slot h.slot).tenantKeyed ∨ (v.tenantKeyed = true ∧ token ≠ some v.token) then .err s .auth
      else
        match s.plan h.slot handle with
        | none => .err s .conflict
        | some p =>
          if descBody p.desc ≠ descBody v.desc ∨ bound = false then .err s .conflict
          else if s.jm.ready = false ∨ s.hubRunning p = true ∨ p.saving.isSome = true ∨ s.saveInUse saveId = true then .err s .busy
          else if v.chunks.any (fun c => c.panes.any (fun q => !q.imagesOk)) then .err s .range
          else
            let kids := s.planKids p.desc
            let n := dChunks p.desc
            let s1 := s.modPlan h.slot handle (fun p => { p with newest := v.inst, done := v.committed, ackd := v.committed.length, resumed := some saveId })
            let s2 := s1.loadSaved h.slot (dGen p.desc) handle v
            let s3 := kids.foldl (fun s k => s.sendKids [k] (.owed h.slot (dGen p.desc) handle saveId v.inst (owesOf v n k) v.committed)) s2
            let total := (kids.map (fun k => (owesOf v n k).length)).sum
            .done (s3.instanceEnd h.slot handle) (if uncorrectable || v.pages.any s.pageBad then .poison else .ok) (layout [(4, total)])

/-! ## Staging (R360) -/

/-- The next instance of a plan. -/
def State.nextInst (s : State) (p : HPlan) : Nat :=
  if p.newest ≠ 0 ∨ p.done ≠ [] ∨ p.ackd ≠ 0 ∨ s.instChunks (dSlot p.desc) (dHandle p.desc) ≠ [] then p.newest + 1 else 0

/-- Whether a set is being written or consumed. -/
def State.setInUse (s : State) (id : Nat) : Bool :=
  s.coll.hub.any (fun e => match e.2 with
    | some q => (match q.stageOut with | some x => x.1 == id | none => false) || (match q.stageIn with | some x => x.1 == id | none => false)
    | none => false)

/-- CMD_JOURNAL_STAGE OUT (R360): the next instance's gated chunks go to the set; the command completes with that instance. -/
def execJournalStageOut (h : CmdHdr) (handle setId : Nat) (s : State) : Out :=
  runCmd { opcode := 0x0505, leaf := false, iss := .ctx, span := true, mirrored := true } h s fun s =>
    match s.plan h.slot handle with
    | none => .err s .range
    | some p =>
      if 512 ≤ handle ∨ 256 ≤ setId ∨ s.spans p.desc = false then .err s .range
      else if (s.jm.stages.get none setId).isSome then .err s .conflict
      else if s.jm.ready = false ∨ p.stageOut.isSome = true then .err s .busy
      else
        let st : Stage := { slot := h.slot, desc := p.desc, chunks := [], k := dK p.desc (s.leavesOf p.desc), m := none, pages := [], single := s.pair.solo }
        let s1 := { s with jm := { s.jm with stages := s.jm.stages.set none setId (some st) } }
        .wait (s1.modPlan h.slot handle (fun p => { p with stageOut := some (setId, h.src), stageInst := some ((p.stageInst).getD (s.nextInst p)) }))

/-- CMD_JOURNAL_STAGE IN (R360): the set is one more contribution to the next instance; the command completes with it. -/
def execJournalStageIn (h : CmdHdr) (handle setId : Nat) (s : State) : Out :=
  runCmd { opcode := 0x0505, leaf := false, iss := .ctx, span := true, mirrored := true } h s fun s =>
    match s.plan h.slot handle, s.jm.stages.get none setId with
    | some p, some st =>
      let d := p.desc
      if 512 ≤ handle ∨ 256 ≤ setId ∨ s.spans d = false then .err s .range
      else if !(dOp d == 0 || dOp d == 1 || dOp d == 4 || dOp d == 5 || dOp d == 6) || dCount d != dCount st.desc || dPanes d != dPanes st.desc || st.incomplete then
        .err s .conflict
      else if 2 ^ 31 < st.k + dK d (s.leavesOf d) ∨ st.chunks.any (fun c => c.panes.any (fun q => !q.imagesOk)) = true then .err s .range
      else if s.jm.ready = false ∨ p.stageIn.isSome = true ∨ s.setInUse setId = true then .err s .busy
      else .wait (s.modPlan h.slot handle (fun p => { p with stageIn := some (setId, h.src), stageInst := some ((p.stageInst).getD (s.nextInst p)) }))
    | _, _ => .err s .range

/-- CMD_JOURNAL_STAGE DELETE (R360). -/
def execJournalStageDelete (h : CmdHdr) (setId : Nat) (s : State) : Out :=
  runCmd { opcode := 0x0505, leaf := false, iss := .ctx, span := true, mirrored := true } h s fun s =>
    match s.jm.stages.get none setId with
    | none => .err s .range
    | some st =>
      if s.jm.ready = false ∨ s.setInUse setId = true then .err s .busy
      else
        let t := s.releasePages st.pages
        .ok ({ t with jm := { t.jm with stages := t.jm.stages.set none setId none } }.mirror (.stage setId none)) (layout [(4, st.chunks.length)])

end Sys2Proof.Machine
end

