-- ==== Sys2Proof/Machine/TimeCmd.lean ====
section
/-! DEFINITION. The TAI mapping, the application of commanded HT steps, Plumb, the time source of a Leaf, and the clock inputs (R36, R40,
R48 to R50, R140, R144, R468, R502, R503). -/

set_option linter.unusedVariables false

namespace Sys2Proof.Machine

/-! ## The TAI mapping (R48 to R50, R468) -/

/-- The primary of a pair hands a mapping to its children (R49). -/
def State.mapDown (s : State) (m : TaiMap) : State :=
  if s.isPrimary then s.sendKids (List.range s.children) (.taiMap m) else s

/-- A change of OFS by `d` ns moves the phase error of every phase-carrying reference, and the phase target (R70, R78). -/
def State.ofsMoved (s : State) (d : Int) : State := [2, 3].foldl (fun s n => s.movePhase n (d * 256)) s

/-- A mapping comes into force (R49): OFS, UTC_OFS, LEAP, SEQ; Periodic outputs of a Leaf are aligned anew (R173). -/
def State.applyMap (s : State) (m : TaiMap) : State :=
  let d := m.ofs - s.time.ofs
  let s1 := { s with time := { s.time with ofs := m.ofs, utc := m.utc, leap := m.leap, taiValid := true, seq := (s.time.seq + 1) % 65536, pend := none }
                     irq := { s.irq with taiApplied := true } }
  let s2 := if d = 0 then s1 else (s1.ofsMoved d).realign
  if s2.isHub then s2.reselect else s2

/-- A mapping reaches a block (R50): it waits, replaces one that waits, or is applied at once and recorded when it is late. -/
def State.takeMap (s : State) (m : TaiMap) : State :=
  if s.htNs < m.eff then { s with time := { s.time with pend := some m } }
  else
    let s1 := s.applyMap m
    s1.record { event := 0x0300, syn := le 8 m.eff ++ le 4 (s.htNs - m.eff) ++ le 2 s1.time.seq }

/-! ## Reports of the references and the first TAI mapping (R65 to R67, R486) -/

/-- The first mapping after reset (R486): at the primary of the top pair with VALID at 1, none applied and none pending, it takes OFS from the
time report, UTC_OFS and LEAP as they are, and comes into force at the first second of that OFS at least 1,000,000 ns ahead. -/
def State.firstMap (s : State) (ofs : Int) : State :=
  if s.isTop && s.isPrimary && s.time.valid && !s.time.taiValid && s.time.pend.isNone then
    let t : Int := (s.htNs : Int) + 1000000
    let eff := t + (-(t + ofs)) % 1000000000
    let m : TaiMap := { ofs := ofs, utc := s.time.utc, leap := s.time.leap, eff := eff.toNat }
    ((s.takeMap m).mirror (.taiMap (some m))).mapDown m
  else s

/-- The OFS that SEC of a REF2 message gives: the phase error of the 1PPS edges becomes zero (R70, R486). -/
def State.ofsOfSec (s : State) (sec : Nat) : Int := (sec : Int) * 1000000000 - s.dpll.cfg.ref2Comp - (s.ref 2).lastPps

/-- R65, R66: a status message of the REF2 receiver. A malformed one is discarded and sets MSG_ERROR. A valid one sets
REF2's rank: 15 while time valid is 0 or receiver fault is 1. -/
def execXsStatusMessage (bytes : List Byte) (s : State) : Out :=
  if !s.isTop then .next s
  else if !xsOk bytes then .next (s.hist 19)
  else
    let fl := fieldAt bytes 11 1
    let e := fieldAt bytes 4 1
    let bad := fl % 2 == 0 || fl / 2 == 1
    let q : QlReport := { ssm := fieldAt bytes 3 1 % 16, eql := if e = 0xFF then none else some e }
    let rank := if bad then 15 else rankOf ((s.dpll.cfg.ssmII[2]?).getD false) q
    let s1 := { s with dpll := { s.dpll with lastMsg := s.htNs, msgSec := some (fieldAt bytes 5 6, s.htNs), msgBad := bad } }
    let s2 := (s1.setRank 2 rank).reselect
    .next (if bad || (s.ref 2).lastPps == 0 then s2 else s2.firstMap (s.ofsOfSec (fieldAt bytes 5 6)))

/-- CMD_REF_REPORT (R64, R67, R85). -/
def execCmdRefReport (h : CmdHdr) (r : RefReport) (s : State) : Out :=
  runCmd { opcode := 0x0103, leaf := false } h s fun s =>
    let qOk := fun (q : Option QlReport) => match q with
      | some q => decide (q.ssm < 16) && (match q.eql with | some e => decide (e < 256) | none => true)
      | none => true
    let tOk := match r.temp with | some t => decide (-32768 ≤ t ∧ t ≤ 32767) | none => true
    if !(qOk r.ql0 && qOk r.ql1 && qOk r.ql3 && tOk) then .err s .range
    else
      let s1 := ((s.reportQl 0 r.ql0).reportQl 1 r.ql1).reportQl 3 r.ql3
      let s2 := match r.ofs3 with
        | some (o, t) =>
          ((s1.modRef 3 (fun f => { f with ofs3Log := f.ofs3Log ++ [(t, o)], los := false, lastEdge := s.htNs })).newPhase 3 (-o)).updCond 3
        | none => s1
      let s3 := match r.temp with
        | some t =>
          let c : Rat := (t : Rat) / 8
          let s' := { s2 with dpll := { s2.dpll with tempExt := c, tempAt := s.htNs, stale := false } }
          if s'.dpll.cfg.tempExternal ∧ s'.openLoop = false ∧ s'.dpll.state = StatusWord.holdover ∧ (s'.dpll.cfg.tempExcC : Rat) < rabs (c - s'.dpll.model.t0) then s'.enter .lost
          else s'
        | none => s2
      let s4 := s3.reselect
      .ok (match r.ofs3 with | some (o, _) => s4.firstMap (s.time.ofs + o / 256) | none => s4) []

/-- CMD_TAI_MAP (R468): at the serving Hub of the top pair. -/
def execCmdTaiMap (h : CmdHdr) (ofs : Int) (utc leap : Nat) (eff : HT) (s : State) : Out :=
  runCmd { opcode := 0x0101, leaf := false } h s fun s =>
    if !s.isTop || !s.isPrimary then .err s .conflict
    else if eff < s.htNs + 1000000 ∨ 3 ≤ leap ∨ 256 ≤ utc then .err s .range
    else
      let m : TaiMap := { ofs := ofs, utc := utc, leap := leap, eff := eff }
      .ok (((s.takeMap m).mirror (.taiMap (some m))).mapDown m) (layout [(1, b2n s.time.pend.isSome)])

/-- R49: HT has reached the effective HT of the pending mapping. -/
def execTaiMapApply (s : State) : Out :=
  match s.time.pend with
  | some m => if m.eff ≤ s.htNs then .next (s.applyMap m) else .next s
  | none => .next s

/-- R49, R50: a distributed mapping arrives from above; the primary of a pair mirrors it and hands it on. -/
def execTaiMapReceive (l : Link) (m : TaiMap) (s : State) : Out :=
  s.receivedIf (s.params.isUp l.port) l 1 fun s =>
    if s.isTop then .next s else .next (((s.takeMap m).mirror (.taiMap (some m))).mapDown m)

/-! ## Commanded steps (R36, R50, Table 6.7, R488) -/

/-- Whether this block's firmware writes HT checkpoints: a Hub of the top pair (R40). -/
def State.checkpoints (s : State) : Bool := s.isTop && s.time.valid && !s.scriv.restarting

/-- Write an HT checkpoint to flash (R40). -/
def State.checkpoint (s : State) : State := { s with flash := { s.flash with checkpoint := some s.htNs, checkpointAt := s.htNs } }

/-- HT steps by `d` (R36, R50): OFS and the ALIGN of a Hub's outputs change by −d, armed strikes are checked again, and the top pair
writes a checkpoint (R488). -/
def State.stepHt (s : State) (d : Int) : State :=
  let s1 := s.moveTime d
  let s2 := { s1 with
    time := { s1.time with stepCnt := (s1.time.stepCnt + 1) % 256, ofs := s1.time.ofs - d, step := none }
    irq := { s1.irq with htStep := true } }
  let s3 := (List.range 4).foldl (fun s n => s.modPo n (fun o => { o with align := if s.isHub then o.align - d else o.align })) s2
  let s4 := s3.realign.recheckStrikes.lateRels
  if s4.checkpoints then s4.checkpoint else s4

/-- R36: HT has reached the effective HT of the armed step. -/
def execHtStepApply (s : State) : Out :=
  match s.time.step with
  | some a => if a.eff ≤ s.htNs ∧ a.src = none then .next (s.stepHt a.d) else .next s
  | none => .next s

/-- R40: firmware of the top pair writes a checkpoint. -/
def execHtCheckpoint (s : State) : Out := if s.checkpoints then .next s.checkpoint else .next s

/-! ## Plumb (R135, R140, R141, R151) -/

/-- The results of CMD_PLUMB (Table 5.6). -/
def plumbOut (o : PortSt) : List Byte := layout [(8, twos 64 o.theta), (8, twos 64 o.asym), (8, twos 64 o.refDelay), (8, twos 64 o.rtt)]

/-- The checks of a port that every operation of CMD_PLUMB makes (Table 5.6). -/
def State.plumbPort (s : State) (p : Nat) : Option St :=
  if !s.params.hasPort p then some .range
  else if !s.childEnd p || !(s.port p).timeUsable then some .conflict
  else none

/-- CMD_PLUMB MEASURE (R140): both ends calibrate and then pulse at the same HT values, `PlumbRun.second` and on. -/
def execPlumbMeasure (h : CmdHdr) (a : PlumbArgs) (s : State) : Out :=
  runCmd { opcode := 0x0109 } h s fun s =>
    match s.plumbPort a.port with
    | some c => .err s c
    | none =>
      if 4 ≤ a.poChild ∨ 4 ≤ a.poParent ∨ 8 ≤ a.chChild ∨ 8 ≤ a.chParent ∨ a.count < 16 ∨ 4096 < a.count then .err s .range
      else
        match s.plumbCheck a.poChild a.chChild with
        | some c => .err s c
        | none =>
          let start := roundUp (s.htNs + 10000) 1024
          .wait ((s.plumbTake { args := a, src := some h.src, start := start } a.poChild a.chChild).send a.port
            (.plumb (.plumbStart a.poParent a.chParent a.count start)))

/-- R140: this end has sent the pulses of both steps. The parent tells the child its means. The child, once it has them, forms D_c and D_p, each a
mean less half of each end's external-path delay, then θ, the reference path delay and the new A. An end that stamped fewer edges than the count fails with
ST_RANGE (R115). -/
def execPlumbComplete (s : State) : Out :=
  match s.tsrc.plumb with
  | none => .next s
  | some r =>
    if s.htNs < r.second + (r.args.count - 1) * 1024 + 64 then .next s
    else
      let short := decide (r.ext.1 < r.args.count) || decide (r.got.1 < r.args.count)
      let (m, e) := s.plumbMeans r
      match r.src, r.peer with
      | none, some _ => .next s
      | none, none =>
        if short then .next (s.plumbDrop.send r.args.port (.plumb (.plumbFail .range)))
        else .next ({ s with tsrc := { s.tsrc with plumb := some { r with peer := some (m, e) } } }.send r.args.port (.plumb (.plumbMeans m e)))
      | some src, some (mp, ep) =>
        if short then .next (s.plumbFails .range)
        else
          let p := r.args.port
          let dc := m - (e + ep) / 2
          let dp := mp - (e + ep) / 2
          let theta := (dc - dp) / 2
          let a := (s.port p).asym - theta
          let s1 := (s.plumbDrop.storeAsym p a).modPort p (fun o => { o with theta := theta, refDelay := (dc + dp) / 2 })
          .next (complete (s1.send p (.plumb (.plumbEnd (some a)))) src 0x0109 .ok (plumbOut (s1.port p)))
      | some _, none => .next (if short then s.plumbFails .range else s)

/-- CMD_PLUMB LOAD (R141): the value counts as commissioned. -/
def execPlumbLoad (h : CmdHdr) (port : Nat) (a : Int) (s : State) : Out :=
  runCmd { opcode := 0x0109, flash := true } h s fun s =>
    match s.plumbPort port with
    | some c => .err s c
    | none =>
      if a < -2147483648 ∨ 2147483647 < a then .err s .range
      else if s.tsrc.plumb.isSome then .err s .busy
      else
        let s1 := (s.storeAsym port a).send port (.plumb (.plumbEnd (some a)))
        .ok s1 (plumbOut (s1.port port))

/-- CMD_PLUMB READ. -/
def execPlumbRead (h : CmdHdr) (port : Nat) (s : State) : Out :=
  runCmd { opcode := 0x0109, read := true } h s fun s =>
    match s.plumbPort port with
    | some c => .err s c
    | none => .ok s (plumbOut (s.port port))

/-- CMD_PLUMB CLEAR_SUSPECT (R135). -/
def execPlumbClearSuspect (h : CmdHdr) (port : Nat) (s : State) : Out :=
  runCmd { opcode := 0x0109 } h s fun s =>
    match s.plumbPort port with
    | some c => .err s c
    | none =>
      let s1 := s.modPort port (fun o => { o with suspect := false })
      .ok s1 (plumbOut (s1.port port))

/-- CMD_TSRC_CONFIG (R144, R145). The source is chosen again at the next update. -/
def execCmdTsrcConfig (h : CmdHdr) (mode slope recSlope : Nat) (s : State) : Out :=
  runCmd { opcode := 0x010A, hub := false } h s fun s =>
    if 2 < mode ∨ slope < 1 ∨ 500 < slope ∨ recSlope < 1 ∨ 10000 < recSlope then .err s .range
    else .ok { s with tsrc := { s.tsrc with mode := mode, slope := slope, recSlope := recSlope } }
      (layout [(1, s.tsrc.mode), (4, s.tsrc.slope), (4, s.tsrc.recSlope)])

/-! ## The synthesiser and the oscillator clock (R502, R503) -/

/-- R503: ht_syn_lock falls. -/
def execSynLockFall (s : State) : Out :=
  let s1 := { s with time := { s.time with synLock := false, synLost := true, synBack := some s.htNs }, irq := { s.irq with synUnlock := true } }
  .next (s1.record { event := 0x0940 }).refreshWord

/-- R503: ht_syn_lock has stayed at 1 for 1,000,000 ns. -/
def execSynLockRestored (s : State) : Out :=
  match s.time.synBack with
  | some t =>
    if t + 1000000 ≤ s.htNs then .next ({ s with time := { s.time with synLock := true, synLost := false, synBack := none } }).refreshWord
    else .next s
  | none => .next { s with time := { s.time with synLock := true } }

/-- R502: ocxo_clk has had no rising edge for 200 ns. -/
def execOcxoLoss (s : State) : Out :=
  if s.isHub && s.dpll.ocxoRun then
    let s1 := s.endTrust
    let s2 := { s1 with dpll := { s1.dpll with ocxoRun := false, settleStart := none }, irq := { s1.irq with ocxoLoss := true } }
    .next (s2.record { event := 0x0941 })
  else .next s

/-- R502: ocxo_clk runs again: the settle time starts when ocxo_warm_n is 0. -/
def execOcxoClockReturn (s : State) : Out :=
  if s.isHub && !s.dpll.ocxoRun then
    .next { s with dpll := { s.dpll with ocxoRun := true, settleStart := if s.dpll.warmN then none else some s.htNs } }
  else .next s

end Sys2Proof.Machine
end

