-- ==== Sys2Proof/Machine/Attest.lean ====
section
/-! DEFINITION. Attestation (R422, R423, R427, R450): the report of Table 18.4 and CMD_ATTEST. -/

set_option linter.unusedVariables false

namespace Sys2Proof.Machine

/-- The attestation public key, 96 bytes (R422). -/
def State.attPub (s : State) : Nat := Config.pubOf s.sec.attKey

/-- DEVICE_ID: SHA-384 of the attestation public key (Table 18.4). -/
def State.deviceId (s : State) : Nat := Config.sha384 (be 96 s.attPub)

/-- Bytes 0 to 319 of the attestation report (Table 18.4). -/
def State.reportBody (s : State) (nonce userData : Nat) : List Byte :=
  le 4 1 ++ le 4 0x00030002 ++ le 4 s.params.dxConfig ++ le 4 s.scriv.fwVersion ++ le 4 s.scriv.fwSvn ++ le 2 s.scriv.mirrorVer ++
    le 2 (b2n s.isHub + 2 * (if s.isHub then s.boot.cfg.pos else 0)) ++ le 8 s.htNs ++ be 48 nonce ++ be 48 s.scriv.fwDigest ++ be 48 s.scriv.cfgDigest ++
    be 48 s.boot.cfg.ownerDigest ++ be 48 s.deviceId ++ be 48 userData

/-- The whole report, signed with the attestation key (R427). -/
def State.report (s : State) (nonce userData : Nat) : List Byte :=
  let b := s.reportBody nonce userData
  b ++ be 96 (Config.sign s.sec.attKey b)

/-- CMD_ATTEST ENROLL (R422): helper data are generated and written to flash; the attestation key exists from then on. After a debug
unlock the PUF is disabled and no key can be formed (R447). -/
def execAttestEnroll (h : CmdHdr) (s : State) : Out :=
  runCmd { opcode := 0x0803, read := true, flash := true } h s fun s =>
    if s.flash.helper.isSome then .err s .conflict
    else if !s.sec.pufOn then .err s .auth
    else
      let hd := Config.freeRandom s.freeCtr
      let s1 := { s with
        freeCtr := s.freeCtr + 1
        flash := { s.flash with helper := some hd }
        sec := { s.sec with helper := hd, enrolled := true, keysValid := true, attKey := Config.hkdf (Config.rootKey hd) "DXATT" [] } }
      .ok s1 (be 96 s1.attPub)

/-- CMD_ATTEST REPORT (R427). -/
def execAttestReport (h : CmdHdr) (nonce userData : Nat) (s : State) : Out :=
  runCmd { opcode := 0x0803, iss := .any, read := true } h s fun s =>
    if !s.sec.keysValid then .err s .auth else .ok s (s.report nonce userData)

/-- CMD_ATTEST CERT_LOAD (R422): the chain as read, and whether it ends in the block's attestation public key. -/
def execAttestCertLoad (h : CmdHdr) (len : Nat) (chain : FabRead (Nat × Bool)) (s : State) : Out :=
  runRead { opcode := 0x0803, read := true, flash := true } h s chain fun s =>
    if len = 0 ∨ 8192 < len then .err s .range
    else withRead s chain fun c =>
      if !c.2 || !s.sec.keysValid then .err s .auth
      else .ok { s with sec := { s.sec with certs := some (len, c.1) }, flash := { s.flash with certs := some (len, c.1) } } []

/-- CMD_ATTEST CERT_READ (R422): the stored chain, no bytes when there is none. -/
def execAttestCertRead (h : CmdHdr) (s : State) : Out :=
  runCmd { opcode := 0x0803, iss := .any, read := true } h s fun s =>
    .ok s (match s.sec.certs with | some c => le c.1 c.2 | none => [])

end Sys2Proof.Machine
end

