-- ==== Sys2Proof/Machine/Dist.lean ====
section
/-! DEFINITION. Distributed commands (R546): what each block accepts, undoes and confirms, how a Hub distributes and collects; and the
commands that are distributed: CMD_BARRIER_DEFINE, CMD_COLL_PLAN, CMD_CTX_OPEN, CMD_CTX_CLOSE, CMD_CTX_SHAPE, CMD_CLASS_CONFIG and
CMD_HT_STEP. The numbers of distributed commands are the model's. -/

set_option linter.unusedVariables false

namespace Sys2Proof.Machine

/-- The place among the ports of a distribution that stands for this Hub's own clear. -/
def ownClear : Nat := 999

/-! ## Contexts at a block (R431 to R438) -/

/-- Whether a slot is free: no context open in it, none clearing, no slot reset (R433, R438). -/
def Ctx.free (x : Ctx) : Bool := !x.open_ && !x.clearing && !x.resetting

/-- The children whose port is up. -/
def State.upKids (s : State) : List Nat := (List.range s.children).filter (fun k => (s.childPorts k).any (fun p => (s.port p).up))

/-- The children of this Hub that a context's mask names: absent, every child whose port is up; a mask of pods names each child with a
pod in it (R544). -/
def State.ctxKids (s : State) (m : CtxMsg) : List Nat :=
  match m.mask with
  | none => s.upKids
  | some k => if s.tier = 3 then (List.range 64).filter (fun c => k / 2 ^ (64 * c) % 2 ^ 64 != 0) else maskKids k

/-- Install a context with its key in clear (R433, R434): LAST_GEN takes the generation and TERM clears. -/
def State.install (s : State) (m : CtxMsg) (kids : List Nat) : State :=
  s.modSlot m.slot (fun x =>
    { x with lastGen := m.gen, open_ := true, clearReq := false, clearing := false, tenantKeyed := m.tenantKeyed, enc := m.enc, radio := m.radio
             term := 0, key := m.key, cmdSeq := 0, tier := m.span, ports := kids, leaves := [], spanHere := s.isHub && m.span == s.tier
             closing := none, ackTo := none, irq := 0, irqEn := 0 })

/-- The Leaves of a context's job below each child of this Hub. -/
def State.noteLeaves (s : State) (c g : Nat) (l : List (Nat × Nat)) : State :=
  if (s.slot c).open_ && (s.slot c).lastGen == g then s.modSlot c (fun x => { x with leaves := l.foldl (fun t e => t.set 0 e.1 e.2) [] }) else s

/-- A participant installs a context whose slot is free (R433). -/
def State.acceptCtx (s : State) (m : CtxMsg) : Except St State :=
  if !(s.slot m.slot).free || decide (s.params.contexts ≤ m.slot) then .error .busy
  else .ok (s.install m (if s.isHub then s.ctxKids m else []))

/-- A clear is ordered at this block (R195, R441): its clear tick follows. -/
def State.askClear (s : State) (c g code : Nat) : State :=
  if (s.slot c).open_ ∧ (s.slot c).lastGen = g ∧ (s.slot c).clearing = false then s.modSlot c (fun x => { x with clearReq := true, term := code }) else s

/-- Whether a block still has to clear a context. -/
def State.clearsYet (s : State) (c g : Nat) : Bool := (s.slot c).open_ && decide ((s.slot c).lastGen = g)

/-! ## Plans at a Hub (Table 10.2, R262, R285) -/

/-- The tiles in service of the set that serves a collective's class. -/
def State.classTiles (s : State) (d : BitVec 512) : List Nat := s.tilesIn.filter (fun t => (s.tile t).state == 1 && (s.tile t).radio == dRadio d)

/-- The sum of W × CHUNK_PANES over the radio collectives planned here (R285). -/
def State.radioPlanned (s : State) : Nat :=
  (s.coll.hub.map (fun e => match e.2 with | some p => if dRadio p.desc then p.w * dPanes p.desc else 0 | none => 0)).sum

/-- Whether a radio collective is admitted at this pair (R285). -/
def State.radioAdmits (s : State) (d : BitVec 512) (w : Nat) : Bool :=
  decide (s.sched.radioTiles ≠ 0) &&
    decide (s.radioPlanned + w * dPanes d ≤ 1024 * (s.tilesIn.filter (fun t => (s.tile t).radio)).length)

/-- The panes that a pair below the span pair reserves to retain W partials (R262). -/
def State.pairPanes (s : State) (d : BitVec 512) (w : Nat) : Option (List (Nat × Nat)) :=
  if s.spans d then some []
  else
    let n := w * ((45 * dElems d 0 + 15359) / 15360)
    let l := ((s.classTiles d).flatMap (fun t => (s.freePanes t).map (fun p => (t, p)))).take n
    if l.length < n then none else some l

/-- The acceptance of a plan at a Hub that takes part (Table 10.2, R285), with the codes in the order of R546. -/
def State.hubOpen (s : State) (d : BitVec 512) (w : Nat) : Except St State :=
  let c := dSlot d
  if s.spans d && (!s.maskOk c (dMask d) || decide (2 ^ 31 < dK d (s.leavesOf d))) then .error .range
  else if !(s.slot c).open_ || decide ((s.slot c).lastGen ≠ dGen d) then .error .genWrap
  else if (s.plan c (dHandle d)).isSome || (dRadio d && !(s.slot c).radio) then .error .conflict
  else if (s.slot c).clearing || (dRadio d && !s.radioAdmits d w) then .error .busy
  else match s.pairPanes d w with
    | none => .error .busy
    | some r => .ok ((s.reserve r true).setPlan c (dHandle d) (some { desc := d, w := w, ret := r }))

/-- Remove a plan from this Hub. -/
def State.hubClose (s : State) (c h : Nat) : State :=
  match s.plan c h with
  | some p => (s.reserve p.ret false).setPlan c h none
  | none => s

/-- The acceptance of a plan at a Leaf that takes part. -/
def State.leafTake (s : State) (d : BitVec 512) (w : Nat) : Except St State :=
  if dSlot d ≠ 0 ∧ ((s.slot (dSlot d)).open_ = false ∨ (s.slot (dSlot d)).lastGen ≠ dGen d) then .error .genWrap
  else if dRadio d && !(s.slot (dSlot d)).radio then .error .conflict
  else match s.leafPlan d w with
    | .error e => .error e
    | .ok p => .ok (s.leafOpen d w p)

/-- What this block tells of a command it accepted: of a plan the manifest of the context and the panes reserved (R312, Table 10.9), of the open of a
context that a Leaf takes part (R544). -/
def State.ackInfo (s : State) (c : DistCmd) : AckInfo :=
  match c with
  | .collOpen d w =>
    let m := (s.manifest (dSlot d)).getD (0, 0)
    let n := match s.lcoll (dSlot d) (dHandle d) with | some x => x.acc.length + x.ret.length | none => 0
    { digest := m.1, label := m.2, panes := n }
  | .ctxOpen _ => { leaves := b2n (!s.isHub) }
  | _ => {}

/-! ## Accepting, undoing and confirming at one block -/

/-- What a distributed command does at this block when it accepts it, with what an undo needs; or its refusal (R546). `above` says that
the command comes from the pair above. -/
def State.distApply (s : State) (above : Bool) (c : DistCmd) : Except St (State × Undo) :=
  match c with
  | .barrierDefine sl g d => (if s.isHub then s.hubDefBar sl g d else s.leafDefBar sl g d).map (fun t => (t, {}))
  | .collOpen d w => (if s.isHub then s.hubOpen d w else s.leafTake d w).map (fun t => (t, {}))
  | .collClose sl g h =>
    let busy := if s.isHub then (match s.plan sl h with | some p => s.hubRunning p | none => false)
      else (match s.lcoll sl h with | some x => x.running || s.armedColl sl h | none => false)
    if !s.openCtx sl g then .error .genWrap else if busy then .error .busy else .ok (s, {})
  | .ctxOpen m => (s.acceptCtx m).map (fun t => (t, { gen := (s.slot m.slot).lastGen }))
  | .ctxClose sl g code => .ok (s.askClear sl g code, {})
  | .ctxShape sl g w r b full =>
    if !(s.slot sl).open_ || (s.slot sl).clearing || decide ((s.slot sl).lastGen ≠ g) || (s.slot sl).radio then .error .conflict
    else .ok (s.setShape sl w r b full, { shape := s.shapeOf sl })
  | .classConfig n eff =>
    if s.isHub && above then .ok ({ s with sched := { s.sched with upSlotsPend := some (n, eff) } }, { pend := s.sched.upSlotsPend })
    else .ok ({ s with sched := { s.sched with slotsPend := some (n, eff) } }, { pend := s.sched.slotsPend })
  | .htStep d eff =>
    if s.ctx.any (fun e => e.1 != 0 && e.2.open_) then .error .conflict
    else if s.time.step.isSome then .error .busy
    else .ok ({ s with time := { s.time with step := some { d := d, eff := eff } } }, {})
  | .barrierDelete _ _ _ => .ok (s, {})
  | .slotReset _ => .ok (s, {})
  | .withdraw _ => .ok (s, {})
  | .confirm _ => .ok (s, {})

/-- Undo at this block what an accepted command did (R546, R449). -/
def State.distUndo (s : State) (above : Bool) (c : DistCmd) (u : Undo) : State :=
  match c with
  | .barrierDefine sl _ d => if s.isHub then s.setHbar sl d.id none else s.setLbar sl d.id none
  | .collOpen d _ => if s.isHub then s.hubClose (dSlot d) (dHandle d) else s.leafClose (dSlot d) (dHandle d)
  | .ctxOpen m => s.modSlot m.slot (fun x => { x with lastGen := u.gen, open_ := false, key := 0, ports := [], leaves := [] })
  | .ctxShape sl _ _ _ _ _ => s.modShape sl (fun _ => u.shape)
  | .classConfig _ _ =>
    if s.isHub && above then { s with sched := { s.sched with upSlotsPend := u.pend } } else { s with sched := { s.sched with slotsPend := u.pend } }
  | .htStep _ _ => { s with time := { s.time with step := none } }
  | _ => s

/-- What the confirmation of a command does at this block: a CLOSE removes the collective (R276). -/
def State.distConfirm (s : State) (c : DistCmd) : State :=
  match c with
  | .collClose sl _ h => if s.isHub then s.hubClose sl h else s.leafClose sl h
  | _ => s

/-- The mirrored form of a distributed command (Table 17.2). -/
def State.mirrorForm (s : State) (c : DistCmd) : Option MirrorMsg :=
  match c with
  | .barrierDefine sl g d => some (.barrierDef sl g d 0)
  | .collOpen d w => some (.collPlan d w)
  | .collClose sl g h => some (.collClose sl g h)
  | .ctxOpen m => some (.ctxInstall { m with key := Config.wrap s.pair.pairKey m.key, mask := some (s.kidMask (s.slot m.slot).ports) })
  | .ctxClose sl g _ => some (.ctxClear sl g)
  | .ctxShape sl g w r b _ => some (.shape sl g w r b)
  | .classConfig n e => some (.radioSlots n e)
  | _ => none

/-! ## Distribution by a Hub -/

/-- The opcode of a distributed command (Table 19.7). -/
def distOpcode : DistCmd → Nat
  | .barrierDefine _ _ _ => 0x0303
  | .barrierDelete _ _ _ => 0x0304
  | .collOpen _ _ => 0x0401
  | .collClose _ _ _ => 0x0401
  | .ctxOpen _ => 0x0801
  | .ctxClose _ _ _ => 0x0802
  | .ctxShape _ _ _ _ _ _ => 0x0404
  | .classConfig _ _ => 0x0403
  | .htStep _ _ => 0x010B
  | _ => 0

/-- The context slot that a distributed command is about. -/
def distSlot : DistCmd → Option Nat
  | .barrierDefine c _ _ => some c
  | .barrierDelete c _ _ => some c
  | .collOpen d _ => some (dSlot d)
  | .collClose c _ _ => some c
  | .ctxShape c _ _ _ _ _ => some c
  | _ => none

/-- The number under which an open is distributed: its slot and generation name it. -/
def openId (m : CtxMsg) : Nat := 2 ^ 32 + m.slot * 65536 + m.gen

/-- The ports below this Hub to which a command goes. -/
def State.distPorts (s : State) (c : DistCmd) : List Nat :=
  match c with
  | .barrierDefine sl _ d => (s.kidsOf sl d.spanTier d.mask).map s.childPort
  | .barrierDelete sl _ id => (match s.hbar sl id with | some b => (s.kidsOf sl b.d.spanTier b.d.mask).map s.childPort | none => [])
  | .collOpen d _ => (s.planKids d).map s.childPort
  | .collClose sl _ h => (match s.plan sl h with | some p => (s.planKids p.desc).map s.childPort | none => [])
  | .ctxOpen m => (s.ctxKids m).map s.childPort
  | .ctxClose sl _ _ => ((s.slot sl).ports).map s.childPort
  | .ctxShape sl _ _ _ _ _ => ((s.slot sl).ports).map s.childPort
  | .classConfig _ _ => s.upKids.flatMap s.bothPorts
  | .htStep _ _ => s.upKids.map s.childPort
  | .slotReset _ => s.upKids.map s.childPort
  | _ => []

/-- The message that carries a command to a port below: an open goes as a context message, its key wrapped for the port and its mask
that of the child (R434). -/
def State.distMsg (s : State) (id : Nat) (c : DistCmd) (p : Nat) : TxMsg :=
  match c with
  | .ctxOpen m =>
    let kid := s.portChild p
    let sub := match m.mask with | some k => if s.tier = 3 then some (k / 2 ^ (64 * kid) % 2 ^ 64) else none | none => none
    .context { m with key := Config.wrap (((s.port p).keys.map (·.wrap)).getD 0) m.key, mask := sub }
  | _ => .distribute id c

/-- The chord port on which a partner hears of a command: the lowest that is up, when a partner is waited for (R411); a step goes to the
other Hub whatever its role. -/
def State.distChord (s : State) (c : DistCmd) : List Nat :=
  let l := s.chordUp.take 1
  match c with
  | .htStep _ _ => l
  | _ => if s.pair.solo then [] else l

/-- Begin the distribution of a command (R546): to the blocks below and to the partner. A pair without a partner records the mirrored
form for the full mirror or the running changes (R411). -/
def State.distribute (s : State) (id : Nat) (c : DistCmd) (ports : List Nat) (d : Dist) : State :=
  let ch := s.distChord c
  let own := match c with | .ctxClose sl g _ => if s.clearsYet sl g then [ownClear] else [] | _ => []
  let s1 := { s with scriv := { s.scriv with dists := s.scriv.dists ++ [{ d with id := id, cmd := c, waiting := ports ++ ch ++ own }] } }
  let s2 := ports.foldl (fun s p => s.send p (s.distMsg id c p)) s1
  let mir := s2.mirrorForm c
  let s3 := match mir with | some m => if ch.isEmpty then s2.mirror m else s2.logWrite m | none => s2
  let cc := match c with | .ctxOpen m => DistCmd.ctxOpen { m with key := Config.wrap s.pair.pairKey m.key, mask := some (s.kidMask (s.ctxKids m)) } | _ => c
  s3.sendAll ch (.distribute id cc)

/-- The next number for a command that this Hub distributes. -/
def State.newDist (s : State) (c : DistCmd) : State × Nat :=
  match c with
  | .ctxOpen m => (s, openId m)
  | _ => ({ s with scriv := { s.scriv with nextDist := (s.scriv.nextDist + 1) % 2 ^ 32 } }, s.scriv.nextDist)

/-- The place of a code in the order of R546. -/
def refusalRank : St → Nat
  | .range => 0 | .auth => 1 | .genWrap => 2 | .conflict => 3 | .noComparator => 4 | .busy => 5 | _ => 6

/-- The refusal that a command returns (R546). -/
def worstOf : List St → Option St
  | [] => none
  | c :: r => match worstOf r with
    | none => some c
    | some d => if refusalRank c ≤ refusalRank d then some c else some d

/-- Whether the Leaves of a plan hold one manifest (R312). -/
def sameManifest (l : List (Nat × AckInfo)) : Bool :=
  match l with
  | [] => true
  | x :: r => r.all (fun y => y.2.digest == x.2.digest && y.2.label == x.2.label)

/-- What a Hub tells above: of a plan the manifest of its Leaves and the most panes that one of them reserved, of an open the number of Leaves. -/
def joinInfo (l : List (Nat × AckInfo)) : AckInfo :=
  l.foldl (fun a y => { (if a.digest = 0 then { a with digest := y.2.digest, label := y.2.label } else a) with
                        panes := max a.panes y.2.panes, leaves := a.leaves + y.2.leaves }) {}

/-- Tell the accepted blocks of a distribution to undo or to keep what they did. -/
def State.distTell (s : State) (d : Dist) (c : DistCmd) : State := s.sendAll (d.accepted.filter (fun p => p != ownClear)) (.distribute d.id c)

/-- Forget a distribution. -/
def State.distDrop (s : State) (id : Nat) : State :=
  { s with scriv := { s.scriv with dists := s.scriv.dists.filter (fun d => d.id != id) } }

/-- Whether a command reached this Hub from the pair above. -/
def Dist.above (d : Dist) : Bool := d.up.isSome

/-- A distribution fails with a code: what was set up is removed everywhere (R546); the code goes to the command's source or upward. -/
def State.distFail (s : State) (d : Dist) (code : St) (ownOk : Bool) : State :=
  let s1 := (s.distDrop d.id).distTell d (.withdraw d.id)
  let s2 := if ownOk then s1.distUndo d.above d.cmd d.undo else s1
  match d.up with
  | some (p, id) => s2.send p (.distAck id code {})
  | none => complete s2 d.src (distOpcode d.cmd) code []

/-- The Leaves' manifests become known to the span pair with the plan (R301, R312). -/
def State.takeManifests (s : State) (d : Dist) : State :=
  match d.cmd with
  | .collOpen desc _ => d.infos.foldl (fun s e =>
      if e.2.digest = 0 then s
      else { s with hm := { s.hm with manifests := s.hm.manifests.set none (dSlot desc * 256 + s.portChild e.1 % 256) (some (e.2.digest, e.2.label)) } }) s
  | _ => s

/-- The Leaves of the job below each child become known with the open of a context (R208, R544), here and at the partner (Table 17.2). -/
def State.takeLeaves (s : State) (d : Dist) : State :=
  match d.cmd with
  | .ctxOpen m =>
    let l := (d.infos.filter (fun e => s.params.isDown e.1)).map (fun e => (s.portChild e.1, e.2.leaves))
    (s.noteLeaves m.slot m.gen l).mirror (.ctxLeaves m.slot m.gen l)
  | _ => s

/-- The result of CMD_COLL_PLAN OPEN: chunks per instance and the panes reserved at each Leaf (Table 10.9). -/
def distResults (d : Dist) : List Byte :=
  match d.cmd with
  | .collOpen desc _ => layout [(4, dChunks desc), (2, (joinInfo d.infos).panes)]
  | _ => d.results

/-- Every block has been heard and none refused: the command is complete; a block below the one that distributes answers upward and
keeps what it knows for the confirmation. -/
def State.distDone (s : State) (d : Dist) : State :=
  let s1 := (s.takeManifests d).takeLeaves d
  match d.up with
  | some (p, id) => s1.send p (.distAck id .ok (joinInfo d.infos))
  | none =>
    let s2 := ((s1.distDrop d.id).distTell d (.confirm d.id)).distConfirm d.cmd
    let s3 := match d.cmd with
      | .htStep v e => { s2 with time := { s2.time with step := some { d := v, eff := e, src := none } } }
      | .ctxClose sl _ _ => s2.modSlot sl (fun x => { x with closing := none })
      | _ => s2
    complete s3 d.src (distOpcode d.cmd) .ok (distResults d)

/-- Look whether a distribution has heard every block. -/
def State.distFinish (s : State) (id : Nat) (ownOk : Bool) : State :=
  match s.scriv.dists.find? (fun d => d.id == id) with
  | none => s
  | some d =>
    if !d.waiting.isEmpty then s
    else
      match worstOf d.refusals with
      | some c => s.distFail d c ownOk
      | none =>
        let split := match d.cmd with | .collOpen _ _ => !sameManifest (d.infos.filter (fun e => s.params.isDown e.1)) | _ => false
        if split then s.distFail d .conflict ownOk else s.distDone d

/-- A block answers a distribution. The own acceptance of this Hub stands unless the distribution already holds its refusal, which is
kept with no port. -/
def State.distHeard (s : State) (p id : Nat) (code : St) (info : AckInfo) : State :=
  match s.scriv.dists.find? (fun d => d.id == id) with
  | none => s
  | some d =>
    if !d.waiting.contains p then s
    else
      let ok := decide (code = St.ok)
      let d1 : Dist := { d with
        waiting := d.waiting.filter (fun q => q != p)
        accepted := if ok then d.accepted ++ [p] else d.accepted
        refusals := if ok then d.refusals else d.refusals ++ [code]
        infos := if ok then d.infos ++ [(p, info)] else d.infos }
      let s1 := { s with scriv := { s.scriv with dists := s.scriv.dists.map (fun (x : Dist) => if x.id == id then d1 else x) } }
      s1.distFinish id d.ownOk

/-- A Hub that executes or passes on a command: its own acceptance, then every block below and the partner. A refusal of its own with
ST_RANGE comes first in any case and ends the command at once. -/
def State.distBegin (s : State) (c : DistCmd) (src : CmdSrc) (up : Option (Nat × Nat)) (results : List Byte) (deadline : Option HT) : State :=
  match s.distApply up.isSome c with
  | .error .range =>
    (match up with
     | some (p, id) => s.send p (.distAck id .range {})
     | none => complete s src (distOpcode c) .range [])
  | r =>
    let (s1, u, ref) := match r with | .ok (t, u) => (t, u, ([] : List St)) | .error e => (s, ({} : Undo), [e])
    let (s2, id) := s1.newDist c
    let d : Dist := { id := id, cmd := c, src := src, up := up, waiting := [], refusals := ref, ownOk := ref.isEmpty, deadline := deadline, results := results, undo := u }
    (s2.distribute id c (s2.distPorts c) d).distFinish id ref.isEmpty

/-! ## Receiving (DISTRIBUTION_RECEIVE, DISTRIBUTION_ACK_RECEIVE) -/

/-- A command distributed to this block as a participant without blocks of its own below it: a Leaf, or the partner of a pair. -/
def State.distLeaf (s : State) (p id : Nat) (c : DistCmd) : State :=
  match s.distApply (s.params.isUp p) c with
  | .error e => s.send p (.distAck id e {})
  | .ok (t, u) =>
    match c with
    | .ctxClose sl g _ =>
      if t.clearsYet sl g then t.modSlot sl (fun x => { x with ackTo := some (p, id) }) else t.send p (.distAck id .ok {})
    | _ =>
      let t1 := { t with scriv := { t.scriv with seen := t.scriv.seen ++ [({ port := p, id := id, cmd := c, undo := u } : DistSeen)] } }
      let t2 := if s.isHub then (match t1.mirrorForm c with | some m => { t1 with scriv := { t1.scriv with epochLog := (t1.logWrite m).scriv.epochLog } } | none => t1) else t1
      t2.send p (.distAck id .ok (t2.ackInfo c))

/-- The withdrawal or confirmation of a command that came on a port under a number. -/
def State.distEnd (s : State) (p id : Nat) (keep : Bool) : State :=
  match s.scriv.dists.find? (fun d => d.up == some (p, id)) with
  | some d =>
    let s1 := (s.distDrop d.id).distTell d (if keep then .confirm d.id else .withdraw d.id)
    if keep then s1.distConfirm d.cmd else if d.ownOk then s1.distUndo true d.cmd d.undo else s1
  | none =>
    match s.scriv.seen.find? (fun e => e.port == p && e.id == id) with
    | none => s
    | some e =>
      let s1 := { s with scriv := { s.scriv with seen := s.scriv.seen.filter (fun x => !(x.port == p && x.id == id)) } }
      if keep then s1.distConfirm e.cmd else s1.distUndo (s.params.isUp p) e.cmd e.undo

/-- Start a slot reset of a free slot here and below (R433, R438). -/
def State.startSlotReset (s : State) (c : Nat) : State :=
  let s1 := if (s.slot c).open_ || (s.slot c).clearing then s else s.modSlot c (fun x => { x with resetting := true })
  if s.isPrimary then (s1.sendAll (s1.distPorts (.slotReset c)) (.distribute 0 (.slotReset c))).sendChord (.distribute 0 (.slotReset c)) else s1

/-- A barrier is removed at this block (R205). -/
def State.dropBarrier (s : State) (c id : Nat) : State := if s.isHub then s.hubDelBar c id else s.setLbar c id none

/-- A distributed command reaches this block. -/
def State.distTake (s : State) (p id : Nat) (c : DistCmd) : State :=
  match c with
  | .withdraw i => s.distEnd p i false
  | .confirm i => s.distEnd p i true
  | .slotReset sl => s.startSlotReset sl
  | .barrierDelete sl _ b => s.dropBarrier sl b
  | _ =>
    if s.isHub && s.params.isUp p then
      (if s.isPrimary then
        (match c with
         | .classConfig _ _ => s.distLeaf p id c
         | _ => s.distBegin c (.host 0) (some (p, id)) [] none)
       else match c with | .classConfig _ _ => s.distLeaf p id c | _ => s)
    else s.distLeaf p id c

/-- R546, R23, R197, R276: a distributed command arrives on a port toward the parent, or over the chord. -/
def execDistributionReceive (l : Link) (id : Nat) (d : DistCmd) (s : State) : Out :=
  s.received l 1 fun s =>
    let port := l.port
    if !(s.port port).up || s.params.isDown port then .next s
    else
      match d with
      | .ctxOpen m =>
        let k := if s.params.isChord port then s.pair.pairKey else ((s.port port).keys.map (·.wrap)).getD 0
        .next (s.distTake port id (.ctxOpen { m with key := Config.unwrap k m.key }))
      | _ => .next (s.distTake port id d)

/-- R546: an acknowledgement or refusal of a distributed command. -/
def execDistributionAckReceive (l : Link) (id : Nat) (code : St) (info : AckInfo) (s : State) : Out :=
  s.received l 1 fun s =>
    let port := l.port
    if (s.port port).up then .next (s.distHeard port id code info) else .next s

/-- R434: a context message: the participant unwraps the key and installs the context. -/
def execContextMessageReceive (l : Link) (m : CtxMsg) (s : State) : Out :=
  s.received l 1 fun s =>
    let port := l.port
    if !(s.port port).up || !s.params.isUp port then .next s
    else
      let k := ((s.port port).keys.map (·.wrap)).getD 0
      .next (s.distTake port (openId m) (.ctxOpen { m with key := Config.unwrap k m.key }))

/-- R488: a step that is not armed at every block 1,000,000 ns before its effective HT is withdrawn and fails with ST_BUSY. -/
def execHtStepArmingDeadline (s : State) : Out :=
  match s.scriv.dists.find? (fun d => match d.deadline with | some t => decide (t ≤ s.htNs) | none => false) with
  | some d => .next (s.distFail { d with accepted := d.accepted ++ d.waiting } .busy d.ownOk)
  | none => .next s

/-! ## The commands -/

/-- CMD_BARRIER_DEFINE (R197, R546). -/
def execCmdBarrierDefine (h : CmdHdr) (d : BarrierDef) (s : State) : Out :=
  runCmd { opcode := 0x0303, leaf := false, iss := .ctx, span := true, mirrored := true } h s fun s =>
    if !barDefOk d || d.spanTier ≠ s.tier then .err s .range
    else .wait (s.distBegin (.barrierDefine h.slot h.gen d) h.src none [] none)

/-- A plan at its own Leaf (R254, R256): a local reduction. -/
def State.localPlan (s : State) (d : BitVec 512) (w : Nat) : CmdRes :=
  if dMask d ≠ 0 ∨ 2 ^ 31 < dK d 1 then .err s .range
  else match s.leafTake d w with
    | .error e => .err s e
    | .ok t => .ok t (layout [(4, dChunks d), (2, (t.ackInfo (.collOpen d w)).panes)])

/-- CMD_COLL_PLAN OPEN (R254, R276, Table 10.2): at the Leaf a local reduction, at the span pair a distributed plan. -/
def execCollPlanOpen (h : CmdHdr) (addr : Nat) (desc : FabRead (BitVec 512)) (w : Nat) (s : State) : Out :=
  runRead { opcode := 0x0401, iss := .ctx, mirrored := s.isHub } h s desc fun s => if addr % 64 ≠ 0 then .err s .range else withRead s desc fun d =>
    if h.access ≠ 0 ∧ h.access ≠ dSlot d then .err s .auth
    else if !s.openCtx (dSlot d) (dGen d) && !(s.slot (dSlot d)).clearing then .err s .genWrap
    else if !dRangeOk d || decide (w < 1) || decide (64 < w) then .err s .range
    else if s.isHub then
      (if dSpan d = 0 then .err s .conflict
       else if dSpan d ≠ s.tier ∨ h.route = 0 then .err s .range
       else .wait (s.distBegin (.collOpen d w) h.src none [] none))
    else if dSpan d ≠ 0 then .err s .conflict
    else s.localPlan d w

/-- CMD_COLL_PLAN CLOSE (R276). One of a spanned collective is the span pair's: given to a Leaf it fails with ST_CONFLICT (R461). -/
def execCollPlanClose (h : CmdHdr) (handle : Nat) (s : State) : Out :=
  runCmd { opcode := 0x0401, iss := .ctx, mirrored := s.isHub } h s fun s =>
    if s.isHub then
      match s.plan h.slot handle with
      | none => .err s .range
      | some p =>
        if 512 ≤ handle ∨ s.spans p.desc = false ∨ h.route = 0 then .err s .range
        else .wait (s.distBegin (.collClose h.slot (dGen p.desc) handle) h.src none [] none)
    else
      match s.lcoll h.slot handle with
      | none => .err s .range
      | some x =>
        if 512 ≤ handle then .err s .range
        else if dSpan x.desc ≠ 0 then .err s .conflict
        else if x.running || s.armedColl h.slot handle then .err s .busy
        else .ok (s.leafClose h.slot handle) []

/-- Whether a bit of an open's mask names a participant that R544 excludes, or the mask is empty. -/
def State.openRange (s : State) (a : CtxOpenArgs) : Bool :=
  let top := if a.spanTier = 3 then 64 * s.children else s.children
  let kids := s.ctxKids { slot := 0, gen := 0, radio := false, enc := false, tenantKeyed := false, key := 0, span := a.spanTier, mask := some a.mask }
  decide (a.spanTier ≠ s.tier) || a.mask == 0 || decide (2 ^ top ≤ a.mask) || !kids.all (fun k => (s.childPorts k).any (fun p => (s.port p).everUp))

/-- The next generation of a slot over the participants (R433). -/
def State.nextGen (s : State) (a : CtxOpenArgs) (c : Nat) : Nat :=
  max (s.slot c).lastGen (a.lastGen.foldl (fun m e => if e.1 = c then max m e.2 else m) 0) + 1

/-- Whether a slot is free at every participant (R433). -/
def State.slotFree (s : State) (a : CtxOpenArgs) (c : Nat) : Bool := (s.slot c).free && !a.openAt.contains c && !a.busyAt.contains c

/-- The slot that an open takes (R431, R433), or its failure; the second part is the slot to be reset when every free one would
wrap. -/
def State.chooseSlot (s : State) (a : CtxOpenArgs) : Except (St × Option Nat) Nat :=
  if a.radio then
    if (s.slot 1).open_ && !(s.slot 1).clearing || a.openAt.contains 1 then .error (.conflict, none)
    else if !s.slotFree a 1 then .error (.busy, none)
    else if 0xFFFF < s.nextGen a 1 then .error (.genWrap, some 1)
    else .ok 1
  else
    let l := ((List.range 64).drop 2).filter (fun c => s.slotFree a c)
    match l with
    | [] => .error (.busy, none)
    | c :: _ =>
      match l.find? (fun c => decide (s.nextGen a c ≤ 0xFFFF)) with
      | some x => .ok x
      | none => .error (.genWrap, some c)

/-- CMD_CTX_OPEN (R433, R434, R544, R546): the serving Hub chooses slot and generation, forms K_ctx, and distributes the context. -/
def execCmdCtxOpen (h : CmdHdr) (a : CtxOpenArgs) (s : State) : Out :=
  runRead { opcode := 0x0801, leaf := false, span := true, mirrored := true } h s (if a.tenantKeyed then a.keyBlock else .ok 0) fun s =>
    if a.spanTier = 0 || decide (3 < a.spanTier) || s.openRange a then .err s .range
    else if !s.sec.keysValid then .err s .auth
    else
      match s.chooseSlot a with
      | .error (c, some x) => .err (s.startSlotReset x) c
      | .error (c, none) => .err s c
      | .ok c =>
        let g := s.nextGen a c
        let go (key share : Nat) (rep : List Byte) (s : State) : CmdRes :=
          let m : CtxMsg := { slot := c, gen := g, radio := a.radio, enc := a.enc, tenantKeyed := a.tenantKeyed, key := key, span := a.spanTier, mask := some a.mask }
          let out := layout [(2, c), (2, g)] ++ (if a.tenantKeyed then be 96 share ++ rep else [])
          .wait (s.distBegin (.ctxOpen m) h.src none out none)
        if a.tenantKeyed then
          withRead s a.keyBlock fun kb =>
            let tenant := kb / 2 ^ 384
            let nonce := kb % 2 ^ 384
            let priv := Config.freeRandom s.freeCtr
            let share := Config.pubOf priv
            let key := Config.hkdf (Config.ecdh priv tenant) "DXCTX" [nonce, c, g]
            let ud := Config.sha384 (be 96 share ++ be 96 tenant ++ be 48 nonce ++ le 1 c ++ le 2 g)
            go key share (s.report 0 ud) s.drawn
        else go (Config.freeRandom s.freeCtr) 0 [] s.drawn

/-- CMD_CTX_CLOSE (R441): the clear starts at every block where the context is open, and completes when all have cleared. -/
def execCmdCtxClose (h : CmdHdr) (s : State) : Out :=
  runCmd { opcode := 0x0802, leaf := false, iss := .ctx, span := true, mirrored := true } h s fun s =>
    if h.slot = 0 ∨ (s.slot h.slot).spanHere = false then .err s .range
    else if (s.slot h.slot).clearing ∨ (s.slot h.slot).clearReq then .err s .busy
    else .wait ((s.modSlot h.slot (fun x => { x with closing := some h.src })).distBegin (.ctxClose h.slot h.gen 0) h.src none [] none)

/-- CMD_CTX_SHAPE (R289, R290, R292). -/
def execCmdCtxShape (h : CmdHdr) (weight rate burst : Nat) (full : Bool) (s : State) : Out :=
  runCmd { opcode := 0x0404, leaf := false, span := true, mirrored := true } h s fun s =>
    if !shapeRange weight rate burst || (s.slot h.slot).spanHere = false then .err s .range
    else
      let x := s.shapeOf h.slot
      .wait (s.distBegin (.ctxShape h.slot h.gen weight rate burst full) h.src none (layout [(2, x.weight), (4, x.rate), (4, x.burst)]) none)

/-- Whether a new count of radio tiles would take in a tile whose group is not at divider point 0 (R388). -/
def State.radioGroups (s : State) (n : Nat) : Bool := (s.radioSet n).all (fun t => (s.grp (t / 4)).freq == 0)

/-- CMD_CLASS_CONFIG (R281, R284, R296). -/
def execCmdClassConfig (h : CmdHdr) (pairId radioSlots radioTiles : Nat) (eff : HT) (s : State) : Out :=
  runCmd { opcode := 0x0403, leaf := false, mirrored := true } h s fun s =>
    let radioOpen := s.coll.hub.any (fun e => match e.2 with | some p => dRadio p.desc | none => false)
    if pairId ≠ s.boot.cfg.pairId ∨ 16 < radioSlots ∨ s.params.maxRadioTiles < radioTiles ∨ eff < s.htNs + 1000000 then .err s .range
    else if radioTiles ≠ s.sched.radioTiles ∧ s.radioGroups radioTiles = false then .err s .conflict
    else if radioTiles ≠ s.sched.radioTiles ∧ radioOpen then .err s .busy
    else
      let s1 := { s with sched := { s.sched with tilesPend := some (radioTiles, eff) } }
      .wait ((s1.mirror (.radioTiles radioTiles eff)).distBegin (.classConfig radioSlots eff) h.src none
        (layout [(2, s.sched.radioSlots), (2, s.sched.radioTiles)]) none)

/-- CMD_HT_STEP (R469, R488): STEP gives d, LOAD an absolute HT. The step is armed at every block of the hall. -/
def execCmdHtStep (h : CmdHdr) (load : Bool) (value : Int) (eff : HT) (s : State) : Out :=
  runCmd { opcode := 0x010B, leaf := false, mirrored := true } h s fun s =>
    let d := if load then value - (eff : Int) else value
    let r := (eff : Int) + d
    if !s.isTop then .err s .conflict
    else if eff < s.htNs + 10000000 ∨ r < 0 ∨ (2 : Int) ^ 62 ≤ r then .err s .range
    else
      let s1 := s.distBegin (.htStep d eff) h.src none (layout [(8, twos 64 d)]) (some (eff - 1000000))
      let runs := s1.scriv.dists.any (fun x => match x.cmd with | .htStep _ _ => x.up.isNone | _ => false)
      let own := s1.time.step.map (fun a => { a with src := some h.src })
      .wait (if runs then { s1 with time := { s1.time with step := own } } else s1)

end Sys2Proof.Machine
end

