-- ==== Sys2Proof/Machine/Contexts.lean ====
section
/-! DEFINITION. The clear of a context (R195, R196, R275, R441, R491, R492), slot resets (R438), the departure of the partner (R413) and what a debug
unlock takes from contexts and journal (R447). -/

set_option linter.unusedVariables false

namespace Sys2Proof.Machine

/-! ## The clear tick -/

/-- The context slot that a waiting message belongs to, when it carries work of a context (R195, R275). -/
def msgSlot : TxMsg → Option Nat
  | .arrival c _ _ _ _ => some c
  | .contribution k _ => some k.slot
  | .result k _ => some k.slot
  | .failNotice k _ => some k.slot
  | .replayMark k _ => some k.slot
  | .replayRequest k _ => some k.slot
  | .commit m => some m.key.slot
  | .resultAck k => some k.slot
  | .release c _ _ _ _ => some c
  | _ => none

/-- The messages of a context that wait at a port are discarded (R195, Table 11.5). -/
def State.dropWaiting (s : State) (c : Nat) : State :=
  { s with tx := s.tx.filter (fun x => msgSlot x.msg != some c), flt := { s.flt with upWait := s.flt.upWait.filter (fun e => msgSlot e.2 != some c) } }

/-- The physical words that a slot has mapped. -/
def State.mappedWords (s : State) (c : Nat) : List Nat :=
  (s.sync.trans.filter (fun e => e.1 / 4096 == c && e.2.valid)).map (fun e => e.2.phys)

/-- Panes leave their owner and wait to be cleared (R491, R492). -/
def State.soilPanes (s : State) (l : List (Nat × Nat)) : State := l.foldl (fun s p => s.modPane p.1 p.2 (fun _ => { ({} : Pane) with dirty := true })) s

/-- The sync store, waiters, barriers and queues of a Leaf at a clear tick (R195). -/
def State.clearSync (s : State) (c : Nat) : State :=
  let words := s.mappedWords c
  let s1 := (List.range 64).foldl (fun s w => if (s.waiter w).watching = true ∧ (s.waiter w).slot = c then s.endWait w 4 else s) s
  let y := s1.sync
  let s2 := { s1 with sync := { y with
    trans := y.trans.filter (fun e => e.1 / 4096 != c)
    freeing := y.freeing.set [] c words
    clearAt := y.clearAt.set 0 c s.htNs
    rels := y.rels.filter (fun r => r.slot != c)
    bars := y.bars.filter (fun e => e.1 / 64 != c)
    queue := y.queue.filter (fun u => u.slot != c) } }
  s2.clearQueues c

/-- The collectives of a slot at a Leaf: their panes are to be cleared, what they retain is discarded (R275, R492). -/
def State.clearLeafColls (s : State) (c : Nat) : State :=
  let mine := s.coll.leaf.filter (fun e => e.1 / 512 == c)
  let s1 := mine.foldl (fun s e => match e.2 with | some x => s.soilPanes (x.acc ++ x.ret) | none => s) s
  { s1 with coll := { s1.coll with leaf := s1.coll.leaf.filter (fun e => e.1 / 512 != c) } }

/-- The saves and staging of a slot that run at a Hub when it is cleared: ST_BUSY for a save, whose state is deleted (Table 14.8), and
ST_ABORTED for staging, whose set is incomplete (Table 19.9). -/
def State.clearJournalRuns (s : State) (c : Nat) : State :=
  (s.coll.hub.filter (fun e => e.1 / 512 == c)).foldl (fun s e =>
    match e.2 with
    | none => s
    | some p =>
      let s1 := match p.saving with | some (_, some src) => complete s src 0x0503 .busy [] | _ => s
      let s2 := match p.stageOut with
        | some (id, src) =>
          let st := (s1.jm.stages.get none id).map (fun (x : Stage) => { x with incomplete := true })
          complete { s1 with jm := { s1.jm with stages := s1.jm.stages.set none id st } } src 0x0505 .aborted []
        | none => s1
      match p.stageIn with | some (_, src) => complete s2 src 0x0505 .aborted [] | none => s2) s

/-- The barriers, plans and chunks of a slot at a Hub (R195, R275, R491). -/
def State.clearHub (s : State) (c : Nat) : State :=
  let s0 := s.clearJournalRuns c
  let s1 := (s0.coll.chunks.filter (fun x => x.key.slot == c)).foldl (fun s x => (s.chunkFree x.key true).delChunk x.key) s0
  let s2 := (s1.coll.hub.filter (fun e => e.1 / 512 == c)).foldl (fun s e => match e.2 with | some p => s.soilPanes p.ret | none => s) s1
  { s2 with
    coll := { s2.coll with hub := s2.coll.hub.filter (fun e => e.1 / 512 != c), copies := s2.coll.copies.filter (fun r => r.msg.key.slot != c) }
    sync := { s2.sync with hbars := s2.sync.hbars.filter (fun e => e.1 / 64 != c) } }

/-- Distributed commands of a slot that run here end with ST_ABORTED (Table 19.9). -/
def State.abortDists (s : State) (c : Nat) : State :=
  (s.scriv.dists.filter (fun d => distSlot d.cmd == some c)).foldl (fun s d =>
    let s1 := s.distDrop d.id
    match d.up with
    | some _ => s1
    | none => complete s1 d.src (distOpcode d.cmd) .aborted []) s

/-- Whether a mailbox runs a command that names a slot, other than CMD_CTX_CLOSE (Table 19.9). -/
def runsFor (b : Mailbox) (c : Nat) : Bool :=
  b.state == 2 && fieldAt (copyBytes b.copy) 4 1 == c && fieldAt (copyBytes b.copy) 0 2 != 0x0802

/-- The mailboxes at a clear (Table 19.9): commands of the context that run complete with ST_ABORTED, but for CMD_CTX_CLOSE; a posted
page command ends with ST_ABORTED; forwarded commands of it too, and their responses will be discarded. -/
def State.clearMailboxes (s : State) (c : Nat) : State :=
  let gone := s.scriv.fwds.filter (fun f => f.slot == c && f.opcode != 0x0802)
  let s1 := { s with scriv := { s.scriv with fwds := s.scriv.fwds.filter (fun f => !(f.slot == c && f.opcode != 0x0802)) } }
  let s2 := gone.foldl (fun s f => complete s f.src f.opcode .aborted []) s1
  let s3 := ((List.range 8) ++ [256 + c]).foldl (fun s m =>
    if runsFor (s.mb m) c then completeMb s m (fieldAt (copyBytes (s.mb m).copy) 0 2) .aborted [] else s) s2
  if (s3.mb (256 + c)).state = 1 then
    let s4 := s3.modMb (256 + c) (fun b => { b with state := 3, code := St.aborted.val, go := false })
    { s4 with scriv := { s4.scriv with order := s4.scriv.order.filter (fun m => m != 256 + c) } }
  else s3

/-- The clear tick of a context at this block. -/
def State.clearTick (s : State) (c : Nat) : State :=
  let s1 := (s.abortDists c).clearMailboxes c
  let s2 := if s1.isHub then s1.clearHub c else (s1.clearSync c).clearLeafColls c
  let s3 := (s2.dropWaiting c).dropTags c
  let s4 := { s3 with hm := { s3.hm with manifests := s3.hm.manifests.filter (fun e => e.1 / 256 != c) } }
  s4.modSlot c (fun x => { x with clearReq := false, clearing := true, key := 0, irq := 0, irqEn := 0 })

/-- R195, R441, R491: the clear tick of a context whose clear is ordered. -/
def execContextClear (slot : Nat) (s : State) : Out :=
  if (s.slot slot).clearReq && (s.slot slot).open_ && slot != 0 then .next (s.clearTick slot) else .next s

/-- The end of a clear (R195): the physical words read 0 and are free, the slot is free, and those who wait for the clear hear of it
(R441). -/
def State.clearDone (s : State) (c : Nat) : State :=
  let s1 := (s.sync.freeing.get [] c).foldl (fun s p => s.setWord p 0) s
  let s2 := { s1 with sync := { s1.sync with freeing := s1.sync.freeing.set [] c [], clearAt := s1.sync.clearAt.set 0 c 0 } }
  let ack := (s.slot c).ackTo
  let s3 := s2.modSlot c (fun x => { x with open_ := false, clearing := false, clearedAt := s.htNs, ports := [], leaves := [], ackTo := none, spanHere := false })
  let s4 := match ack with | some (p, id) => s3.send p (.distAck id .ok {}) | none => s3
  (s4.scriv.dists.filter (fun d => match d.cmd with | .ctxClose x _ _ => x == c && d.waiting.contains ownClear | _ => false)).foldl
    (fun s d => s.distHeard ownClear d.id .ok {}) s4

/-- R195: the clear completes. -/
def execContextClearComplete (slot : Nat) (s : State) : Out :=
  if (s.slot slot).clearing then .next (s.clearDone slot) else .next s

/-- R491, R492: a freed pane has been cleared and may be mapped again. -/
def execPaneClearAfterTeardown (tile pane : Nat) (s : State) : Out :=
  if decide (tile < s.params.tiles) && decide (pane < s.params.tilePanes) && (s.pane tile pane).dirty then
    .next (s.modPane tile pane (fun p => { p with dirty := false }))
  else .next s

/-! ## Slot resets (R438) -/

/-- Whether every flit that a port sent before the last clear of a slot has been acknowledged, or the port went down since. -/
def State.flushedSince (s : State) (t : HT) : Bool := s.ports.all (fun e => e.2.replay.all (fun r => decide (t < r.2)))

/-- R438: a slot reset completes. -/
def execSlotResetComplete (slot : Nat) (s : State) : Out :=
  let x := s.slot slot
  if x.resetting && !x.open_ && !x.clearing && s.flushedSince x.clearedAt then
    .next (s.modSlot slot (fun x => { x with lastGen := 0, resetting := false }))
  else .next s

/-! ## The partner is gone (R413) -/

/-- The pair goes on with one Hub: SOLO, gated chunks commit, and nothing waits for the partner any more. -/
def State.goSolo (s : State) : State :=
  let s1 := ({ s with pair := { s.pair with solo := true } }).commitGated
  (s1.scriv.dists.map (fun d => d.id)).foldl (fun s id =>
    match s.scriv.dists.find? (fun d => d.id == id) with
    | none => s
    | some d =>
      match d.waiting.find? (fun p => s.params.isChord p) with
      | some p => s.distHeard p id .ok {}
      | none => s) s1

/-- R413: every chord port of a primary has been down for 16,384 ns. -/
def execChordDownSolo (s : State) : Out :=
  match s.pair.chordDownAt with
  | some t => if s.isPrimary && !s.pair.solo && s.chordUp.isEmpty && decide (t + 16384 ≤ s.htNs) then .next s.goSolo else .next s
  | none => .next s

/-! ## Debug (R447) -/

/-- CMD_DEBUG_UNLOCK CHALLENGE: a 48-byte challenge, valid until the next or until block reset. -/
def execDebugChallenge (h : CmdHdr) (s : State) : Out :=
  runCmd { opcode := 0x0804 } h s fun s =>
    let c := Config.freeRandom s.freeCtr % 2 ^ 384
    .ok { s with freeCtr := s.freeCtr + 1, sec := { s.sec with challenge := some c } } (be 48 c)

/-- Every open context is terminated with ST_AUTH and cleared (R447 step 1). -/
def State.endContexts (s : State) : State :=
  ((s.ctx.filter (fun e => e.2.open_)).map (fun e => e.1)).foldl (fun s c =>
    let s1 := s.terminate c .auth
    let s2 := s1.modSlot c (fun x => { x with term := St.auth.val })
    let s3 := if (s2.slot c).clearing then s2 else s2.clearTick c
    s3.clearDone c) s

/-- The journal loses every valid bit, saved state and staged set (R447 step 2, Table 18.7). -/
def State.wipeJournal (s : State) : State :=
  { s with jm := { s.jm with pages := s.jm.pages.filter (fun e => match e.2.state with | .inUse _ => false | _ => true), saves := [], stages := []
                             spillPages := [], archivePages := [], writeBacks := [] }
           hm := { s.hm with archive := [] } }

end Sys2Proof.Machine
end

