-- ==== Sys2Proof/Machine/Pair.lean ====
section
/-! DEFINITION. The pair (chapter 17, R456): grants of voters, claims and renewals of the lease, taking and leaving role Primary, the
mirror as a Hub applies it, epoch records, and CMD_PAIR. -/

set_option linter.unusedVariables false

namespace Sys2Proof.Machine

/-! ## Voters (R402, R405) -/

/-- The kinds of lease flit of R405. -/
inductive LeaseKind where
  | renew | claim | release
deriving DecidableEq, Repr

/-- The successor of an epoch (R403). -/
def nextEpoch (e : Nat) : Nat := if e = 0xFFFFFFFF then 1 else e + 1

/-- Whether a voter's grant is stale (R405). -/
def State.grantStale (s : State) : Bool :=
  s.pair.gEpoch == 0 || decide (30000 ≤ (s.htNs : Int) - s.pair.gLastRenew) || s.pair.gReleased

/-- R405: a voter handles a lease flit of the Hub at a pair position, and answers on the port on which it came. -/
def State.onLeaseFlit (s : State) (port : Nat) (kind : LeaseKind) (f : LeaseFlit) : State :=
  let pos := s.hubOf port
  let g := s.pair
  let holder := decide (f.epoch = g.gEpoch ∧ pos = g.gPos)
  match kind with
  | .release => if holder then { s with pair := { g with gReleased := true } } else s
  | .renew =>
    if holder then ({ s with pair := { g with gLastRenew := s.htNs } }).send port (.leaseConfirm f)
    else s.send port (.leaseRefuse g.gEpoch f)
  | .claim =>
    if holder then s.send port (.leaseConfirm f)
    else if newerEpoch f.epoch g.gEpoch && s.grantStale then
      ({ s with pair := { g with gEpoch := f.epoch, gPos := pos, gReleased := false, gLastRenew := s.htNs } }).send port (.leaseConfirm f)
    else s.send port (.leaseRefuse g.gEpoch f)

/-- Whether this block votes in the pair above it: a Leaf, or the primary of a lower pair (R402). -/
def State.votes (s : State) : Bool := if s.isHub then s.isPrimary && !s.isTop else true

/-- A lease flit arrives on a port toward the upper pair. -/
def State.vote (s : State) (port : Nat) (kind : LeaseKind) (f : LeaseFlit) : State :=
  if s.params.isUp port && s.votes then s.onLeaseFlit port kind f else s

/-! ## Claims and renewals (R404, R406, R418) -/

/-- The down ports toward voters that are up (R402, R404). -/
def State.voterPorts (s : State) : List Nat := s.downUp.filter (fun p => bit s.boot.cfg.roster (s.portChild p))

/-- The quorum (R402). -/
def State.quorum (s : State) : Nat := popcount s.boot.cfg.roster 256 / 2 + 1

/-- A new claim epoch: one newer than the newest known, at most once in 1,000,000 ns (R406). -/
def State.freshClaim (s : State) : State :=
  let free := match s.pair.lastNewClaim with | some t => decide (t + 1000000 ≤ s.htNs) | none => true
  if newerEpoch s.pair.epoch s.pair.newest || !free then s
  else { s with pair := { s.pair with epoch := nextEpoch s.pair.newest, lastNewClaim := some s.htNs, confs := [] } }

/-- The confirmations of renewals and claims that can still matter, with a new one. -/
def addConf (l : List (HT × List Nat)) (r : HT) : List (HT × List Nat) :=
  let l1 := if l.any (fun e => e.1 == r) then l else l ++ [(r, [])]
  l1.drop (l1.length - 8)

/-- Whether the Hub makes the first claim after its start (R20, R484): position 0, or a Hub that loaded HT under R40, with VALID at 1,
no claim made since reset and no primary known. -/
def State.firstClaim (s : State) : Bool :=
  decide (s.pair.role = .syncing) && s.isHub && (s.boot.cfg.pos == 0 || s.boot.soloLoad) && s.time.valid && decide (6 ≤ s.boot.stage ∧ s.boot.stage ≤ 7) &&
    s.pair.lastNewClaim.isNone && !decide (s.pair.peerRole = .primary) && !(s.chordUp.any (fun p => (s.port p).peerPrimary))

/-- The Hub enters role Claiming (R406); its first claim goes out at once. -/
def State.startClaim (s : State) : State := { s with pair := { s.pair with role := .claiming, lastClaim := none, confs := [], since := s.htNs } }

/-- R404, R483: the primary renews its lease: on every down port toward voters and over the chord, every 10,000 ns. -/
def execLeaseRenewalSend (s : State) : Out :=
  let due := match s.pair.lastRenew with | some t => decide (t + 10000 ≤ s.htNs) | none => true
  if s.isPrimary && due then
    let f : LeaseFlit := { epoch := s.pair.epoch, sendHt := s.htNs }
    let s1 := { s with pair := { s.pair with lastRenew := some s.htNs, confs := addConf s.pair.confs s.htNs } }
    .next ((s1.sendAll s1.voterPorts (.leaseRenew f)).sendChord (.leaseRenew f))
  else .next s

/-- R406, R483: a Claiming Hub sends a claim on its down ports every 10,000 ns, while its VALID is 1. -/
def execLeaseClaimSend (s : State) : Out :=
  let s0 := if s.firstClaim then s.startClaim else s
  let due := match s0.pair.lastClaim with | some t => decide (t + 10000 ≤ s.htNs) | none => true
  if decide (s0.pair.role = .claiming) && s.isHub && s.time.valid && due then
    let s1 := s0.freshClaim
    if newerEpoch s1.pair.epoch s1.pair.newest then
      let f : LeaseFlit := { epoch := s1.pair.epoch, sendHt := s.htNs }
      let s2 := { s1 with pair := { s1.pair with lastClaim := some s.htNs, confs := addConf s1.pair.confs s.htNs } }
      .next (s2.sendAll s2.voterPorts (.leaseClaim f))
    else .next s1
  else .next s

/-- An epoch of the pair's lease becomes known: the newest is kept, in flash too (R403, Table 20.4). -/
def State.knowEpoch (s : State) (e : Nat) : State :=
  if newerEpoch e s.pair.newest then { s with pair := { s.pair with newest := e }, flash := { s.flash with epoch := e } } else s

/-- A renewal of the primary reaches this Hub over the chord (R406): the timer starts anew, and a claim older than the renewal ends. -/
def State.chordRenewal (s : State) (f : LeaseFlit) : State :=
  if s.isPrimary || newerEpoch s.pair.newest f.epoch then s
  else
    let s1 := s.knowEpoch f.epoch
    let s2 := { s1 with pair := { s1.pair with chordRenewAt := s.htNs, peerRole := .primary } }
    if s.pair.role = .claiming ∧ newerEpoch f.epoch s.pair.epoch = true then
      ({ s2 with pair := { s2.pair with role := .partner, epoch := 0, confs := [], since := s.htNs } }).refreshWord
    else s2

/-- R404 to R406: a lease renewal arrives. -/
def execLeaseRenewalReceive (l : Link) (f : LeaseFlit) (s : State) : Out :=
  s.received l 1 fun s =>
    let port := l.port
    if !(s.port port).up then .next s
    else if s.params.isChord port then .next (s.chordRenewal f)
    else .next (s.vote port .renew f)

/-- R405: a lease claim arrives at a voter. -/
def execLeaseClaimReceive (l : Link) (f : LeaseFlit) (s : State) : Out :=
  s.received l 1 fun s =>
    let port := l.port
    if (s.port port).up then .next (s.vote port .claim f) else .next s

/-- R404, R405, R406: a lease release arrives: a Partner claims, a voter marks its grant released. -/
def execLeaseReleaseReceive (l : Link) (f : LeaseFlit) (s : State) : Out :=
  s.received l 1 fun s =>
    let port := l.port
    if !(s.port port).up then .next s
    else if s.params.isChord port then
      let s1 := { s with pair := { s.pair with peerRole := if s.pair.peerRole = .primary then .syncing else s.pair.peerRole } }
      if s.pair.role = .partner then .next s1.startClaim else .next s1
    else .next (s.vote port .release f)

/-- R406: no renewal over the chord for 30,000 ns. -/
def execChordRenewalTimeout (s : State) : Out :=
  if s.isHub && decide (s.pair.role = .partner) && decide (s.pair.chordRenewAt + 30000 ≤ s.htNs) then .next s.startClaim else .next s

/-- R406, R418: a voter refuses. A claimant learns the newer G; the primary claims its own epoch again on the port of a voter whose G is
older or none, at most once in 10,000 ns. -/
def execLeaseRefusalReceive (l : Link) (g : Nat) (f : LeaseFlit) (s : State) : Out :=
  s.received l 1 fun s =>
    let port := l.port
    if !s.isHub || !(s.port port).up || !s.params.isDown port then .next s
    else
      match s.pair.role with
      | .claiming => .next (if newerEpoch g s.pair.newest then ({ s with pair := { s.pair with newest := g } }).freshClaim else s)
      | .primary =>
        let due := match (s.port port).lastClaim with | some t => decide (t + 10000 ≤ s.htNs) | none => true
        if newerEpoch s.pair.epoch g && due then
          .next ((s.modPort port (fun o => { o with lastClaim := some s.htNs })).send port (.leaseClaim { epoch := s.pair.epoch, sendHt := s.htNs }))
        else .next s
      | _ => .next s

/-! ## Taking role Primary (R406, R410, R412, R413) -/

/-- The mirrored state of the references joins this Hub's own, the most restrictive mark winning (R410, Table 3.6): a reference that the old primary held
unqualified loses qualification here, wait-to-restore runs from the later start, and what was Disputed is. -/
def State.mergeRefs (s : State) : State :=
  let s1 := s.pair.mirRefs.foldl (fun s e =>
    match e.2 with
    | none => s
    | some ⟨q, _, _, w⟩ =>
      let r := s.ref e.1
      if r.qualified && !q then ((s.modRef e.1 (fun r => { r with qualified := false, wtrStart := some (w.getD s.htNs) })).hist 3).clearDisputes e.1
      else if !r.qualified then s.modRef e.1 (fun r => { r with wtrStart := match r.wtrStart, w with | some a, some b => some (max a b) | a, _ => a })
      else s) s
  s1.pair.mirDisp.foldl (fun s k =>
    if (s.ref (k / 4)).qualified && (s.ref (k % 4)).qualified && !(s.dpll.disp.get {} k).marked then
      ({ s with dpll := { s.dpll with disp := s.dpll.disp.set {} k { s.dpll.disp.get {} k with marked := true, agreeSince := none } } }).hist 7
    else s) s1

/-- A reference that the old primary held disqualified is so here in each of its Disputed pairs, until they are next resolved (Table 3.6). -/
def State.mergeDisq (s : State) : State :=
  let dq (n : Nat) : Bool := match s.pair.mirRefs.get none n with | some x => x.disq | none => false
  (allPairs.foldl (fun s k =>
    let p := s.dpll.disp.get {} k
    if p.marked then { s with dpll := { s.dpll with disp := s.dpll.disp.set {} k { p with nDisq := p.nDisq || dq (k / 4), mDisq := p.mDisq || dq (k % 4) } } } else s) s).refreshDisq

/-- The status word that the old primary last sent over the chord. -/
def State.peerWord (s : State) : StatusWord := (s.port ((s.chordTime.head?).getD 288)).peerStatus

/-- The DPLL leaves its servo input, with a phase target. -/
def State.ownInput (s : State) (target : Int) : State :=
  { s with dpll := { s.dpll with uplinkInput := false, phaseTarget := target, active := none }, tsrc := { s.tsrc with input := none } }

/-- The references take over in the mode in force: in the forced modes 2 and 3 the DPLL enters their state, and in Open mode it goes on (R93). -/
def State.topMode (s : State) (mode : Nat) : State :=
  match mode with
  | 2 => s.loseInput
  | 3 => s.enterNow .freeRun
  | 4 => s
  | _ =>
    let t := s.selectNow
    if t.dpll.active.isNone && (t.dpll.state == .acquiring || t.dpll.state == .locked) then t.loseInput else t

/-- The input of the DPLL of a top pair's new primary (R410, Table 3.6): its references in the mode in force; in a pair that was in Holdover it goes on from
the mirrored entry time with its own model and its present FCW. -/
def State.takeTop (s : State) : State :=
  let held := s.peerWord == .holdover || s.peerWord == .lost
  let s3 := (((s.stopPull.ownInput s.pair.mirTarget).mergeRefs).resolveDisputes.mergeDisq).topMode s.dpll.mode
  if held && decide (s3.dpll.state = .holdover) then
    let t := s.pair.mirHold.getD s.htNs
    { s3 with dpll := { s3.dpll with holdEntry := some t, holdF0 := s.dpll.fcw, holdSeconds := (s.htNs - t) / 1000000000 } }.mirror (.holdoverEntry (some t))
  else s3

/-- The input of the DPLL of a lower pair's new primary: its up-servo (R148, R410). -/
def State.takeLower (s : State) : State :=
  match s.tsrc.source with
  | none =>
    let s0 := s.stopPull
    ({ s0 with dpll := { s0.dpll with uplinkInput := false }, tsrc := { s0.tsrc with input := none } }).loseInput
  | some q =>
    let e := s.upE
    let s1 := ({ s with dpll := { s.dpll with uplinkInput := true, active := none, phaseErr := e }, tsrc := { s.tsrc with input := some (some (s.hubOf q)) } }.hist 2).pullTo e
    if s.dpll.state = .locked ∧ e.natAbs ≤ 2560 then s1.refreshWord else s1.enter .acquiring

/-- The barriers at a new primary (Table 7.5): releases already known are sent again, complete instances get an H of this Hub. -/
def State.takeBarriers (s : State) : State :=
  s.sync.hbars.foldl (fun s e =>
    match e.2 with
    | none => s
    | some b => b.insts.foldl (fun s i =>
        match i.s with
        | some t => s.releaseDown (e.1 / 64) b i.n t
        | none => s.completeInst (e.1 / 64) b.d.id i.n) s) s

/-- What a distributed command that the old primary had not confirmed leaves at the new one (R546, Table 18.7): an open is cleared
wherever it was acknowledged, a barrier or plan is removed. -/
def State.dropSeen (s : State) (e : DistSeen) : State :=
  let n := s.scriv.nextDist
  let tell (t : State) (c : DistCmd) : State := { t.sendAll (t.distPorts c) (.distribute n c) with scriv := { (t.sendAll (t.distPorts c) (.distribute n c)).scriv with nextDist := n + 1 } }
  match e.cmd with
  | .ctxOpen m => (tell s (.ctxClose m.slot m.gen 0)).askClear m.slot m.gen 0
  | .barrierDefine c _ d => s.hubDelBar c d.id
  | .collOpen d _ =>
    let c := DistCmd.collClose (dSlot d) (dGen d) (dHandle d)
    let ps := s.distPorts c
    ((tell s c).sendAll ps (.distribute n (.confirm n))).hubClose (dSlot d) (dHandle d)
  | _ => s

/-- The commands that this Hub had forwarded to its old primary (R401, R462): it answers from a completion record where it holds one; an
open fails with ST_BUSY (Table 18.7) and a HANDOVER with ST_ABORTED (R416); any other is now executed here. -/
def State.takeOwnForwards (s : State) : State :=
  let mine := s.scriv.fwds.filter (fun f => f.overChord)
  let s1 := { s with scriv := { s.scriv with fwds := s.scriv.fwds.filter (fun f => !f.overChord) } }
  mine.foldl (fun s f =>
    let m := (mbOf f.src).getD 0
    let op : Nat := match f.msg with | .forward _ _ _ _ _ _ b _ => b.toNat / 2 ^ 64 % 256 | _ => 0
    match s.scriv.completions.find? (fun c => c.block == s.blockId && c.m == m && c.seq == f.seq) with
    | some c => complete s f.src f.opcode c.code c.results
    | none =>
      if f.opcode = 0x0801 then complete s f.src f.opcode .busy []
      else if f.opcode = 0x0704 ∧ op = 2 then complete s f.src f.opcode .aborted []
      else s) s1

/-- The Hub takes role Primary (R406, R410, R412, R413, R270, R288, R307): its own epoch, the DPLL's input, result copies, shadow records,
barriers, and what was under way. A pair whose other Hub is on the chord goes on SOLO until that Hub has the full mirror. -/
def State.becomePrimary (s : State) : State :=
  let s1 := { s with
    pair := { s.pair with role := .primary, failover := true, failovers := (s.pair.failovers + 1) % 65536, newest := s.pair.epoch, lastRenew := none
                          handover := none, stopMapping := false, chordPhase := 0, peerRole := .syncing, solo := false, since := s.htNs }
    flash := { s.flash with epoch := s.pair.epoch }
    sched := { s.sched with virt := [], tags := [], awake := [] }
    hm := { s.hm with batch := s.hm.batch ++ s.hm.shadows, shadows := []
                      firstHt := if s.hm.batch.isEmpty then s.htNs else s.hm.firstHt, lastHt := if s.hm.shadows.isEmpty then s.hm.lastHt else s.htNs } }
  let s2 := if s1.isTop then s1.takeTop else s1.takeLower
  let overChord := s2.scriv.seen.filter (fun e => s2.params.isChord e.port)
  let s3 := { s2 with scriv := { s2.scriv with seen := s2.scriv.seen.filter (fun e => !s2.params.isChord e.port) } }
  let s4 := overChord.foldl State.dropSeen s3
  let s5 := s4.takeCopies.takeBarriers.takeOwnForwards.refreshWord
  if s5.chordUp.isEmpty then s5 else s5.rebuild

/-- R404, R406: a voter confirms a renewal or a claim of this Hub. With a quorum the lease holds until 20,000 ns after the flit was sent,
and a Claiming Hub takes role Primary. -/
def execLeaseConfirmationReceive (l : Link) (f : LeaseFlit) (s : State) : Out :=
  s.receivedIf (s.params.isDown l.port) l 1 fun s =>
    let voter := s.portChild l.port
    if !s.isHub || !decide (s.pair.role = .primary ∨ s.pair.role = .claiming) || f.epoch ≠ s.pair.epoch || !bit s.boot.cfg.roster voter || f.epoch == 0 then .next s
    else
      let l := (addConf s.pair.confs f.sendHt).map (fun e => if e.1 = f.sendHt then (e.1, addNew e.2 voter) else e)
      let n := ((l.find? (fun e => e.1 == f.sendHt)).map (fun e => e.2.length)).getD 0
      let s1 := { s with pair := { s.pair with confs := l } }
      if n < s.quorum then .next s1
      else
        let fin := f.sendHt + 20000
        let s2 := { s1 with pair := { s1.pair with leaseEnd := some (match s.pair.leaseEnd with | some e => max e fin | none => fin) } }
        if s.pair.role = .claiming then .next ({ s2 with pair := { s2.pair with leaseEnd := some fin } }).becomePrimary else .next s2

/-! ## Leaving role Primary (R404, R416, Table 17.4) -/

/-- The commands under way at a primary that leaves its role: those of its own mailboxes end with ST_ABORTED, forwarded ones are resent
to the new primary (Table 19.9). -/
def State.endDists (s : State) : State :=
  let gone := s.scriv.dists
  let s1 := { s with scriv := { s.scriv with dists := [] } }
  gone.foldl (fun s d =>
    match d.up, d.src with
    | none, .host m => complete s d.src (distOpcode d.cmd) .aborted []
    | none, .page c => complete s d.src (distOpcode d.cmd) .aborted []
    | _, _ => s) s1

/-- Complete a command of this block's own mailboxes with ST_ABORTED. -/
def State.abortOwn (s : State) (src : CmdSrc) (opcode : Nat) : State :=
  match src with
  | .forward _ _ _ => s
  | _ => complete s src opcode .aborted []

/-- Saves and staging that run here end. -/
def State.endJournalRuns (s : State) : State :=
  s.coll.hub.foldl (fun s e =>
    match e.2 with
    | none => s
    | some p =>
      let s1 := match p.saving with | some (_, some src) => s.abortOwn src 0x0503 | _ => s
      let s2 := match p.stageOut with | some (_, src) => s1.abortOwn src 0x0505 | none => s1
      let s3 := match p.stageIn with | some (_, src) => s2.abortOwn src 0x0505 | none => s2
      s3.setPlan (e.1 / 512) (e.1 % 512) (some { p with saving := none, stageOut := none, stageIn := none, stageInst := none })) s

/-- Every chunk held here is abandoned without a result, its panes freed (R404). -/
def State.dropChunks (s : State) : State :=
  let s1 := s.coll.chunks.foldl (fun s c => s.chunkFree c.key false) s
  { s1 with coll := { s1.coll with chunks := [] } }

/-- The Hub leaves role Primary (R404): the release has gone out; it takes role Partner when the chord carries a mirror from a new
primary, else Syncing. -/
def State.leavePrimary (s : State) : State :=
  let s1 := s.endDists.endJournalRuns.dropChunks
  let s2 := { s1 with
    pair := { s1.pair with epoch := 0, leaseEnd := none, confs := [], lastRenew := none, lastClaim := none, solo := false, stopMapping := false, handover := none
                           chordRenewAt := s.htNs, since := s.htNs, role := .partner }
    scriv := { s1.scriv with fwdIn := [] } }
  (if s.pair.peerRole = .primary then s2 else s2.enterSyncing).refreshWord

/-- The release of the lease, on the down ports and over the chord (R404). -/
def State.sendRelease (s : State) : State :=
  let f : LeaseFlit := { epoch := s.pair.epoch, sendHt := s.htNs }
  (s.sendAll s.downUp (.leaseRelease f)).sendChord (.leaseRelease f)

/-- R404, Table 17.4: the lease of the primary lapses. A HANDOVER that waits is discarded. -/
def execLeaseLapse (s : State) : Out :=
  let ended := match s.pair.leaseEnd with | some e => decide (e ≤ s.htNs) | none => true
  if s.isPrimary && ended then
    let s1 := match s.pair.handover with | some h => complete s h.src 0x0704 .aborted [] | none => s
    let s2 := s1.sendRelease
    .next ({ s2 with pair := { s2.pair with lapsed := true } }).leavePrimary
  else .next s

/-! ## The mirror at the other Hub (R411, R414, Table 17.2) -/

/-- Drop the shadow records up to one, when it is held (R307). -/
def dropThrough (k : ChunkKey) (l : List HmRec) : List HmRec :=
  if l.any (fun r => r.key == k) then (l.dropWhile (fun r => r.key != k)).drop 1 else l

/-- A saved state of the primary is kept in this Hub's own journal; none deletes it. -/
def State.keepSave (s : State) (id : Nat) (v : Option Save) : State :=
  let s1 := match s.jm.saves.get none id with | some o => s.releasePages o.pages | none => s
  match v with
  | none => { s1 with jm := { s1.jm with saves := s1.jm.saves.set none id none } }
  | some x =>
    match s1.takePages 1 x.pages.length (s.slot x.slot).enc with
    | some (t, ps) => { t with jm := { t.jm with saves := t.jm.saves.set none id (some { x with pages := ps, single := false }) } }
    | none => { s1 with jm := { s1.jm with saves := s1.jm.saves.set none id none } }

/-- The same of a staged set. -/
def State.keepStage (s : State) (id : Nat) (v : Option Stage) : State :=
  let s1 := match s.jm.stages.get none id with | some o => s.releasePages o.pages | none => s
  match v with
  | none => { s1 with jm := { s1.jm with stages := s1.jm.stages.set none id none } }
  | some x =>
    match s1.takePages 2 x.pages.length (s.slot x.slot).enc with
    | some (t, ps) => { t with jm := { t.jm with stages := t.jm.stages.set none id (some { x with pages := ps, single := false }) } }
    | none => { s1 with jm := { s1.jm with stages := s1.jm.stages.set none id none } }

/-- The saves and sets marked SINGLE go to the partner (R414). -/
def State.sendCopies (s : State) : State :=
  let s1 := s.jm.saves.foldl (fun s e => match e.2 with
    | some v => if v.single then ({ s with jm := { s.jm with saves := s.jm.saves.set none e.1 (some { v with single := false }) } }).sendChord (.mirror (.save e.1 (some v))) else s
    | none => s) s
  s1.jm.stages.foldl (fun s e => match e.2 with
    | some v => if v.single then ({ s with jm := { s.jm with stages := s.jm.stages.set none e.1 (some { v with single := false }) } }).sendChord (.mirror (.stage e.1 (some v))) else s
    | none => s) s1

/-- Change the mirrored instance of a barrier. -/
def State.mirInst (s : State) (c id n : Nat) (f : HInst → HInst) : State :=
  match s.hbar c id with
  | some b => s.setHbar c id (some (b.setInst (f (b.inst n))))
  | none => s

/-- The Hub applies one change of mirrored state (Table 17.2). -/
def State.applyMirror (s : State) (m : MirrorMsg) : State :=
  match m with
  | .status w => (s.chordUp.foldl (fun s p => s.modPort p (fun o => { o with peerStatus := w })) s).refreshWord
  | .taiMap (some t) => s.takeMap t
  | .taiMap none => { s with time := { s.time with pend := none } }
  | .taiNow t q v =>
    let d := t.ofs - s.time.ofs
    let s1 := { s with time := { s.time with ofs := t.ofs, utc := t.utc, leap := t.leap, seq := q, taiValid := v } }
    if d = 0 then s1 else s1.ofsMoved d
  | .refState n q d x w => { s with pair := { s.pair with mirRefs := s.pair.mirRefs.set none n (some ⟨q, d, x, w⟩) } }
  | .holdoverEntry h => { s with pair := { s.pair with mirHold := h } }
  | .dispute k b => { s with pair := { s.pair with mirDisp := if b then addNew s.pair.mirDisp k else s.pair.mirDisp.filter (fun x => x != k) } }
  | .phaseTarget v => { s with pair := { s.pair with mirTarget := v } }
  | .dpllMode v r => s.setMode v r
  | .refConfig c => s.applyRefCfg c
  | .ctxInstall x =>
    if (s.slot x.slot).clearing then s
    else let y : CtxMsg := { x with key := Config.unwrap s.pair.pairKey x.key }
         s.install y (s.ctxKids y)
  | .ctxClear c g => s.askClear c g 0
  | .ctxLeaves c g l => s.noteLeaves c g l
  | .barrierDef c g d k => if (s.hbar c d.id).isSome then s else s.setHbar c d.id (some { d := d, gen := g, completed := k })
  | .barrierUndef c g id => s.setHbar c id none
  | .barrierArrival c g id n k d => s.mirInst c id n (fun i => { i with arrived := addNew i.arrived k, ds := i.ds.set 0 k (d.getD 0) })
  | .barrierH c g id n h => s.mirInst c id n (fun i => { i with h := some h })
  | .barrierRelease c g id n t =>
    if s.pair.role = .syncing then
      match s.hbar c id with
      | some b => if (b.inst n).s.isSome then s else s.setHbar c id (some (b.takeRelease (b.inst n) t (b.d.spanTier == s.tier)))
      | none => s
    else s.hubRelease c id n t
  | .collPlan d w =>
    if (s.plan (dSlot d) (dHandle d)).isSome then s
    else
      let r := (s.pairPanes d w).getD []
      (s.reserve r true).setPlan (dSlot d) (dHandle d) (some { desc := d, w := w, ret := r })
  | .collClose c g h => s.hubClose c h
  | .counters c g h k a b => s.modPlan c h (fun p => { p with sent := BitVec.ofNat 32 a, committed := BitVec.ofNat 32 b })
  | .shape c g w r b => s.setShape c w r b true
  | .radioSlots v e => { s with sched := { s.sched with slotsPend := some (v, e) } }
  | .radioTiles v e => { s with sched := { s.sched with tilesPend := some (v, e) } }
  | .fenceMap t p c => { s with flt := { s.flt with peerTiles := t, peerPorts := p, peerChord := c } }
  | .manifest c g d l => { s with hm := { s.hm with manifests := s.hm.manifests.set none (c * 256) (some (d, l)) } }
  | .batchSigned q k => { s with hm := { s.hm with shadows := dropThrough k s.hm.shadows } }
  | .lease e =>
    let s1 := s.knowEpoch e
    { s1 with pair := { s1.pair with peerRole := .primary, chordRenewAt := s.htNs } }
  | .fullDone => ({ s with pair := { s.pair with mirrorDone := true } }).tryPartner
  | .retired k =>
    let s1 := ({ s with coll := { s.coll with copies := s.coll.copies.filter (fun r => r.msg.key != k) } }).seeInst k
    (s1.noteDone k).modPlan k.slot k.handle (fun p => if p.newest = k.inst then { p with ackd := p.ackd + 1 } else p)
  | .save id v => s.keepSave id v
  | .stage id v => s.keepStage id v
  | .tileHist t st ev => { s with flt := { s.flt with peerTileSt := s.flt.peerTileSt.set (0, []) t (st, ev) } }
  | .completion b i q code out =>
    let l := s.scriv.completions.filter (fun (c : Completion) => !(c.block == b && c.m == i && c.seq == q))
    { s with scriv := { s.scriv with completions := l ++ [({ block := b, m := i, seq := q, code := code, results := out } : Completion)] } }
  | .isolate =>
    let t := s.toSyncing
    { t with pair := { t.pair with role := .isolated } }
  | .rejoin => s
  | .roster r => { s with pair := { s.pair with peerRole := if r = 2 then .primary else if r = 1 then .partner else if r = 3 then .claiming else if r = 4 then .isolated else .syncing } }

/-- R411, R414: a mirror flit arrives over the chord. The primary hears only of the other Hub's fence maps and of the end of its
rebuild, upon which it clears SOLO; an Isolated Hub hears only of REJOIN. -/
def execMirrorFlitReceive (l : Link) (m : MirrorMsg) (s : State) : Out :=
  s.receivedIf (s.params.isChord l.port) l 1 fun s =>
    if s.chordUp.isEmpty then .next s
    else
      match s.pair.role with
      | .primary =>
        (match m with
         | .fullDone => .next ({ s with pair := { s.pair with peerRole := .partner, solo := false } }).sendCopies
         | .fenceMap _ _ _ => .next (s.applyMirror m)
         | .tileHist _ _ _ => .next (s.applyMirror m)
         | _ => .next s)
      | .isolated => (match m with | .rejoin => .next s.enterSyncing | .fenceMap _ _ _ => .next (s.applyMirror m) | _ => .next s)
      | .syncing => .next (s.applyMirror m)
      | _ => .next ((s.applyMirror m).logWrite m)

/-! ## Epoch records (R456) -/

/-- The record of an epoch: the first 8 bytes of SHA-384 over its guarded writes, in order. -/
def epochDigest (l : List (Nat × Nat × Nat)) : Nat :=
  Config.sha384 (l.flatMap (fun w => le 2 w.1 ++ le 8 w.2.1 ++ le 48 w.2.2)) % 2 ^ 384 / 2 ^ 320

/-- The two records of an epoch differ: EPOCH_MISMATCH, MISMATCHES and a record of event 0x0924 with both, position 0 first. -/
def State.epochDiffers (s : State) (own peer : Nat) : State :=
  let (a, b) := if s.boot.cfg.pos = 0 then (own, peer) else (peer, own)
  ({ s with scriv := { s.scriv with epochMismatch := true, mismatches := (s.scriv.mismatches + 1) % 65536 } }).record
    { event := 0x0924, syn := be 8 a ++ be 8 b }

/-- R456: the primary closes its record at the end of an epoch and sends it; the partner compares the record with its own of the writes
marked with that epoch, and answers with its own; each acts on a mismatch. A Hub that was not Partner for the whole epoch compares
nothing. -/
def execEpochRecordClose (peer : Option Nat) (s : State) : Out :=
  if !s.isHub then .next s
  else
    let own := epochDigest s.scriv.epochLog
    match peer with
    | none =>
      if s.htNs / 1048576 = s.scriv.epochAt / 1048576 then .next s
      else if s.isPrimary then
        let s1 := { s with scriv := { s.scriv with epochLog := [], epochAt := s.htNs, epochLast := if s.pair.solo then none else some own } }
        .next (if s.pair.solo then s1 else s1.sendChord (.epochRecord own))
      else if s.pair.role = .partner then .next s
      else .next { s with scriv := { s.scriv with epochLog := [], epochAt := s.htNs } }
    | some d =>
      if s.isPrimary then
        match s.scriv.epochLast with
        | none => .next s
        | some x =>
          let s1 := { s with scriv := { s.scriv with epochLast := none } }
          if x = d then .next s1
          else
            .next (s1.epochDiffers x d).goSolo.rebuild
      else if s.pair.role ≠ .partner then .next s
      else
        let s1 := { s with scriv := { s.scriv with epochLog := [], epochAt := s.htNs } }
        if s.scriv.epochAt < s.pair.since then .next s1
        else
          let s2 := s1.sendChord (.epochRecord own)
          if own = d then .next s2 else .next ((s2.epochDiffers own d).enterSyncing.refreshWord)

/-! ## CMD_PAIR (R415, R416, R419) -/

/-- The checks that ISOLATE, REJOIN and HANDOVER share (Table 17.5). -/
def State.pairCheck (s : State) : Option St :=
  if s.pair.role = .syncing then some .busy
  else if !s.isPrimary || s.chordUp.isEmpty then some .conflict
  else if s.pair.handover.isSome then some .busy
  else none

/-- CMD_PAIR ISOLATE (R415). -/
def execPairIsolate (h : CmdHdr) (s : State) : Out :=
  runCmd { opcode := 0x0704, leaf := false } h s fun s =>
    match s.pairCheck with
    | some c => .err s c
    | none =>
      if s.pair.peerRole = .isolated then .err s .conflict
      else
        let s1 := s.sendChord (.mirror .isolate)
        .ok ({ s1 with pair := { s1.pair with peerRole := .isolated } }).goSolo []

/-- CMD_PAIR REJOIN (R415): the other Hub goes through Syncing, with a new pair key (Table 18.7). -/
def execPairRejoin (h : CmdHdr) (s : State) : Out :=
  runCmd { opcode := 0x0704, leaf := false } h s fun s =>
    match s.pairCheck with
    | some c => .err s c
    | none =>
      if s.pair.peerRole ≠ .isolated ∨ s.pair.peerMirrorVer ≠ s.scriv.mirrorVer then .err s .conflict
      else
        .ok (s.sendChord (.mirror .rejoin)).rebuild []

/-- CMD_PAIR HANDOVER (R416). -/
def execPairHandover (h : CmdHdr) (eff : HT) (s : State) : Out :=
  runCmd { opcode := 0x0704, leaf := false } h s fun s =>
    if eff < s.htNs + 1000000 then .err s .range
    else
      match s.pairCheck with
      | some c => .err s c
      | none =>
        if s.pair.peerRole ≠ .partner then .err s .conflict
        else .wait { s with pair := { s.pair with handover := some { eff := eff, src := h.src } } }

/-- R416: at the effective HT of a HANDOVER the primary maps no new chunk; once no chunk is Draining, in Replay or Gated, it releases
the lease. -/
def execHandoverEffective (s : State) : Out :=
  match s.pair.handover with
  | none => .next s
  | some h =>
    if !s.isPrimary || decide (s.htNs < h.eff) then .next s
    else
      let s1 := { s with pair := { s.pair with stopMapping := true } }
      let busy := s.coll.chunks.any (fun c => decide (c.state = .draining ∨ c.state = .replay ∨ c.state = .gated))
      if busy then .next s1 else .next ((complete s1 h.src 0x0704 .ok []).sendRelease.leavePrimary)

/-- The mask of the entries of a table of saves or sets. -/
def idMask (l : List Nat) : Nat := l.foldl (fun m i => m ||| 2 ^ i) 0

/-- CMD_PAIR READ (Table 17.5): both roles, epoch, confirmations, SOLO, chord ports up, saves and sets marked SINGLE. -/
def execPairRead (h : CmdHdr) (s : State) : Out :=
  runCmd { opcode := 0x0704, leaf := false, read := true } h s fun s =>
    let conf := ((s.pair.confs.getLast?).map (fun e => e.2.length)).getD 0
    let saves := idMask (s.jm.saves.filterMap (fun e => match e.2 with | some v => if v.single then some e.1 else none | none => none))
    let sets := idMask (s.jm.stages.filterMap (fun e => match e.2 with | some v => if v.single then some e.1 else none | none => none))
    .ok s (layout [(1, s.pair.role.val), (1, s.pair.peerRole.val), (4, s.pair.epoch), (2, conf), (1, b2n s.pair.solo),
      (8, idMask (s.chordUp.map (fun p => p - 288))), (32, saves), (32, sets)])

end Sys2Proof.Machine
end

