-- ==== Sys2Proof/Machine/Scrivener.lean ====
section
/-! DEFINITION. The Scrivener (chapter 19): mailboxes, forwarded commands, restarts, staging and activation of images, and the debug unlock
(R447). -/

set_option linter.unusedVariables false

namespace Sys2Proof.Machine

/-! ## Mailboxes (R457 to R459) -/

/-- The mailbox that an access reaches (R457, R479): a host mailbox for an operator access, or the page of the open slot that it presents;
in recovery host mailbox 0 only. -/
def State.mailboxAt (s : State) (m : Option Nat) (access : Nat) : Option Nat :=
  match m with
  | some k => if k < 8 ∧ access = 0 ∧ (s.recovery = false ∨ k = 0) then some k else none
  | none => if access ≠ 0 ∧ (s.slot access).open_ = true ∧ (s.slot access).clearing = false ∧ s.recovery = false then some (256 + access) else none

/-- R458: 1 is written to GO. A FREE mailbox is posted with a copy of its command area; any other sets GO_ERR. -/
def execMailboxGo (m : Option Nat) (access : Nat) (s : State) : Out :=
  match s.mailboxAt m access with
  | none => .next (s.answer 0 true)
  | some k =>
    let b := s.mb k
    if b.state = 0 then
      let s1 := s.modMb k (fun b => { b with state := 1, go := true, copy := b.cmd, irq := bit (fieldAt (copyBytes b.cmd) 2 1) 2 })
      .next ({ s1 with scriv := { s1.scriv with order := s1.scriv.order ++ [k] } }.answer 0 false)
    else .next ((s.modMb k (fun b => { b with goErr := true })).answer 0 false)

/-- R458: 1 is written to ABORT. A POSTED command is withdrawn; in any other state nothing happens. -/
def execMailboxAbort (m : Option Nat) (access : Nat) (s : State) : Out :=
  match s.mailboxAt m access with
  | none => .next (s.answer 0 true)
  | some k =>
    let b := s.mb k
    if b.state = 1 then
      let s1 := s.modMb k (fun b => { b with state := 3, go := false, code := St.aborted.val, irqDone := b.irq })
      let s2 := { s1 with scriv := { s1.scriv with order := s1.scriv.order.filter (fun x => x != k) } }
      .next ((if 256 ≤ k ∧ b.irq = true then s2.ctxIrq (k - 256) 4 else s2).answer 0 false)
    else .next (s.answer 0 false)

/-- R458: 1 is written to DONE: a mailbox in DONE becomes FREE. -/
def execMailboxDoneClear (m : Option Nat) (access : Nat) (s : State) : Out :=
  match s.mailboxAt m access with
  | none => .next (s.answer 0 true)
  | some k =>
    if (s.mb k).state = 3 then .next ((s.modMb k (fun b => { b with state := 0, irqDone := false })).answer 0 false)
    else .next (s.answer 0 false)

/-- The mailboxes that run a command. -/
def State.runningMbs (s : State) : List Nat := (s.scriv.mbs.filter (fun e => e.2.state == 2)).map (fun e => e.1)

/-- The opcodes of Table 19.7, each with the number of operations in its command's list. -/
def opcodeTable : List (Nat × Nat) :=
  [(0x0101, 1), (0x0102, 1), (0x0103, 1), (0x0104, 1), (0x0105, 1), (0x0106, 5), (0x0107, 1), (0x0108, 1), (0x0109, 4), (0x010A, 1), (0x010B, 1),
   (0x0201, 3), (0x0202, 1), (0x0203, 1), (0x0301, 4), (0x0302, 2), (0x0303, 1), (0x0304, 1)] ++
  [(0x0401, 2), (0x0402, 1), (0x0403, 1), (0x0404, 1), (0x0501, 3), (0x0502, 1), (0x0503, 2), (0x0504, 1), (0x0505, 3), (0x0506, 5), (0x0507, 1),
   (0x0601, 3), (0x0602, 1), (0x0603, 3), (0x0604, 2)] ++
  [(0x0701, 4), (0x0702, 1), (0x0703, 3), (0x0704, 4), (0x0801, 1), (0x0802, 1), (0x0803, 4), (0x0804, 2), (0x0901, 1), (0x0902, 1)]

/-- Check 1 of R460 over the head of a command area (Table 19.3): a listed opcode and operation, and reserved fields of 0. Those among the
arguments are the command's own. -/
def headOk (l : List Byte) : Bool :=
  opcodeTable.any (fun e => e.1 == fieldAt l 0 2 && decide (fieldAt l 8 1 < e.2)) &&
    fieldAt l 2 1 / 8 == 0 && fieldAt l 3 1 == 0 && fieldAt l 5 1 == 0 && fieldAt l 9 3 == 0

/-- The source of the commands of a mailbox: a host mailbox or the page of a slot. -/
def srcOf (m : Nat) : CmdSrc := if 256 ≤ m then .page (m - 256) else .host m

/-- R459: the mailbox posted first is accepted while fewer than 16 commands run; SEQ counts it, CMD_SEQ on a page (R439, R460). None is
accepted during a restart, nor once an activation is effective (R454, R467). A command area whose head check 1 of R460 refuses completes at
once with ST_RANGE, in recovery with ST_BUSY (R479): no command of Table 19.7 runs for it. -/
def execMailboxAccept (s : State) : Out :=
  match s.scriv.order with
  | [] => .next s
  | m :: r =>
    if s.scriv.restarting || !s.scriv.accepting || decide (16 ≤ s.runningMbs.length) || decide (s.boot.stage < 3) then .next s
    else
      let seq := if 256 ≤ m then (s.slot (m - 256)).cmdSeq else ((s.mb m).seq + 1) % 2 ^ 32
      let s1 := s.modMb m (fun b => { b with state := 2, go := false, seq := seq, acceptHt := s.htNs })
      let s2 := if 256 ≤ m then s1.modSlot (m - 256) (fun x => { x with cmdSeq := (x.cmdSeq + 1) % 2 ^ 32 }) else s1
      let s3 := { s2 with scriv := { s2.scriv with order := r } }
      let l := copyBytes (s3.mb m).copy
      .next (if headOk l then s3 else complete s3 (srcOf m) (fieldAt l 0 2) (if s3.recovery then .busy else .range) [])

/-! ## Forwarded commands (R461, R462) -/

/-- Whether a forwarded command is known here: under way or only passed on. -/
def State.knownFwd (s : State) (block m seq : Nat) : Bool := s.scriv.fwdIn.any (fun e => e.1 == block && e.2.1 == m && e.2.2.1 == seq)

/-- Note a forwarded command and the port to which its response goes. -/
def State.noteFwd (s : State) (block m seq port : Nat) : State :=
  { s with scriv := { s.scriv with fwdIn := s.scriv.fwdIn.filter (fun e => !(e.1 == block && e.2.1 == m && e.2.2.1 == seq)) ++ [(block, m, seq, port)] } }

/-- Answer a forwarded command on a port. -/
def State.answerFwd (s : State) (port block m seq : Nat) (code : St) (out : List Byte) : State :=
  s.send port (.forwardResp (.forward block m seq) seq code out)

/-- Pass a forwarded command on, upward or over the chord to the pair's primary. -/
def State.passFwd (s : State) (port block m seq tier opcode : Nat) (overChord : Bool) (msg : TxMsg) : State :=
  let s1 := s.noteFwd block m seq port
  let f : Fwd := { src := .forward block m seq, seq := seq, sentAt := s.htNs, tier := tier, opcode := opcode, slot := 0, msg := msg, overChord := overChord }
  let l := s1.scriv.fwds.filter (fun x => x.src != f.src)
  let s2 := { s1 with scriv := { s1.scriv with fwds := l ++ [f] } }
  if overChord then s2.sendChord msg else s2.sendUp msg

/-- A forwarded command at the primary of its tier (R454, R462): answered from a completion record; held during a restart, up to 64; a
resent open fails with ST_BUSY (Table 18.7) and a resent HANDOVER with ST_ABORTED (R416); any other is taken for execution. -/
def State.takeFwd (s : State) (port block m seq opcode op : Nat) (resent : Bool) : State :=
  match s.scriv.completions.find? (fun c => c.block == block && c.m == m && c.seq == seq) with
  | some c => s.answerFwd port block m seq c.code c.results
  | none =>
    if s.knownFwd block m seq then s.noteFwd block m seq port
    else if s.scriv.restarting && decide (64 ≤ s.scriv.held.length) then s.answerFwd port block m seq .busy []
    else
      let s1 := s.noteFwd block m seq port
      if resent && opcode == 0x0801 then completeFwd s1 block m seq .busy []
      else if resent && opcode == 0x0704 && op == 2 then completeFwd s1 block m seq .aborted []
      else if s.scriv.restarting then { s1 with scriv := { s1.scriv with held := s1.scriv.held ++ [(block, m, seq)] } }
      else s1

/-- R461, R401: a forwarded command arrives. The primary of its tier takes it, another Hub of that pair passes it over the chord, and a Hub
below passes it up. `bytes` is the command area of 64 bytes. -/
def execForwardedCommandReceive (l : Link) (block m seq : Nat) (tier opcode : Nat) (mirrored : Bool) (bytes : BitVec 512) (resent : Bool) (s : State) : Out :=
  s.received l 1 fun s =>
    let port := l.port
    let msg := TxMsg.forward block m seq tier opcode mirrored bytes resent
    if !s.isHub || !(s.port port).up then .next s
    else if tier < s.tier then .next (s.answerFwd port block m seq .range [])
    else if tier = s.tier then
      if s.isPrimary then .next (s.takeFwd port block m seq opcode (bytes.toNat / 2 ^ 64 % 256) resent)
      else if s.params.isChord port then .next s
      else .next (s.passFwd port block m seq tier opcode true msg)
    else if s.isTop then .next (s.answerFwd port block m seq .range [])
    else .next (s.passFwd port block m seq tier opcode false msg)

/-- Forget a command passed on by this Hub. -/
def State.dropFwd (s : State) (src : CmdSrc) (seq : Nat) : State :=
  { s with scriv := { s.scriv with fwds := s.scriv.fwds.filter (fun f => !(f.src == src && f.seq == seq)) } }

/-- R461: the response of a forwarded command completes the mailbox from which it came, or goes on along the path. One that answers nothing
is discarded (Table 19.9). -/
def execForwardResponseReceive (l : Link) (src : CmdSrc) (seq : Nat) (code : St) (results : List Byte) (s : State) : Out :=
  s.received l 1 fun s =>
    match s.scriv.fwds.find? (fun f => f.src == src && f.seq == seq) with
    | none => .next s
    | some f =>
      let s1 := s.dropFwd src seq
      match src with
      | .forward b m q =>
        match s1.scriv.fwdIn.find? (fun e => e.1 == b && e.2.1 == m && e.2.2.1 == q) with
        | some e =>
          let l := s1.scriv.fwdIn.filter (fun x => !(x.1 == b && x.2.1 == m && x.2.2.1 == q))
          .next ({ s1 with scriv := { s1.scriv with fwdIn := l } }.answerFwd e.2.2.2 b m q code results)
        | none => .next s1
      | _ => .next (complete s1 src f.opcode code results)

/-- R461: no response within 100,000,000 ns. -/
def execForwardTimeout (src : CmdSrc) (s : State) : Out :=
  match s.scriv.fwds.find? (fun f => f.src == src && decide (f.sentAt + 100000000 ≤ s.htNs)) with
  | none => .next s
  | some f =>
    let s1 := s.dropFwd src f.seq
    match src with
    | .forward b m q =>
      .next { s1 with scriv := { s1.scriv with fwdIn := s1.scriv.fwdIn.filter (fun x => !(x.1 == b && x.2.1 == m && x.2.2.1 == q)) } }
    | _ => .next (complete s1 src f.opcode .timeout [])

/-! ## Restarts (R453, R454, R478) -/

/-- A command of this block's own mailboxes no longer runs: what ran for it ends where it stands. A step that was being armed is
withdrawn (R488). -/
def State.stopRuns (s : State) : State :=
  let s1 := (s.scriv.dists.filter (fun d => d.up.isNone)).foldl (fun s d =>
    let t := s.distDrop d.id
    match d.cmd with
    | .htStep _ _ => let u := t.distTell d (.withdraw d.id)
                     if d.ownOk then u.distUndo false d.cmd d.undo else u
    | _ => t) s
  let s2 := s1.test.runs.foldl (fun s r => s.endTest r) s1
  let s3 := match s2.tdc.cal with | some c => s2.endCal c | none => s2
  let s4 := match s3.tsrc.plumb with
    | some r => if r.src.isSome then (s3.plumbDrop).send r.args.port (.plumb (.plumbEnd none)) else s3
    | none => s3
  let s5 := s4.endJournalRuns
  { s5 with
    docket := { s5.docket with pos := s5.docket.pos.map (fun (e : Nat × PoSt) => (e.1, { e.2 with alignSrc := none })) }
    ctx := s5.ctx.map (fun (e : Nat × Ctx) => (e.1, { e.2 with closing := none }))
    pair := { s5.pair with handover := none, stopMapping := false } }

/-- The commands that run complete with ST_ABORTED (R453, R467, Table 19.1): those of the mailboxes but one, and those of other blocks. -/
def State.abortRunning (s : State) (keep : Option Nat) : State :=
  let s1 := { s with scriv := { s.scriv with fwds := s.scriv.fwds.filter (fun f => !f.own) } }
  let s2 := s1.stopRuns
  let s3 := (s2.runningMbs.filter (fun m => some m != keep)).foldl (fun s m => completeMb s m (fieldAt (copyBytes (s.mb m).copy) 0 2) .aborted []) s2
  let here := s3.scriv.fwdIn.filter (fun e => !(s3.scriv.fwds.any (fun f => f.src == .forward e.1 e.2.1 e.2.2.1)))
  here.foldl (fun s e => completeFwd s e.1 e.2.1 e.2.2.1 .aborted []) s3

/-- The Scrivener restarts: RESTARTS counts it; nothing is accepted until it completes. -/
def State.beginRestart (s : State) : State :=
  { s with scriv := { s.scriv with restarting := true, restarts := (s.scriv.restarts + 1) % 65536, restartAt := s.htNs, held := [] } }

/-- FW_ACTIVE goes to the other slot with TRIAL clear, and FW_FALLBACK is set (R477, R478). -/
def State.fallBack (s : State) : State :=
  let b := s.flash.boot
  { s with
    flash := s.flash.putBoot { b with fwActive := 1 - b.fwActive, trial := false, trialRestarts := 0 }
    boot := { s.boot with fwFallback := true } }

/-- A restart of firmware on trial (R478): the third returns FW_ACTIVE to the previous slot. -/
def State.trialRestart (s : State) : State :=
  let b := s.flash.boot
  if !b.trial then s
  else if 3 ≤ b.trialRestarts + 1 then s.fallBack
  else { s with flash := s.flash.putBoot { b with trialRestarts := b.trialRestarts + 1 } }

/-- A fault restarts the Scrivener (R453): its record, and the end of what ran. -/
def State.faultRestart (s : State) (event : Nat) : State :=
  if s.scriv.restarting || decide (s.boot.stage < 3) || s.recovery then s
  else
    let s1 := (s.record { event := event }).abortRunning none
    ({ s1 with scriv := { s1.scriv with act := none, accepting := true } }.beginRestart).trialRestart

/-- R453: the watchdog was not serviced for 10,000,000 ns. -/
def execWatchdogExpiry (s : State) : Out :=
  if s.scriv.watchdog + 10000000 ≤ s.htNs then .next (s.faultRestart 0x0921) else .next s

/-- R453: a double-bit error in the SRAM. -/
def execSramDoubleError (s : State) : Out := .next (s.faultRestart 0x0920)

/-- R453: a fetch outside the loaded image. -/
def execBadFetch (s : State) : Out := .next (s.faultRestart 0x0922)

/-- R453: a single-bit error in the SRAM is corrected and counted in ECC_CORR. -/
def execSramSingleBitError (s : State) : Out := .next { s with scriv := { s.scriv with eccCorr := (s.scriv.eccCorr + 1) % 65536 } }

/-! ## Images (R426, R465 to R467, R477) -/

/-- The image in a slot of a kind. -/
def State.imageAt (s : State) (kind slot : Nat) : Option Image := if kind = 0 then s.flash.fw.get none slot else s.flash.cfg.get none slot

/-- Whether a firmware image verifies against a MIN_FW_SVN (R426). -/
def fwOk (minSvn : Nat) : Option Image → Bool
  | some i => i.hdr.sigOk && decide (minSvn ≤ i.hdr.svn)
  | none => false

/-- Whether a configuration image verifies (R426). -/
def cfgOk : Option Image → Bool
  | some i => i.hdr.sigOk
  | none => false

/-- The active slot of a kind. -/
def BootRec.active (b : BootRec) (kind : Nat) : Nat := if kind = 0 then b.fwActive else b.cfgActive

/-- Firmware of a slot is in force (R427): its version, security version, mirror format and digest. -/
def State.runFw (s : State) (i : Image) : State :=
  { s with scriv := { s.scriv with fwVersion := i.hdr.fwVersion, fwSvn := i.hdr.svn, mirrorVer := i.hdr.mirrorVer, fwDigest := i.hdr.digest } }

/-- The ROM loads firmware (R477): the active slot when it verifies, else the other. -/
def State.loadFw (s : State) (minSvn : Nat) : Option State :=
  match s.imageAt 0 s.flash.boot.fwActive, s.imageAt 0 (1 - s.flash.boot.fwActive) with
  | some i, some j => if fwOk minSvn (some i) then some (s.runFw i) else if fwOk minSvn (some j) then some (s.fallBack.runFw j) else none
  | some i, none => if fwOk minSvn (some i) then some (s.runFw i) else none
  | none, some j => if fwOk minSvn (some j) then some (s.fallBack.runFw j) else none
  | none, none => none

/-- The block enters recovery (R479): every port is held. HT runs on; VALID, once 1, stays 1 until the next block reset (R37). -/
def State.enterRecovery (s : State) : State :=
  let s1 := s.params.portList.foldl (fun s p => (s.portDown p false .ok).holdPort p) s
  { s1 with boot := { s1.boot with stage := 8 } }

/-- The end of a restart: SCRIV_RESTART is set, fences that waited are made in order, and mailboxes are accepted again (R454, Table 22.4). -/
def State.restarted (s : State) : State :=
  let l := s.scriv.events
  let s1 := { s with scriv := { s.scriv with restarting := false, accepting := true, held := [], events := [], watchdog := s.htNs, act := none }
                     irq := { s.irq with scrivRestart := true } }
  l.foldl (fun s t => if (s.tile t).state = 3 then s else s.fenceTile t 0) s1

/-- R453, R467: the restart completes. After an activation the new firmware completes the command with its version; when the staged image
did not verify, the boot record returns to the previous slot, the block restarts again and the command fails with ST_AUTH. Firmware
loaded in recovery starts the block anew. -/
def execScrivenerRestartComplete (stagedOk : Bool) (s : State) : Out :=
  if !s.scriv.restarting then .next s
  else
    match s.scriv.act with
    | some a =>
      if !stagedOk && !a.failed then
        let s1 := s.fallBack
        .next ({ s1 with scriv := { s1.scriv with act := some { a with failed := true } } }.beginRestart)
      else
        let s1 := match s.imageAt 0 s.flash.boot.fwActive with | some i => if a.failed then s else s.runFw i | none => s
        let s2 := s1.restarted
        if a.failed then .next (complete s2 a.src 0x0902 .auth [])
        else
          let s3 := { s2 with scriv := { s2.scriv with staged := s2.scriv.staged.filter (fun k => k != 0) } }
          let s4 := complete s3 a.src 0x0902 .ok (layout [(4, s3.scriv.fwVersion)])
          .next (if s.recovery then { s4 with boot := { s4.boot with stage := 0 } } else s4)
    | none =>
      match (if stagedOk then some ((match s.imageAt 0 s.flash.boot.fwActive with | some i => s.runFw i | none => s)) else s.loadFw s.scriv.minSvn) with
      | some t => .next t.restarted
      | none => .next s.restarted.enterRecovery

/-- The 64-byte header of an image (Table 19.6). -/
def hdrBytes (h : ImgHdr) : List Byte :=
  le 4 h.magic ++ le 4 h.kind ++ le 4 h.blockVersion ++ le 4 h.fwVersion ++ le 4 h.svn ++ le 2 h.mirrorVer ++ le 2 0 ++ le 8 h.length ++ List.replicate 32 0

/-- Whether header and LENGTH of an image are right (R465, R466). -/
def imgRange (h : ImgHdr) (kind len : Nat) : Bool :=
  h.magic == 0x49465844 && h.kind == kind && h.blockVersion == 0x00030002 && h.reservedZero && h.length == len && decide (160 ≤ len) &&
    (if kind = 0 then decide (len ≤ 458752 + 160) else h.fwVersion == 0 && h.mirrorVer == 0 && decide (len ≤ 1048576))

/-- Write a slot of a kind. -/
def State.putImage (s : State) (kind slot : Nat) (i : Option Image) : State :=
  if kind = 0 then { s with flash := { s.flash with fw := s.flash.fw.set none slot i } }
  else { s with flash := { s.flash with cfg := s.flash.cfg.set none slot i } }

/-- CMD_FW_STAGE (R466). -/
def execCmdFwStage (h : CmdHdr) (kind len : Nat) (img : FabRead Image) (s : State) : Out :=
  runRead { opcode := 0x0901, read := true, recovery := true, flash := true } h s img fun s =>
    if s.recovery && decide (kind ≠ 0) then .err s .busy
    else if 1 < kind then .err s .range
    else if s.scriv.act.isSome then .err s .busy
    else withRead s img fun i =>
      let slot := 1 - s.flash.boot.active kind
      let gone (t : State) : State := { t with scriv := { t.scriv with staged := t.scriv.staged.filter (fun k => k != kind) } }
      if !imgRange i.hdr kind len then .err s .range
      else if !i.hdr.sigOk || (kind == 0 && decide (i.hdr.svn < s.scriv.minSvn)) || (kind == 1 && !i.cfg.ownerValid) then .err s .auth
      else if !i.hdr.readBackOk then .err (gone (s.putImage kind slot none)) .auth
      else
        let s1 := s.putImage kind slot (some i)
        .ok { s1 with scriv := { s1.scriv with staged := addNew s1.scriv.staged kind } } (layout [(1, slot)] ++ hdrBytes i.hdr)

/-- CMD_FW_ACTIVATE (R467, R479). -/
def execCmdFwActivate (h : CmdHdr) (kind : Nat) (eff : HT) (s : State) : Out :=
  runCmd { opcode := 0x0902, read := true, recovery := true, flash := true } h s fun s =>
    if s.recovery && decide (kind ≠ 0 ∨ eff ≠ 0) then .err s .busy
    else
      match (if s.scriv.staged.contains kind then s.imageAt kind (1 - s.flash.boot.active kind) else none) with
      | none => .err s .range
      | some i =>
        let peer := s.isHub && decide (s.pair.peerRole = .partner ∨ s.pair.peerRole = .primary)
        if eff ≠ 0 ∧ eff < s.htNs + 1000000 then .err s .range
        else if kind == 0 && peer && i.hdr.mirrorVer != s.pair.peerMirrorVer then .err s .conflict
        else if kind == 1 && decide (s.scriv.fwSvn < i.hdr.svn) then .err s .conflict
        else if s.scriv.act.isSome then .err s .busy
        else .wait { s with scriv := { s.scriv with act := some { kind := kind, eff := if eff = 0 then s.htNs else eff, src := h.src } } }

/-- The boot record flips to the staged firmware, on trial, and the Scrivener restarts (R467, R478). -/
def State.flipFw (s : State) (a : Activation) : State :=
  let b := s.flash.boot
  ({ s with flash := s.flash.putBoot { b with fwActive := 1 - b.fwActive, trial := true, trialRestarts := 0, trialHt := a.eff } }).beginRestart

/-- A configuration image comes into force with its live fields (R467, R481); its other fields at the next block reset. -/
def State.activateCfg (s : State) (a : Activation) : State :=
  let b := s.flash.boot
  match s.imageAt 1 (1 - b.cfgActive) with
  | none => s
  | some i =>
    let s1 := { s with
      flash := s.flash.putBoot { b with cfgActive := 1 - b.cfgActive }
      boot := { s.boot with cfg := { s.boot.cfg with radioReserve := i.cfg.radioReserve, peerRoots := i.cfg.peerRoots, soloTimeoutS := i.cfg.soloTimeoutS } }
      scriv := { s.scriv with minSvn := i.hdr.svn, cfgDigest := i.hdr.digest, act := none, staged := s.scriv.staged.filter (fun k => k != 1) } }
    complete s1 a.src 0x0902 .ok []

/-- R467: HT has reached the effective HT of the activation. For firmware no more commands are accepted, and the restart follows once none
but the activation runs. -/
def execFwActivateEffective (s : State) : Out :=
  match s.scriv.act with
  | none => .next s
  | some a =>
    if s.htNs < a.eff || s.scriv.restarting then .next s
    else if a.kind = 1 then .next (s.activateCfg a)
    else
      let s1 := { s with scriv := { s.scriv with accepting := false, act := some { a with effective := true } } }
      let busy := s.runningMbs.any (fun m => some m != mbOf a.src)
      if busy then .next s1 else .next (s1.flipFw a)

/-- R467: 1,000,000,000 ns after the effective HT, commands that still run complete with ST_ABORTED, and the restart follows. -/
def execActivationCommandWaitExpiry (s : State) : Out :=
  match s.scriv.act with
  | none => .next s
  | some a =>
    if a.effective && !s.scriv.restarting && decide (a.eff + 1000000000 ≤ s.htNs) then .next ((s.abortRunning (mbOf a.src)).flipFw a) else .next s

/-! ## Debug unlock (R447) -/

/-- The steps of an accepted debug unlock, in their order (R447, R423): keys, PUF, and every port are gone at its end. The Scrivener's data
SRAM is cleared, so commands that run in other mailboxes than `keep` complete with ST_ABORTED. -/
def State.unlock (s : State) (keep : Option Nat) : State :=
  let s1 := (s.endContexts).abortRunning keep
  let s2 := (List.range 16).foldl (fun s q => (s.modQueue q (fun _ => {})).release (.queue q)) s1
  let s3 := { s2 with
    tiles := s2.tiles.map (fun (e : Nat × Tile) => (e.1, { e.2 with panes := [] }))
    sync := { ({} : SyncSt) with completed := s2.sync.completed }
    coll := {} }.wipeJournal
  let s4 := { s3 with
    sec := { s3.sec with keysValid := false, unlocked := true, tapLocked := false, pufOn := false, challenge := none, attKey := 0, kJnl := 0 }
    pair := { s3.pair with pairKey := 0, pairEx := none }
    scriv := { s3.scriv with fwds := [], held := [], dists := [], seen := [], act := none } }
  s4.params.portList.foldl (fun s p => ((s.portDown p false .auth).holdPort p).modPort p (fun o => { o with authFail := true })) s4

/-- CMD_DEBUG_UNLOCK UNLOCK (R447). -/
def execDebugUnlock (h : CmdHdr) (t : FabRead Token) (s : State) : Out :=
  runRead { opcode := 0x0804 } h s t fun s => withRead s t fun k =>
    if k.magic ≠ 0x54445844 ∨ k.tver ≠ 1 then .err s .range
    else if k.licHash ≠ s.params.licRootHash ∨ k.sigOk = false ∨ k.deviceId ≠ s.deviceId ∨ s.sec.challenge ≠ some k.challenge then .err s .auth
    else .ok (s.unlock (mbOf h.src)) []

end Sys2Proof.Machine
end

