-- ==== Sys2Proof/Machine/Boot.lean ====
section
/-! DEFINITION. Resets, the start-up sequence and the first HT of the top pair (chapter 20, R37, R40, R421, R423, R474 to R486). -/

set_option linter.unusedVariables false

namespace Sys2Proof.Machine

/-- R474: rst_por_n at 0: what block reset clears, and the PUF enabled and UNLOCKED cleared (R447). -/
def execPowerOnReset (s : State) : Out :=
  let r := s.afterReset
  .next { r with sec := { r.sec with unlocked := false, pufOn := true } }

/-- R474: rst_blk_n at 0. -/
def execBlockReset (s : State) : Out := .next s.afterReset

/-- Stage 1 (R421, R423): the root key from the PUF and the helper data, and with it the attestation key; the journal key is drawn. Without
it a record of event 0x0910 is written. -/
def State.formKeys (s : State) (pufOk : Bool) : State :=
  let s1 := { s with sec := { s.sec with certs := s.flash.certs, enrolled := s.flash.helper.isSome, kJnl := Config.freeRandom s.freeCtr }, freeCtr := s.freeCtr + 1 }
  match s.flash.helper with
  | some h =>
    if pufOk && s.sec.pufOn then { s1 with sec := { s1.sec with keysValid := true, helper := h, attKey := Config.hkdf (Config.rootKey h) "DXATT" [] } }
    else s1.record { event := 0x0910 }
  | none => s1.record { event := 0x0910 }

/-- A configuration image is in force. -/
def State.runCfg (s : State) (i : Image) : State :=
  { s with
    boot := { s.boot with cfg := i.cfg, cfgValid := true }
    scriv := { s.scriv with cfgDigest := i.hdr.digest, minSvn := i.hdr.svn }
    sec := { s.sec with ownerValid := i.cfg.ownerValid } }

/-- Stage 3 (R480): the active configuration slot when it verifies, else the other, which then is active, with CFG_FALLBACK set. -/
def State.loadCfg (s : State) : Option State :=
  let b := s.flash.boot
  let other := { s with
    flash := s.flash.putBoot { b with cfgActive := 1 - b.cfgActive }
    boot := { s.boot with cfgFallback := true } }
  match s.imageAt 1 b.cfgActive, s.imageAt 1 (1 - b.cfgActive) with
  | some i, some j => if cfgOk (some i) then some (s.runCfg i) else if cfgOk (some j) then some (other.runCfg j) else none
  | some i, none => if cfgOk (some i) then some (s.runCfg i) else none
  | none, some j => if cfgOk (some j) then some (other.runCfg j) else none
  | none, none => none

/-- The retirement list of flash, erased where the configuration image says so (R355). -/
def State.eraseList (s : State) : State :=
  if s.boot.cfg.eraseRetirements then { s with flash := { s.flash with retired := [], banks := [] } } else s

/-- The model that flash holds for the temperature source in use: one learned with another source is discarded (R84, R85). -/
def State.storedModel (s : State) : Option ModelData := s.flash.model.bind (fun m => if m.external = s.dpll.cfg.tempExternal then some m else none)

/-- The rest of stage 3 (Table 20.4): fence maps, tile histories, model and lease epoch from flash, the settings of the
configuration image, and the pattern store. -/
def State.restore (s0 : State) : State :=
  let s := s0.eraseList
  { s with
    flt := { s.flt with tilesMap := s.flash.tilesMap, portsMap := s.flash.portsMap, chordMap := s.flash.chordMap }
    tiles := (List.range s.params.tiles).filterMap (fun t =>
      let h := s.tileHistory t none
      if h.isEmpty then none else some (t, { s.tile t with events := h }))
    dpll := { s.dpll with model := (s.storedModel).getD {}, modelLoaded := s.storedModel.isSome, settleStart := if !s.dpll.warmN && s.dpll.ocxoRun then some s.htNs else none }
    pair := { s.pair with newest := s.flash.epoch, chordDownAt := if s.isHub then some s.htNs else none }
    sched := { s.sched with radioSlots := s.boot.cfg.radioSlots }
    test := { s.test with packs := s.flash.packs } }

/-- Stage 4 (R329, R332, R385, R387, R390): every domain is on; fenced tiles, the spares as the lowest-numbered of the others, the radio set,
and every group at the configured point but those of radio tiles and spares, which stay at point 0; comparator 0 serves barrier releases (R155), and the
fixed TDC channels are configured. -/
def State.settleUnits (s : State) : State :=
  let s1 := { s with pwr := { s.pwr with doms := ((List.range 80).filter (fun d => s.params.hasDomain d)).map (fun d => (d, ({ on := true } : Dom))) } }
  let free := (List.range s.params.tiles).filter (fun t => !bit s.flt.tilesMap t)
  let spares := if s.isHub then free.take (min s.boot.cfg.spares s.params.maxSpares) else []
  let s2 := (List.range s.params.tiles).foldl (fun s t =>
    s.modTile t (fun x => { x with state := if bit s.flt.tilesMap t then 3 else if spares.contains t then 2 else 1, idleSince := s.htNs })) s1
  let s3 := if s.isHub then s2.chooseRadio s.boot.cfg.radioTiles else s2
  let s4 := (List.range s.params.groups).foldl (fun s g => s.modGrp g (fun x => { x with freq := if s.grpPinned g then 0 else s.boot.cfg.freqPoint })) s3
  let fixed := (List.range 8).filter (fun c => s.tdcFixed c)
  let s5 := if s4.isHub then s4 else s4.setComp 0 .barrier
  fixed.foldl (fun s c => s.giveCfg c (hubFixedCfg s.dpll.cfg (if s.isHub then c else 4) (s.isTop && s.isHub))) s5

/-- The numbering of Daybook records goes on from the last one in flash (R337). -/
def State.resumeSeq (s : State) : State :=
  { s with flt := { s.flt with nextSeq := match s.flash.daybook.getLast? with | some r => r.seq + 1 | none => 0 } }

/-- R482: start-up, once both reset inputs are 1: the stages of Table 20.4 up to the start of port bring-up. `pufOk` says whether the PUF
gives the root key, `journalOk` and `badChannels` what the journal's self-test finds (R354). The block ends in recovery when no firmware
verifies (R479), and unconfigured when no configuration image does or OWNER_VALID is 0 (R480). -/
def execStartUp (pufOk : Bool) (journalOk : Bool) (badChannels : List Nat) (s : State) : Out :=
  if s.boot.stage ≠ 0 ∨ s.scriv.restarting = true then .next s
  else
    let s1 := s.resumeSeq.formKeys pufOk
    let svn := match s1.imageAt 1 s1.flash.boot.cfgActive with | some i => if cfgOk (some i) then i.hdr.svn else 0 | none => 0
    match s1.loadFw svn with
    | none => .next s1.enterRecovery
    | some s2 =>
      match s2.loadCfg with
      | none => .next ({ s2 with boot := { s2.boot with stage := 9 } }.restore).settleUnits
      | some s3 =>
        let s4 := ({ s3 with boot := { s3.boot with stage := 3, stage3At := s.htNs } }.restore).settleUnits
        if !s4.sec.ownerValid then .next { s4 with boot := { s4.boot with stage := 9 } }
        else
          let s5 := { s4 with boot := { s4.boot with stage := 5 }, scriv := { s4.scriv with watchdog := s.htNs, restartAt := s.htNs } }
          .next (if s5.isHub then s5.selfTest journalOk badChannels true else s5)

/-- The initial HT of a cold start (R40). -/
def coldHt (c : Option HT) : HT := match c with | some t => roundUp (t + 2 ^ 40) 1000000000 | none => 0

/-- R40, R484: a Hub of the top pair that hears no primary over the chord loads HT from the checkpoint: position 0 after 2,000,000,000 ns
from stage 3, position 1 after the solo start timeout. SOLO_LOAD is set, and the claim of the lease follows. A value of 2⁶² ns or more is never loaded
(R41). -/
def execSoloStartTimeout (s : State) : Out :=
  let wait := if s.boot.cfg.pos = 0 then 2000000000 else s.boot.cfg.soloTimeoutS * 1000000000
  if s.isTop && decide (s.boot.stage = 5) && !s.time.valid && decide (s.boot.stage3At + wait ≤ s.htNs) && decide (coldHt s.flash.checkpoint < 2 ^ 62) && !(s.chordTime.any (fun p => (s.port p).peerPrimary)) then
    let t := coldHt s.flash.checkpoint
    let s1 := s.moveTime ((t : Int) - s.htNs)
    let s2 := { s1 with
      time := { s1.time with ht48 := t * 2 ^ 48, valid := true }
      boot := { s1.boot with stage := 6, soloLoad := true } }
    .next s2.rebuildHistories.completeWaiting.refreshWord
  else .next s

/-- R478: 600 s without a restart: firmware clears TRIAL. -/
def execFwTrialClear (s : State) : Out :=
  let b := s.flash.boot
  if b.trial && !s.scriv.restarting && decide (s.scriv.restartAt + 600000000000 ≤ s.htNs) && decide (3 ≤ s.boot.stage ∧ s.boot.stage ≠ 8) then
    .next { s with flash := s.flash.putBoot { b with trial := false, trialRestarts := 0 } }
  else .next s

end Sys2Proof.Machine
end

