-- ==== Sys2Proof/Machine/Flags.lean ====
section
/-! DEFINITION. The flags that the interrupt block derives from the state: the sources of Table 22.3, irq_op, irq_ctx (R533 to R536), and
the pin levels that summarise them. -/

set_option linter.unusedVariables false

namespace Sys2Proof.Machine

/-- Whether any W1C bit of DX_LINK_STATUSp is 1 (R534). -/
def PortSt.sticky (o : PortSt) : Bool :=
  o.rttStep || o.lostFrames || o.authFail || o.retryDown || o.peerMismatch || o.plumbMismatch

/-- DX_IRQ_EVT (Table 22.4). -/
def State.irqEvt (s : State) : Nat :=
  b2n s.irq.timeChg + 2 * b2n s.irq.taiApplied + 4 * b2n s.irq.htStep + 8 * b2n s.flt.noticeOvf + 16 * b2n s.irq.scrivRestart

/-- DX_INTEG_STAT (Table 21.15). -/
def State.integStat (s : State) : Nat :=
  b2n s.time.synLock + 2 * b2n s.irq.synUnlock + 4 * b2n (s.isHub && s.irq.ocxoLoss) + 8 * b2n s.irq.phyDown + 16 * s.irq.evOvf.toNat +
  256 * b2n s.irq.rdErr + 512 * b2n s.irq.wrErr + 1024 * b2n s.irq.fbPoison + 2048 * b2n s.irq.flashErr

/-- The condition of source `i` (Table 22.3), without FORCE. -/
def State.srcCond (s : State) (i : Nat) : Bool :=
  let hub := s.isHub
  match i with
  | 0 => hub && decide (s.dpll.hist &&& s.dpll.histIe ≠ 0)
  | 1 => (List.range 8).any (fun m => decide ((s.mb m).state = 3) && (s.mb m).irqDone) || s.scriv.mbs.any (fun e => e.2.goErr)
  | 2 => decide (s.irqEvt ≠ 0)
  | 3 => s.ports.any (fun e => e.2.sticky)
  | 4 => s.tdc.ch.any (fun e => e.2.fifoOvf)
  | 5 => !hub && (s.docket.queues.any (fun e => e.2.pushFull || e.2.pushErr || e.2.failed) || s.docket.lnMerge || s.docket.frames.any (fun e => e.2.late))
  | 6 => !hub && (s.sync.sat || s.sync.err)
  | 7 => !hub && (s.sync.late || s.sync.split)
  | 8 => s.docket.pos.any (fun e => e.2.realign || e.2.merge)
  | 9 => !s.flt.notices.isEmpty
  | 10 => s.flt.noSpare || s.flt.poisonSeen || s.flt.dbFull
  | 11 => hub && s.sched.radioShort
  | 12 => hub && s.hm.hmWrap
  | 13 => hub && (s.jm.quotaCut || s.jm.ueSeen)
  | 14 => s.test.done || s.test.fail || s.test.packErr
  | 15 => s.pwr.groups.any (fun e => e.2.stretchHigh)
  | 16 => !hub && (s.pwr.timeout || s.pwr.conflict || s.pwr.overrun || s.pwr.unsolicited)
  | 17 => hub && (s.pair.failover || s.pair.lapsed || s.scriv.epochMismatch)
  | 18 => s.sec.peerFail
  | 19 => s.boot.fwFallback || s.boot.cfgFallback || s.boot.selfReset
  | 20 => decide (s.integStat / 2 ≠ 0)
  | _ => false

/-- The sources present in the role (Table 22.3). -/
def State.irqMask (s : State) : BitVec 21 := if s.isHub then 0x1EFF1F#21 else 0x1DC7FE#21

/-- DX_IRQ_PEND (R533): the sources pending. -/
def State.irqPend (s : State) : BitVec 21 :=
  (BitVec.ofNat 21 ((List.range 21).foldr (fun i acc => b2n (s.srcCond i) * 2 ^ i + acc) 0) ||| s.irq.force) &&& s.irqMask

/-- irq_op (R533). -/
def State.irqOp (s : State) : Bool := decide (s.irqPend &&& s.irq.en ≠ 0)

/-- irq_ctx[c] (R536). -/
def State.irqCtx (s : State) (c : Nat) : Bool :=
  !s.isHub && decide (1 ≤ c) && decide (c < 64) && decide ((s.slot c).irq &&& (s.slot c).irqEn ≠ 0)

end Sys2Proof.Machine
end

