-- ==== Sys2Proof/Machine/Regs.lean ====
section
/-! DEFINITION. The register window (chapter 22): where each register lies, who may use it, the value it reads, what a write does, and
the reads that latch shadows (R530 to R538). -/

set_option linter.unusedVariables false

namespace Sys2Proof.Machine

/-! ## Where registers lie (R530, Table 22.1) -/

/-- The registers of the window. A mailbox is `some m` for host mailbox m and `none` for the context page. -/
inductive Reg where
  | ident | version | config | idcode | pairId | place
  | htLo | htHi | htFrac | taiLo | taiHi | taiCtl | timeState
  | mbCmd (m : Option Nat) (w : Nat) | mbResp (m : Option Nat) (w : Nat) | mbCtrl (m : Option Nat) | mbStat (m : Option Nat)
  | scrivStat | scrivFw | scrivEcc | epochStat
  | window (page vid : Nat)
  | irqPend | irqEn | irqForce | irqEvt | irqOut | notice0 | notice1 | notice2 | irqLink (n : Nat) | irqCtx (c : Nat) | irqCtxEn (c : Nat)
  | dpllStatus | dpllHist | dpllHistIe | holdTime | refStatus (n : Nat) | refFreq (n : Nat) | fcwLo | fcwHi | phaseErr | ocxoTemp | modelStatus
  | tdc (k n : Nat) | ancCnt | ancHt
  | link (k p : Nat) | tsrc | tsrcSlope
  | dkPush (q w : Nat) | dkStat (q : Nat) | dkCtrl (q : Nat) | dkFail (q : Nat) | cmpFree | cmpReserve
  | flCtl (c : Nat) | flLo (c : Nat) | flHi (c : Nat) | po (k n : Nat)
  | syncStat | syncErr | syncErrCode | wait (w : Nat) | leafBar | hubBar
  | tally (k t : Nat)
  | collStart | collQuery | collState | collCode | collWin | collPanes | collOpen | collSpill
  | classStat | wfq (c : Nat) | shapeRate (c : Nat) | shapeBurst (c : Nat) | shapeTok (c : Nat) | hubClass
  | assayStat | assayFail | hmStat | hmSeqLo | hmSeqHi | hmOldest
  | faultStat | fenceLo | fenceHi | spareLo | spareHi | dbSeqLo | dbSeqHi | dbDropped | dbLast
  | jmStat | jmFree | jmRetired | jmScrub | jmErr (c : Nat) | jmCh (c : Nat)
  | testStat | packSlots
  | stretch (g : Nat) | pwrStat | pwrOn (n : Nat) | pmStat | pmReq (n : Nat) | pmAck (n : Nat) | ck (n : Nat)
  | lease | leaseEpoch | pairStat | hubEpoch | leaseConf | chordPhase
  | secStat | secStale | ctx (c : Nat) | bootStat | integStat
deriving DecidableEq, Repr

/-- A register alone at its offset. -/
def regIf (b : Bool) (r : Reg) : Option Reg := if b then some r else none

/-- The register of a mailbox at an offset in its page (Table 19.10). -/
def mbReg (m : Option Nat) (o : Nat) : Option Reg :=
  if o < 0x40 then some (.mbCmd m (o / 4))
  else if o < 0x80 then some (.mbResp m (o / 4 - 16))
  else if o = 0x80 then some (.mbCtrl m)
  else if o = 0x84 then some (.mbStat m)
  else none

/-- Offsets below 0x01_0000: identification, time, mailboxes, Scrivener. -/
def regAt0 (hub : Bool) (a : Nat) : Option Reg :=
  if 0x1000 ≤ a ∧ a < 0x1800 then mbReg (some ((a - 0x1000) / 256)) (a % 256)
  else if 0x1800 ≤ a ∧ a < 0x1900 then mbReg none (a % 256)
  else match a with
    | 0x0 => some .ident | 0x4 => some .version | 0x8 => some .config | 0xC => some .idcode | 0x10 => some .pairId | 0x14 => some .place
    | 0x100 => some .htLo | 0x104 => some .htHi | 0x108 => some .htFrac
    | 0x110 => some .taiLo | 0x114 => some .taiHi | 0x118 => some .taiCtl | 0x11C => some .timeState
    | 0x1900 => some .scrivStat | 0x1904 => some .scrivFw | 0x1908 => some .scrivEcc
    | 0x1A00 => regIf hub .epochStat
    | _ => none

/-- The words of DX_IRQ_LINKn that a configuration has (R534). -/
def irqLinkOk (c : BlockConfig) (n : Nat) : Bool :=
  match c with
  | .hub64 => decide (n ≤ 9)
  | .hub32 => decide (n ≤ 4) || n == 9
  | _ => n == 0

/-- Offsets from 0x02_0000 to 0x05_FFFF: interrupts, DPLL, TDC. -/
def regAt2 (p : Params) (a : Nat) : Option Reg :=
  if 0x20100 ≤ a ∧ a < 0x20128 then regIf (irqLinkOk p.config ((a - 0x20100) / 4)) (.irqLink ((a - 0x20100) / 4))
  else if 0x21010 ≤ a ∧ a < 0x21400 then
    (if a % 16 = 0 then regIf (!p.hub) (.irqCtx ((a - 0x21000) / 16))
     else if a % 16 = 4 then regIf (!p.hub) (.irqCtxEn ((a - 0x21000) / 16)) else none)
  else if 0x40010 ≤ a ∧ a < 0x40020 then regIf p.hub (.refStatus ((a - 0x40010) / 4))
  else if 0x40020 ≤ a ∧ a < 0x40030 then regIf p.hub (.refFreq ((a - 0x40020) / 4))
  else if 0x50000 ≤ a ∧ a < 0x50100 then some (.tdc (a % 32 / 4) ((a - 0x50000) / 32))
  else match a with
    | 0x20000 => some .irqPend | 0x20004 => some .irqEn | 0x20008 => some .irqForce | 0x2000C => some .irqEvt | 0x20010 => some .irqOut
    | 0x20040 => some .notice0 | 0x20044 => some .notice1 | 0x20048 => some .notice2
    | 0x40000 => regIf p.hub .dpllStatus | 0x40004 => regIf p.hub .dpllHist | 0x40008 => regIf p.hub .dpllHistIe | 0x4000C => regIf p.hub .holdTime
    | 0x40030 => regIf p.hub .fcwLo | 0x40034 => regIf p.hub .fcwHi | 0x40038 => regIf p.hub .phaseErr
    | 0x4003C => regIf p.hub .ocxoTemp | 0x40040 => regIf p.hub .modelStatus
    | 0x50100 => some .ancCnt | 0x50104 => some .ancHt
    | _ => none

/-- The registers of a Docket queue at an offset in its 64 bytes (R178). -/
def dkReg (q o : Nat) : Option Reg :=
  if o < 0x20 then some (.dkPush q (o / 4))
  else match o with
    | 0x20 => some (.dkStat q) | 0x24 => some (.dkCtrl q) | 0x28 => some (.dkFail q) | _ => none

/-- The registers of a frame channel at an offset in its 16 bytes (R178). -/
def flReg (c o : Nat) : Option Reg :=
  match o with
  | 0 => some (.flCtl c) | 4 => some (.flLo c) | 8 => some (.flHi c) | _ => none

/-- Offsets from 0x06_0000 to 0x08_FFFF: links, Docket, outputs, sync and barriers. -/
def regAt6 (p : Params) (a : Nat) : Option Reg :=
  if 0x60000 ≤ a ∧ a < 0x64A00 then regIf (p.hasPort ((a - 0x60000) / 64) && decide (a % 64 < 24)) (.link (a % 64 / 4) ((a - 0x60000) / 64))
  else if 0x70000 ≤ a ∧ a < 0x70400 then (if p.hub then none else dkReg ((a - 0x70000) / 64) (a % 64))
  else if 0x70600 ≤ a ∧ a < 0x70640 then (if p.hub then none else flReg ((a - 0x70600) / 16) (a % 16))
  else if 0x78000 ≤ a ∧ a < 0x78040 then some (.po (a % 16 / 4) ((a - 0x78000) / 16))
  else if 0x80100 ≤ a ∧ a < 0x80200 then regIf (!p.hub) (.wait ((a - 0x80100) / 4))
  else match a with
    | 0x68000 => regIf (!p.hub) .tsrc | 0x68004 => regIf (!p.hub) .tsrcSlope
    | 0x70400 => regIf (!p.hub) .cmpFree | 0x70404 => regIf (!p.hub) .cmpReserve
    | 0x80000 => regIf (!p.hub) .syncStat | 0x80004 => regIf (!p.hub) .syncErr | 0x80008 => regIf (!p.hub) .syncErrCode
    | 0x80200 => regIf (!p.hub) .leafBar | 0x88000 => regIf p.hub .hubBar
    | _ => none

/-- The context scheduling registers of a slot (R297). -/
def ctxReg (p : Params) (c o : Nat) : Option Reg :=
  if p.contexts ≤ c then none
  else match o with
    | 0 => some (.wfq c) | 4 => regIf (!p.hub) (.shapeRate c) | 8 => regIf (!p.hub) (.shapeBurst c) | _ => regIf (!p.hub) (.shapeTok c)

/-- Offsets from 0x09_0000 to 0x0D_FFFF: tiles, collectives, classes, Hallmarks, faults. -/
def regAt9 (p : Params) (a : Nat) : Option Reg :=
  if 0x90000 ≤ a ∧ a < 0x90300 then regIf (decide (a % 256 / 4 < p.tiles)) (.tally ((a - 0x90000) / 256) (a % 256 / 4))
  else if 0xB1000 ≤ a ∧ a < 0xB2000 then ctxReg p ((a - 0xB1000) / 16) (a % 16)
  else match a with
    | 0xA0000 => regIf (!p.hub) .collStart | 0xA0004 => regIf (!p.hub) .collQuery | 0xA0008 => regIf (!p.hub) .collState
    | 0xA000C => regIf (!p.hub) .collCode | 0xA0010 => regIf (!p.hub) .collWin
    | 0xA8000 => regIf p.hub .collPanes | 0xA8004 => regIf p.hub .collOpen | 0xA8008 => regIf p.hub .collSpill
    | 0xB0000 => some .classStat | 0xB8000 => regIf p.hub .hubClass
    | 0xC0000 => regIf (!p.hub) .assayStat | 0xC0004 => regIf (!p.hub) .assayFail
    | 0xC8000 => regIf p.hub .hmStat | 0xC8004 => regIf p.hub .hmSeqLo | 0xC8008 => regIf p.hub .hmSeqHi | 0xC800C => regIf p.hub .hmOldest
    | 0xD0000 => some .faultStat | 0xD0004 => some .fenceLo | 0xD0008 => some .fenceHi | 0xD000C => some .spareLo | 0xD0010 => some .spareHi
    | 0xD0014 => some .dbSeqLo | 0xD0018 => some .dbSeqHi | 0xD001C => some .dbDropped | 0xD0020 => some .dbLast
    | _ => none

/-- Offsets from 0x0E_0000: journal, test, power, pair, security, start-up, integration. -/
def regAtE (p : Params) (a : Nat) : Option Reg :=
  if 0xE8100 ≤ a ∧ a < 0xE81A0 then
    (let c := (a - 0xE8100) / 16
     if p.channels ≤ c then none else if a % 16 = 0 then some (.jmErr c) else if a % 16 = 4 then some (.jmCh c) else none)
  else if 0x100000 ≤ a ∧ a < 0x100100 then regIf (decide ((a - 0x100000) / 4 < p.groups)) (.stretch ((a - 0x100000) / 4))
  else if 0x100104 ≤ a ∧ a < 0x100110 then some (.pwrOn ((a - 0x100104) / 4))
  else if 0x108004 ≤ a ∧ a < 0x108010 then regIf (!p.hub) (.pmReq ((a - 0x108004) / 4))
  else if 0x108010 ≤ a ∧ a < 0x10801C then regIf (!p.hub) (.pmAck ((a - 0x108010) / 4))
  else if 0x108020 ≤ a ∧ a < 0x108034 then regIf (!p.hub) (.ck ((a - 0x108020) / 4))
  else if 0x121000 ≤ a ∧ a < 0x121400 then regIf (decide ((a - 0x121000) / 4 < p.contexts)) (.ctx ((a - 0x121000) / 4))
  else match a with
    | 0xE8000 => regIf p.hub .jmStat | 0xE8004 => regIf p.hub .jmFree | 0xE8008 => regIf p.hub .jmRetired | 0xE800C => regIf p.hub .jmScrub
    | 0xF0000 => some .testStat | 0xF0004 => some .packSlots
    | 0x100100 => some .pwrStat | 0x108000 => regIf (!p.hub) .pmStat
    | 0x110000 => regIf (!p.hub) .lease | 0x110004 => regIf (!p.hub) .leaseEpoch
    | 0x118000 => regIf p.hub .pairStat | 0x118004 => regIf p.hub .hubEpoch | 0x118008 => regIf p.hub .leaseConf | 0x11800C => regIf p.hub .chordPhase
    | 0x120000 => some .secStat | 0x120004 => some .secStale
    | 0x130000 => some .bootStat | 0x140000 => some .integStat
    | _ => none

/-- The register at an address: none for an unaligned address, a hole, a register of the other role, or an absent index (R507, R530). -/
def regAt (p : Params) (a : Nat) : Option Reg :=
  if a % 4 ≠ 0 then none
  else if a < 0x10000 then regAt0 p.hub a
  else if a < 0x20000 then regIf (!p.hub) (.window ((a - 0x10000) / 0x4000) (a % 0x4000 / 4))
  else if a < 0x60000 then regAt2 p a
  else if a < 0x90000 then regAt6 p a
  else if a < 0xE0000 then regAt9 p a
  else regAtE p a

/-! ## Who may use a register (R444, R531) -/

/-- The classes of R444; a per-context register names its owner, and one that acts for the accessing slot has no owner of its own. -/
inductive RegClass where
  | pub | op | own | slot (c : Nat)
deriving DecidableEq, Repr

/-- The class of a register (Table 22.1, R531). -/
def State.regClass (s : State) (r : Reg) : RegClass :=
  match r with
  | .ident => .pub | .version => .pub | .config => .pub | .idcode => .pub | .pairId => .pub | .place => .pub
  | .htLo => .pub | .htHi => .pub | .htFrac => .pub | .taiLo => .pub | .taiHi => .pub | .taiCtl => .pub | .timeState => .pub
  | .secStat => .pub
  | .mbCmd none _ => .own | .mbResp none _ => .own | .mbCtrl none => .own | .mbStat none => .own
  | .window _ _ => .own
  | .collStart => .own | .collQuery => .own | .collState => .own | .collCode => .own | .collWin => .own
  | .irqCtx c => .slot c | .irqCtxEn c => .slot c
  | .dkPush q _ => .slot (s.queue q).slot | .dkStat q => .slot (s.queue q).slot | .dkCtrl q => .slot (s.queue q).slot
  | .dkFail q => .slot (s.queue q).slot
  | .wait w => .slot (s.waiter w).slot
  | .wfq c => .slot c | .shapeRate c => .slot c | .shapeBurst c => .slot c | .shapeTok c => .slot c
  | .ctx c => .slot c
  | _ => .op

/-- Whether an access has the right to a register (R444). Accesses to registers that act for the accessing slot fail by their own
rules. -/
def State.regRight (s : State) (r : Reg) (access : Nat) : Bool :=
  match s.regClass r with
  | .pub => true
  | .op => access == 0
  | .own => true
  | .slot c => s.mayUse access c

/-! ## The value of a register -/

/-- Put fields, each a value and its lowest bit, into a word. -/
def fields (l : List (Nat × Nat)) : Word := BitVec.ofNat 32 (l.foldr (fun f acc => f.1 * 2 ^ f.2 + acc) 0)

/-- The word of flags of a list, lowest bit first. -/
def flags (l : List Bool) : Nat := l.foldr (fun b acc => b2n b + 2 * acc) 0

/-- Bits [32n + 31 : 32n] of a number. -/
def wordN (v n : Nat) : Word := BitVec.ofNat 32 (v / 2 ^ (32 * n))

/-- Word `w` of the response area (Table 19.3). -/
def respWord (l : List Byte) (w : Nat) : Word := BitVec.ofNat 32 (leNat ((l.drop (4 * w)).take 4))

/-- The key of an access's mailbox. -/
def mbKey (m : Option Nat) (access : Nat) : Nat := match m with | some k => k | none => 256 + access

/-- Identification, time and the Scrivener's registers (Tables 22.2, 2.2, 3.9, 19.10). -/
def State.regVal0 (s : State) (r : Reg) (access : Nat) : Word :=
  let tm := s.time
  let sc := s.scriv
  match r with
  | .ident => 0x594B5844
  | .version => 0x00030002
  | .config => BitVec.ofNat 32 s.params.dxConfig
  | .idcode => s.params.jtIdcode
  | .pairId => BitVec.ofNat 32 s.ownPair
  | .place =>
    if s.placeKnown then
      (if s.isHub then fields [(s.boot.cfg.tier, 0), (s.boot.cfg.pos, 2), (1, 3)] else fields [(1, 3), (s.boot.leafIndex, 4)])
    else 0
  | .htLo => BitVec.ofNat 32 s.htNs
  | .htHi => tm.shHi
  | .htFrac => tm.shFrac
  | .taiLo => BitVec.ofInt 32 tm.ofs
  | .taiHi => tm.shTaiHi
  | .taiCtl => tm.shTaiCtl
  | .timeState => fields [(tm.word.val, 0), (tm.changes, 16)]
  | .mbCmd m w => (s.mb (mbKey m access)).cmd.get 0 w
  | .mbResp m w => respWord (s.mb (mbKey m access)).resp w
  | .mbCtrl m => fields [(b2n (s.mb (mbKey m access)).go, 0)]
  | .mbStat m =>
    let b := s.mb (mbKey m access)
    fields [(b.state, 0), (b2n (b.state == 3), 2), (b2n b.goErr, 3), (b.code, 16)]
  | .scrivStat => fields [(b2n sc.restarting, 0), (b2n sc.act.isSome, 1), (s.runningMbs.length, 8), (sc.restarts, 16)]
  | .scrivFw => BitVec.ofNat 32 sc.fwVersion
  | .scrivEcc => fields [(sc.eccCorr, 0), (sc.guardTrips, 16)]
  | .epochStat => fields [(b2n sc.epochMismatch, 0), (sc.mismatches, 16)]
  | _ => 0

/-- The interrupt block (Table 22.4). -/
def State.regVal2 (s : State) (r : Reg) : Word :=
  match r with
  | .irqPend => s.irqPend.zeroExtend 32
  | .irqEn => s.irq.en.zeroExtend 32
  | .irqForce => s.irq.force.zeroExtend 32
  | .irqEvt => BitVec.ofNat 32 s.irqEvt
  | .irqOut => BitVec.ofNat 32 (b2n s.irqOp)
  | .notice0 => match s.flt.notices with | e :: _ => fields [(e.event, 0), (e.unit, 16)] | [] => 0
  | .notice1 => s.flt.shN1
  | .notice2 => s.flt.shN2
  | .irqLink n => BitVec.ofNat 32 ((List.range 32).foldr (fun j acc => b2n (s.port (32 * n + j)).sticky * 2 ^ j + acc) 0)
  | .irqCtx c => (s.slot c).irq.zeroExtend 32
  | .irqCtxEn c => (s.slot c).irqEn.zeroExtend 32
  | _ => 0

/-- The state of a reference (HB_REF_STATUSn, Table 3.9). WTR_LEFT rounds what is left up to whole seconds (DESIGN CHOICE, log 94). -/
def State.refStatus (s : State) (n : Nat) : Word :=
  let r := s.ref n
  let left : Nat := match r.wtrStart with
    | some t => (t + s.dpll.cfg.wtrS * 1000000000 - s.htNs + 999999999) / 1000000000
    | none => 0
  fields [(r.rank, 0), (s.prio n, 4), (b2n r.qualified, 8), (b2n ((pairsOf n).any (fun k => (s.dpll.disp.get {} k).marked)), 9), (b2n r.disq, 10),
    (b2n r.los, 11), (b2n (decide ((s.dpll.cfg.freqAccTenthPpm : Rat) * 100 < rabs r.y)), 12), (b2n r.wtrStart.isSome, 13), (b2n (phaseCarrying n), 14),
    (left % 65536, 16)]

/-- The DPLL registers (Table 3.9). The model's own choices (DESIGN CHOICE, log 94): ACTIVE_REF reads 0 while no reference is active; HB_PHASE_ERR
reads the error of the servo in use while UPLINK_INPUT is 1, and an error beyond 32 bits wraps. -/
def State.regVal4 (s : State) (r : Reg) : Word :=
  let d := s.dpll
  match r with
  | .dpllStatus => fields [(d.state.val, 0), (d.mode, 4), (d.active.getD 0, 8), (b2n d.active.isSome, 10), (b2n d.pull, 11), (b2n d.fslew, 12),
      (b2n d.usable, 13), (b2n d.trusted, 14), (b2n (!d.warmN), 15), (b2n d.uplinkInput, 16)]
  | .dpllHist => d.hist.zeroExtend 32
  | .dpllHistIe => d.histIe.zeroExtend 32
  | .holdTime => BitVec.ofNat 32 d.holdSeconds
  | .refStatus n => s.refStatus n
  | .refFreq n => sat32 (rround ((s.ref n).y * 65536))
  | .fcwLo => BitVec.ofInt 32 d.fcw
  | .fcwHi => d.shFcwHi
  | .phaseErr => BitVec.ofInt 32 (if d.uplinkInput then d.phaseErr else s.phaseErrOut)
  | .ocxoTemp => fields [(twos 16 (rround (s.tempC * 8)), 0), (b2n d.cfg.tempExternal, 16), (b2n (d.cfg.tempExternal && d.stale), 17)]
  | .modelStatus => fields [((s.binsNow d.bins).length, 0), (d.resid, 16), (b2n d.a1Fit, 24), (b2n d.b1Fit, 25), (b2n d.b2Fit, 26)]
  | _ => 0

/-- Register `k` of a TDC channel (Table 4.5). -/
def TdcCh.reg (t : TdcCh) (k : Nat) : Word :=
  match k with
  | 0 => fields [(b2n t.cfg.en, 0), (t.cfg.edge, 1), (b2n t.cfg.dither, 3), (t.cfg.hyst, 4), (t.cfg.holdoff, 8), (t.cfg.src, 16), (b2n t.cfg.raw, 20)]
  | 1 => BitVec.ofNat 32 t.cfg.div
  | 2 => BitVec.ofNat 32 t.cfg.gateMs
  | 3 => fields [(t.nstamp, 0), (b2n t.valid, 17), (b2n t.wrap, 18), (b2n t.cap, 19), (b2n t.few, 20), (b2n t.gap, 21), (b2n t.fifoOvf, 22),
      (b2n t.loop, 23), (t.gateSeq, 24)]
  | 4 => t.y
  | 5 => BitVec.ofInt 32 t.calOfs
  | 6 => match t.fifo with | e :: _ => BitVec.ofNat 32 (e.1 / 8) | [] => 0
  | _ => t.shHi

/-- Whether an open context encrypts payload on a port (R132): in a Leaf on both, in a Hub on the ports of its participants, on the up
ports of a context that reaches above this pair, and on the chord. -/
def State.encActive (s : State) (p : Nat) : Bool :=
  s.ctx.any (fun e => e.2.open_ && e.2.enc &&
    (!s.isHub || s.params.isChord p || (s.params.isDown p && e.2.ports.contains (s.portChild p)) || (s.params.isUp p && decide (s.tier < e.2.tier))))

/-- Register `k` of a port (Table 5.7). -/
def State.linkReg (s : State) (k p : Nat) : Word :=
  let o := s.port p
  match k with
  | 0 => fields [(flags [o.up, o.timeUsable, o.source, o.calibrated, o.suspect, o.rttStep, o.lostFrames, o.authFail, o.retryDown, o.peerMismatch,
      s.encActive p, o.plumbMismatch], 0), (o.downCnt, 16)]
  | 1 => BitVec.ofInt 32 o.rtt
  | 2 => BitVec.ofInt 32 o.asym
  | 3 => if s.params.isDown p then 0 else BitVec.ofInt 32 o.phase
  | 4 => fields [(o.fecCorr, 0), (o.fecUncorr, 16)]
  | _ => fields [(o.replays, 0), (o.authFails, 16)]

/-- The state that LF_DK_STATq shows: 0 Disabled, 1 Empty, 2 Waiting, 3 Armed, 4 Halted (R157, Table 6.9). -/
def DkQueue.stateNo (d : DkQueue) : Nat :=
  if d.owner.isNone then 0
  else if d.halted then 4
  else match d.entries with
    | [] => 1
    | e :: _ => if e.armed.isSome then 3 else 2

/-- Links' time source, Docket, outputs, sync and barriers (Tables 5.7, 6.9, 7.7). -/
def State.regVal6 (s : State) (r : Reg) : Word :=
  let y := s.sync
  match r with
  | .link k p => s.linkReg k p
  | .tsrc => fields [(match s.tsrc.source with | some p => p | none => 3, 0), (b2n (decide (s.tsrc.servo = .recovery)), 2), (b2n s.tsrc.criteria, 3),
      (s.tsrc.mode, 4), (s.tsrc.switches, 8)]
  | .tsrcSlope => fields [(s.tsrc.slope, 0), (s.tsrc.recSlope, 16)]
  | .dkStat q =>
    let d := s.queue q
    fields [(d.stateNo, 0), (b2n d.paired, 3), (b2n d.pushFull, 4), (b2n d.pushErr, 5), (b2n d.failed, 6), (d.entries.length, 8), (d.slot, 24)]
  | .dkFail q => fields [((s.queue q).failTag, 0), ((s.queue q).failCode, 16)]
  | .cmpFree => fields ((List.range 32).map (fun c => (b2n (decide (s.comp c = .free)), c)))
  | .cmpReserve => fields [(s.radioReserve, 0), (s.radioHeld, 8), (s.freeComps.length + b2n (decide (s.comp 0 = .free)), 16), (b2n s.docket.lnMerge, 31)]
  | .flCtl c => fields [((s.frame c).mode, 0), (b2n (s.frame c).armed.isSome, 2), (b2n (s.frame c).late, 3), ((s.frame c).tag, 16)]
  | .flLo c => (s.frame c).lo
  | .flHi c => (s.frame c).hi
  | .po 0 n =>
    let o := s.po n
    fields [(o.mode, 0), (b2n (!s.isHub), 2), (o.period, 3), (o.slot, 8), (b2n o.realign, 16), (b2n o.merge, 17)]
  | .po 1 n => BitVec.ofInt 32 (s.po n).offset
  | .po 2 n => BitVec.ofNat 32 (s.po n).width
  | .po _ n => if s.isHub then sat32 (s.time.ofs - (s.po n).align) else 0
  | .syncStat => fields [(s.freeWords, 0), (b2n y.sat, 17), (b2n y.err, 18), (b2n (s.ctx.any (fun e => e.2.clearing)), 19)]
  | .syncErr => fields [(y.errVid, 0), (y.errSlot, 12), (y.errSrc, 20)]
  | .syncErrCode => fields [(y.errCode, 0), (y.errCount, 16)]
  | .wait w =>
    let x := s.waiter w
    fields [(x.state, 0), (x.last, 2), (x.slot, 8), (x.vid, 16)]
  | .leafBar => fields [(y.rels.length, 0), (b2n y.late, 13), (b2n y.split, 14)]
  | .hubBar => fields [(s.hbarCount, 0), (y.completed % 65536, 16)]
  | _ => 0

/-- How many chunks of a Hub are in one of some states. -/
def State.chunkCount (s : State) (l : List ChunkState) : Nat := (s.coll.chunks.filter (fun c => l.any (fun x => decide (c.state = x)))).length

/-- Tiles, collectives, classes and Hallmarks (Tables 9.13, 10.10, 11.7, 12.9). -/
def State.regVal9 (s : State) (r : Reg) : Word :=
  match r with
  | .tally 0 t =>
    let x := s.tile t
    let held := (x.panes.filter (fun e => e.2.owner.isSome)).length
    fields [(if x.state = 1 ∧ held = 0 then 0 else x.state, 0), (b2n x.radio, 3), (held, 8)]
  | .tally 1 t => fields [((s.tile t).resFails % 65536, 0), ((s.tile t).sumFails % 65536, 16)]
  | .tally _ t => BitVec.ofNat 32 (s.tile t).holdClks
  | .collState => s.coll.qState
  | .collCode => s.coll.qCode
  | .collWin => s.coll.qWin
  | .collPanes => BitVec.ofNat 32 ((s.tilesIn.map (fun t => (s.freePanes t).length)).sum)
  | .collOpen => fields [(satN 65535 (s.chunkCount [.open_, .spilling, .draining, .replay, .gated]), 0), (satN 65535 (s.chunkCount [.spilled, .reloading]), 16)]
  | .collSpill => BitVec.ofNat 32 s.coll.spills
  | .classStat => fields [(s.sched.radioSlots, 0), (b2n s.sched.slotsPend.isSome, 5)]
  | .hubClass =>
    let free := (((List.range s.params.tiles).filter (fun t => (s.tile t).radio && s.inService t)).map (fun t => (s.freePanes t).length)).sum
    fields [(s.sched.radioTiles, 0), (b2n s.sched.tilesPend.isSome, 5), (b2n s.sched.radioShort, 6), (free, 8)]
  | .wfq c => BitVec.ofNat 32 (s.shapeOf c).weight
  | .shapeRate c => BitVec.ofNat 32 (s.shapeOf c).rate
  | .shapeBurst c => BitVec.ofNat 32 (s.shapeOf c).burst
  | .shapeTok c => fields [((s.shapeOf c).tokens80 / 80, 0), (b2n (s.backlogged c && !(s.shapeOf c).eligible), 25)]
  | .assayStat => fields [(s.hm.assay, 0), (s.hm.assaySlot, 8)]
  | .assayFail => BitVec.ofNat 32 s.hm.failEntry
  | .hmStat => fields [(s.hm.batch.length, 0), (b2n s.hm.hmWrap, 13), (b2n (!s.hm.shadows.isEmpty), 14)]
  | .hmSeqLo => BitVec.ofNat 32 (s.hm.nextSeq - 1)
  | .hmSeqHi => s.hm.shSeqHi
  | .hmOldest => BitVec.ofNat 32 (match s.hm.archive with | [] => 0 | b :: _ => b.seq)
  | _ => 0

/-- SEQ of the last record written to flash. -/
def State.lastDbSeq (s : State) : Nat := match s.flash.daybook.getLast? with | some d => d.seq | none => 0

/-- Faults, journal and structural test (Tables 13.11, 14.7, 15.7). -/
def State.regValD (s : State) (r : Reg) : Word :=
  let f := s.flt
  let sp := (List.range s.params.tiles).foldr (fun t acc => b2n (decide ((s.tile t).state = 2)) * 2 ^ t + acc) 0
  match r with
  | .faultStat => fields [(if s.isHub then s.spares else 0, 0), (popcount f.tilesMap s.params.tiles, 4), (b2n f.noSpare, 11), (b2n f.poisonSeen, 12),
      (b2n f.fenceBusy, 13), (b2n f.dbFull, 14)]
  | .fenceLo => wordN f.tilesMap 0
  | .fenceHi => wordN f.tilesMap 1
  | .spareLo => wordN sp 0
  | .spareHi => wordN sp 1
  | .dbSeqLo => BitVec.ofNat 32 s.lastDbSeq
  | .dbSeqHi => f.shDbHi
  | .dbDropped => BitVec.ofNat 32 f.dropped
  | .dbLast => fields [(f.lastEvent, 0), (f.lastUnit, 16)]
  | .jmStat => fields [(flags ((List.range s.params.channels).map (fun c => (s.chan c).trained && !(s.chan c).failed)), 0), (b2n s.jm.ready, 10),
      (b2n s.jm.fail, 11), (b2n s.jm.quotaCut, 12), (b2n s.jm.ueSeen, 13)]
  | .jmFree => BitVec.ofNat 32 (if s.jm.ready then s.freePages' else 0)
  | .jmRetired => fields [(s.jm.retired.length, 0), (s.jm.banks.length, 17)]
  | .jmScrub => fields [(s.jm.scrubHours, 0), (s.jm.passes % 2 ^ 24, 8)]
  | .jmErr c => fields [((s.chan c).corr % 65536, 0), ((s.chan c).uncorr % 65536, 16)]
  | .jmCh c => fields [((s.chan c).mark.getD 0, 0), (b2n (s.chan c).mark.isSome, 5), (b2n (s.chan c).failed, 6)]
  | .testStat => fields [(s.test.runs.length, 0), (b2n s.test.done, 3), (b2n s.test.fail, 4), (b2n s.test.packErr, 5), (s.test.lastUnit, 16)]
  | .packSlots => fields [(flags ((List.range 16).map (fun i => (s.packAt i).isSome)), 0), (flags ((List.range 16).map s.packBusy), 16)]
  | _ => 0

/-- Power, pair, security, start-up and integration (Tables 16.12, 17.6, 18.9, 20.9, 21.15). -/
def State.regValP (s : State) (r : Reg) : Word :=
  let w := s.pwr
  let on := (List.range 80).map (fun d => (s.dom d).on)
  match r with
  | .stretch g =>
    let x := s.grp g
    let sync := w.syncPend.isSome
    fields [(x.freq, 0), (b2n x.stopped, 2), (b2n (x.pend.isSome || sync), 3), (x.margin, 4), (b2n x.stretchHigh, 7), (x.stretches % 2 ^ 24, 8)]
  | .pwrStat => fields [((on.filter (fun b => b)).length, 0), (b2n (w.doms.any (fun e => e.2.turningOn || e.2.turningOff)), 7)]
  | .pwrOn n => wordN (flags on) n
  | .pmStat => fields [(b2n w.run.isSome, 0), (w.waiting.length, 1), (b2n w.timeout, 4), (b2n w.conflict, 5), (b2n w.overrun, 6), (b2n w.unsolicited, 7),
      (b2n w.plan.isSome, 8), (w.lastStep, 16)]
  | .pmReq n => wordN w.pmReq.toNat n
  | .pmAck n => wordN w.pmAck.toNat n
  | .ck n => wordN w.ckCtl.toNat n
  | .lease => fields [(s.pair.gPos, 0), (b2n (s.pair.gEpoch == 0), 1), (b2n (s.pair.gEpoch != 0 && s.grantStale), 2)]
  | .leaseEpoch => BitVec.ofNat 32 s.pair.gEpoch
  | .pairStat => fields [(s.pair.role.val, 0), (s.boot.cfg.pos, 3), (b2n s.pair.solo, 4), (b2n s.pair.chordLost, 5), (b2n s.pair.failover, 6), (b2n s.pair.lapsed, 7),
      (flags ((List.range 8).map (fun n => (s.port (288 + n)).up)), 8), (s.pair.failovers % 65536, 16)]
  | .hubEpoch => BitVec.ofNat 32 s.pair.epoch
  | .leaseConf => fields [(match s.pair.confs.getLast? with | some c => c.2.length | none => 0, 0), (if s.boot.cfgValid then s.quorum else 0, 9)]
  | .chordPhase => if s.isPrimary then 0 else BitVec.ofInt 32 s.pair.chordPhase
  | .secStat => fields [(flags [s.sec.keysValid, s.sec.enrolled, s.sec.ownerValid, s.sec.tapLocked, s.sec.unlocked, s.sec.peerFail], 0), (s.scriv.fwSvn, 16)]
  | .secStale => BitVec.ofNat 32 s.sec.stale
  | .ctx c =>
    let x := s.slot c
    fields [(x.lastGen, 0), (flags [x.open_, x.clearing, x.resetting, x.tenantKeyed, x.enc, x.radio], 16), (x.term, 22)]
  | .bootStat =>
    let b := s.flash.boot
    let fw := decide (2 ≤ s.boot.stage)
    fields [(s.boot.stage, 0), (if fw then b.fwActive else 0, 4), (if s.boot.cfgValid then b.cfgActive else 0, 5), (b2n s.boot.fwFallback, 6),
      (b2n s.boot.cfgFallback, 7), (b2n (fw && b.trial), 8), (if fw then b.trialRestarts else 0, 9), (b2n s.boot.soloLoad, 11), (b2n s.boot.selfReset, 12)]
  | .integStat => BitVec.ofNat 32 s.integStat
  | _ => 0

/-- The value that a register reads for an access with the right to it; no write-only register reads anything but 0 (Table 0.4). -/
def State.regVal (s : State) (r : Reg) (access : Nat) : Word :=
  s.regVal0 r access ||| s.regVal2 r ||| s.regVal4 r ||| s.regVal6 r ||| s.regVal9 r ||| s.regValD r ||| s.regValP r |||
  (match r with
   | .tdc k n => (s.tdcCh n).reg k
   | .ancCnt => s.tdc.ancCnt
   | .ancHt => s.tdc.ancHt
   | .window _ vid => s.word (s.tr access vid).phys
   | _ => 0)

/-- Whether a read by its own rule fails: a mailbox that the access does not reach (R457), the sync window (R181), the query shadows
of another slot (R537). -/
def State.readFails (s : State) (r : Reg) (access : Nat) : Bool :=
  let mbx (m : Option Nat) : Bool := (s.mailboxAt m access).isNone
  let q : Bool := (access != 0 && (s.slot access).clearing) || (match s.coll.qSlot with | some c => c != access | none => false)
  match r with
  | .mbCmd m _ => mbx m | .mbResp m _ => mbx m | .mbCtrl m => mbx m | .mbStat m => mbx m
  | .window _ vid => (s.syncRefusal access vid).isSome
  | .collState => q | .collCode => q | .collWin => q
  | _ => false

/-- What a read of an address returns, with the error response (R444, R507, R530): 0 with an error where the access has no right or
nothing lies there. The reads that also change the state have rows of their own. -/
def State.regRead (s : State) (a access : Nat) : Word × Bool :=
  match regAt s.params a with
  | none => (0, true)
  | some r => if s.regRight r access && !s.readFails r access then (s.regVal r access, false) else (0, true)

/-! ## Reads that latch (R537, Table 22.5) -/

/-- R43: a read of DX_HT_LO. -/
def execHtLoRead (s : State) : Out :=
  let hi : Word := BitVec.ofNat 32 (s.htNs / 2 ^ 32)
  let fr : Word := fields [(s.time.ht48 / 2 ^ 32 % 65536, 0), (b2n s.time.valid, 16), (b2n s.time.slew, 17), (s.time.stepCnt % 256, 24)]
  .next ({ s with time := { s.time with shHi := hi, shFrac := fr } }.answer (BitVec.ofNat 32 s.htNs) false)

/-- Table 2.2: a read of DX_TAI_OFS_LO. -/
def execTaiOfsLoRead (s : State) : Out :=
  let hi : Word := BitVec.ofInt 32 (s.time.ofs / 2 ^ 32)
  let c : Word := fields [(s.time.utc, 0), (s.time.leap, 8), (b2n s.time.taiValid, 10), (b2n s.time.pend.isSome, 11), (s.time.seq % 65536, 16)]
  .next ({ s with time := { s.time with shTaiHi := hi, shTaiCtl := c } }.answer (BitVec.ofInt 32 s.time.ofs) false)

/-- Table 3.9: a read of HB_DPLL_FCW_LO latches FCW bits [47:32], sign-extended. -/
def execFcwLoRead (access : Nat) (s : State) : Out :=
  if !s.isHub || access != 0 then .next (s.answer 0 true)
  else .next ({ s with dpll := { s.dpll with shFcwHi := BitVec.ofInt 32 (s.dpll.fcw / 2 ^ 32) } }.answer (BitVec.ofInt 32 s.dpll.fcw) false)

/-- Table 4.5: a read of DX_TDC_STAMP_LOn removes the oldest raw stamp and latches FINE, WRAPS, EMPTY and LEVEL. -/
def execTdcStampLoRead (ch access : Nat) (s : State) : Out :=
  if 8 ≤ ch ∨ access ≠ 0 then .next (s.answer 0 true)
  else
    match (s.tdcCh ch).fifo with
    | [] => .next ((s.modTdc ch (fun t => { t with shHi := fields [(1, 7)] })).answer 0 false)
    | (st, w) :: r =>
      .next ((s.modTdc ch (fun t => { t with fifo := r, shHi := fields [(st % 8, 0), (w, 3), (r.length, 8)] })).answer (BitVec.ofNat 32 (st / 8)) false)

/-- Table 12.9: a read of HB_HM_SEQ_LO. -/
def execHmSeqLoRead (access : Nat) (s : State) : Out :=
  if !s.isHub || access != 0 then .next (s.answer 0 true)
  else .next ({ s with hm := { s.hm with shSeqHi := BitVec.ofNat 32 ((s.hm.nextSeq - 1) / 2 ^ 32) } }.answer (BitVec.ofNat 32 (s.hm.nextSeq - 1)) false)

/-- Table 13.11: a read of DX_DB_SEQ_LO. -/
def execDbSeqLoRead (access : Nat) (s : State) : Out :=
  if access ≠ 0 then .next (s.answer 0 true)
  else .next ({ s with flt := { s.flt with shDbHi := BitVec.ofNat 32 (s.lastDbSeq / 2 ^ 32) } }.answer (BitVec.ofNat 32 s.lastDbSeq) false)

/-- R535, Table 22.6: a read of DX_NOTICE0 removes the oldest notice; of an empty queue it returns 0 and latches EMPTY. -/
def execNoticeRead (access : Nat) (s : State) : Out :=
  if access ≠ 0 then .next (s.answer 0 true)
  else
    match s.flt.notices with
    | [] => .next ({ s with flt := { s.flt with shN1 := fields [(1, 10)], shN2 := 0 } }.answer 0 false)
    | e :: r =>
      let n1 : Word := fields [(if e.self then 0 else e.port, 0), (b2n e.self, 9), (r.length, 11)]
      .next ({ s with flt := { s.flt with notices := r, shN1 := n1, shN2 := BitVec.ofNat 32 e.seqLo } }.answer
        (fields [(e.event, 0), (e.unit, 16)]) false)

/-! ## Writes (R507, Table 0.4) -/

/-- A W1C bit after a write: a 1 in bit `i` clears it. -/
def w1c (v : Word) (i : Nat) (b : Bool) : Bool := b && !v.getLsbD i

/-- The sticky bits of a port after a write of DX_LINK_STATUSp. -/
def PortSt.clear (o : PortSt) (v : Word) : PortSt :=
  { o with rttStep := w1c v 5 o.rttStep, lostFrames := w1c v 6 o.lostFrames, authFail := w1c v 7 o.authFail
           retryDown := w1c v 8 o.retryDown, peerMismatch := w1c v 9 o.peerMismatch, plumbMismatch := w1c v 11 o.plumbMismatch }

/-- A write of a register of the interrupt block, the DPLL, the TDC or a port. -/
def State.putA (s : State) (r : Reg) (v : Word) : State :=
  match r with
  | .irqEn => { s with irq := { s.irq with en := v.setWidth 21 &&& s.irqMask } }
  | .irqForce => { s with irq := { s.irq with force := v.setWidth 21 &&& s.irqMask } }
  | .irqEvt =>
    { s with
      irq := { s.irq with timeChg := w1c v 0 s.irq.timeChg, taiApplied := w1c v 1 s.irq.taiApplied, htStep := w1c v 2 s.irq.htStep
                          scrivRestart := w1c v 4 s.irq.scrivRestart }
      flt := { s.flt with noticeOvf := w1c v 3 s.flt.noticeOvf } }
  | .irqCtx c => s.modSlot c (fun x => { x with irq := x.irq &&& ~~~(v.setWidth 6) })
  | .irqCtxEn c => s.modSlot c (fun x => { x with irqEn := v.setWidth 6 })
  | .dpllHist => { s with dpll := { s.dpll with hist := s.dpll.hist &&& ~~~(v.setWidth 22) } }
  | .dpllHistIe => { s with dpll := { s.dpll with histIe := v.setWidth 22 } }
  | .tdc 3 n => s.modTdc n (fun t => { t with fifoOvf := w1c v 22 t.fifoOvf })
  | .link 0 p => s.modPort p (fun o => o.clear v)
  | _ => s

/-- A write of a register of chapters 6, 7, 11, 12 and 13. -/
def State.putB (s : State) (r : Reg) (v : Word) : State :=
  match r with
  | .dkStat q => s.modQueue q (fun d => { d with pushFull := w1c v 4 d.pushFull, pushErr := w1c v 5 d.pushErr, failed := w1c v 6 d.failed })
  | .cmpReserve => { s with docket := { s.docket with lnMerge := w1c v 31 s.docket.lnMerge } }
  | .flCtl c => s.modFrame c (fun f => { f with late := w1c v 3 f.late, tag := v.toNat / 65536 })
  | .flLo c => s.modFrame c (fun f => { f with lo := v })
  | .po 0 n => s.modPo n (fun o => { o with realign := w1c v 16 o.realign, merge := w1c v 17 o.merge })
  | .syncStat =>
    let e := w1c v 18 s.sync.err
    { s with sync := { s.sync with sat := w1c v 17 s.sync.sat, err := e, errCount := if e then s.sync.errCount else 0 } }
  | .leafBar => { s with sync := { s.sync with late := w1c v 13 s.sync.late, split := w1c v 14 s.sync.split } }
  | .hubClass => { s with sched := { s.sched with radioShort := w1c v 6 s.sched.radioShort } }
  | .hmStat => { s with hm := { s.hm with hmWrap := w1c v 13 s.hm.hmWrap } }
  | .faultStat => { s with flt := { s.flt with noSpare := w1c v 11 s.flt.noSpare, poisonSeen := w1c v 12 s.flt.poisonSeen, dbFull := w1c v 14 s.flt.dbFull } }
  | _ => s

/-- A write of a register of chapters 14 to 21. -/
def State.putC (s : State) (r : Reg) (v : Word) : State :=
  match r with
  | .jmStat => { s with jm := { s.jm with quotaCut := w1c v 12 s.jm.quotaCut, ueSeen := w1c v 13 s.jm.ueSeen } }
  | .testStat => { s with test := { s.test with done := w1c v 3 s.test.done, fail := w1c v 4 s.test.fail, packErr := w1c v 5 s.test.packErr } }
  | .stretch g => s.modGrp g (fun x => { x with stretchHigh := w1c v 7 x.stretchHigh })
  | .pmStat => { s with pwr := { s.pwr with timeout := w1c v 4 s.pwr.timeout, conflict := w1c v 5 s.pwr.conflict, overrun := w1c v 6 s.pwr.overrun
                                            unsolicited := w1c v 7 s.pwr.unsolicited } }
  | .pairStat => { s with pair := { s.pair with failover := w1c v 6 s.pair.failover, lapsed := w1c v 7 s.pair.lapsed } }
  | .secStat => { s with sec := { s.sec with peerFail := w1c v 5 s.sec.peerFail } }
  | .epochStat => { s with scriv := { s.scriv with epochMismatch := w1c v 0 s.scriv.epochMismatch } }
  | .bootStat => { s with boot := { s.boot with fwFallback := w1c v 6 s.boot.fwFallback, cfgFallback := w1c v 7 s.boot.cfgFallback
                                                selfReset := w1c v 12 s.boot.selfReset } }
  | .integStat =>
    { s with irq := { s.irq with
      synUnlock := w1c v 1 s.irq.synUnlock, ocxoLoss := w1c v 2 s.irq.ocxoLoss, phyDown := w1c v 3 s.irq.phyDown
      evOvf := s.irq.evOvf &&& ~~~((v >>> 4).setWidth 4), rdErr := w1c v 8 s.irq.rdErr, wrErr := w1c v 9 s.irq.wrErr
      fbPoison := w1c v 10 s.irq.fbPoison, flashErr := w1c v 11 s.irq.flashErr } }
  | _ => s

/-- The effect of one state after another, for the writes that set several bits with rows of their own. -/
def thenDo (o : Out) (f : State → Out) : Out := match o with | .next s => f s | x => x

/-- A write of DX_MBm_CTRL: GO, then ABORT (R458); of DX_MBm_STAT: GO_ERR, then DONE. -/
def State.putMb (s : State) (m : Option Nat) (w : Nat) (stat : Bool) (v : Word) (access : Nat) : Out :=
  match s.mailboxAt m access with
  | none => .next (s.answer 0 true)
  | some k =>
    if stat then
      let s1 := (s.modMb k (fun b => { b with goErr := w1c v 3 b.goErr })).answer 0 false
      if v.getLsbD 2 then execMailboxDoneClear m access s1 else .next s1
    else
      let o : Out := if v.getLsbD 0 then execMailboxGo m access s else .next (s.answer 0 false)
      if v.getLsbD 1 then thenDo o (execMailboxAbort m access) else o

/-- The writes of a register that has a row of its own, or a rule of its own: the mailboxes, the sync window, the Docket, frame strikes,
waiters and collectives. `none` for any other register. -/
def State.putOwn (s : State) (r : Reg) (v : Word) (access : Nat) : Option Out :=
  let ok : Out := .next (s.answer 0 false)
  match r with
  | .mbCmd m w => some (match s.mailboxAt m access with
    | none => .next (s.answer 0 true)
    | some k => if (s.mb k).state = 0 then .next ((s.modMb k (fun b => { b with cmd := b.cmd.set 0 w v })).answer 0 false) else .next (s.answer 0 true))
  | .mbResp m _ => some (if (s.mailboxAt m access).isNone then .next (s.answer 0 true) else ok)
  | .mbCtrl m => some (s.putMb m 0 false v access)
  | .mbStat m => some (s.putMb m 0 true v access)
  | .window page vid => some (match page with
    | 0 => execSyncSet access vid v s
    | 1 => execSyncAdd access vid v s
    | 2 => execSyncSubtract access vid v s
    | _ => .next (s.windowFail access vid ((s.syncRefusal access vid).getD .range)))
  | .dkPush q w => some (if w = 7 then execDocketPushCommit q v access s else execDocketPushWord q w v access s)
  | .dkCtrl q => some (if !v.getLsbD 0 && !v.getLsbD 1 then ok
    else
      let o : Out := if v.getLsbD 0 then execDocketFlush q access s else ok
      if v.getLsbD 1 then thenDo o (execDocketResume q access) else o)
  | .flHi c => some (execFrameStrikeArm c v access s)
  | .wait w => some (if v.getLsbD 31 then execWaitCancel w access s else ok)
  | .collStart => some (execCollStart access v s)
  | .collQuery => some (execCollQuery access v s)
  | _ => none

/-- R507, R444, R530: a write to a register. W1C bits clear, RW fields take the value, RO ones ignore it; an access without the right or
an address that names no register gets the error response. -/
def execRegisterWrite (addr : Nat) (v : Word) (access : Nat) (s : State) : Out :=
  match regAt s.params addr with
  | none => .next (s.answer 0 true)
  | some r =>
    if !s.regRight r access then .next (s.answer 0 true)
    else
      match s.putOwn r v access with
      | some o => o
      | none => .next ((((s.putA r v).putB r v).putC r v).answer 0 false)

/-! ## External stamps (R511) -/

/-- R511: a rising edge of ht_ev[c] is stamped with bits [47:16] of HT, unless it comes less than 64 ns after the previous stamped one. -/
def execHtEvEdge (c : Nat) (s : State) : Out :=
  if 4 ≤ c then .next s
  else
    let e := s.time.ev.get {} c
    let near := match e.last with | some t => decide (s.htNs < t + 64) | none => false
    if near then .next { s with irq := { s.irq with evOvf := s.irq.evOvf ||| (1#4 <<< c) } }
    else .next { s with time := { s.time with ev := s.time.ev.set {} c { stamp := BitVec.ofNat 32 s.htNs, tgl := !e.tgl, last := some s.htNs } } }

end Sys2Proof.Machine
end

