-- ==== Sys2Proof/Machine/Dispatch.lean ====
section
/-! DEFINITION. The meaning of every command, one arm per row of the table. -/

namespace Sys2Proof.Machine

def exec (i : Instr) (s : State) : Host.Outcome State Fault Refusal :=
  match i with
  | .powerOnReset => Sys2Proof.Machine.execPowerOnReset s
  | .blockReset => Sys2Proof.Machine.execBlockReset s
  | .startUp pufOk journalOk badChannels => Sys2Proof.Machine.execStartUp pufOk journalOk badChannels s
  | .soloStartTimeout => Sys2Proof.Machine.execSoloStartTimeout s
  | .fwTrialClear => Sys2Proof.Machine.execFwTrialClear s
  | .htCheckpoint => Sys2Proof.Machine.execHtCheckpoint s
  | .synLockFall => Sys2Proof.Machine.execSynLockFall s
  | .synLockRestored => Sys2Proof.Machine.execSynLockRestored s
  | .ocxoLoss => Sys2Proof.Machine.execOcxoLoss s
  | .ocxoWarmChange level => Sys2Proof.Machine.execOcxoWarmChange level s
  | .ocxoSettleExpiry => Sys2Proof.Machine.execOcxoSettleExpiry s
  | .refLoss n => Sys2Proof.Machine.execRefLoss n s
  | .xsStatusMessage bytes => Sys2Proof.Machine.execXsStatusMessage bytes s
  | .statusMessageTimeout => Sys2Proof.Machine.execStatusMessageTimeout s
  | .qlTimeout n => Sys2Proof.Machine.execQlTimeout n s
  | .tempTimeout => Sys2Proof.Machine.execTempTimeout s
  | .waitToRestoreExpiry n => Sys2Proof.Machine.execWaitToRestoreExpiry n s
  | .disputeClear n m => Sys2Proof.Machine.execDisputeClear n m s
  | .lockCriteriaMet => Sys2Proof.Machine.execLockCriteriaMet s
  | .unlockCriteriaMet => Sys2Proof.Machine.execUnlockCriteriaMet s
  | .learningBinEnd meanTemp => Sys2Proof.Machine.execLearningBinEnd meanTemp s
  | .modelFlashWrite => Sys2Proof.Machine.execModelFlashWrite s
  | .holdoverLimitExpiry => Sys2Proof.Machine.execHoldoverLimitExpiry s
  | .openLoopTimeout => Sys2Proof.Machine.execOpenLoopTimeout s
  | .cmdTaiMap h ofs utc leap eff => Sys2Proof.Machine.execCmdTaiMap h ofs utc leap eff s
  | .taiMapApply => Sys2Proof.Machine.execTaiMapApply s
  | .taiMapReceive l m => Sys2Proof.Machine.execTaiMapReceive l m s
  | .cmdRefConfig h c => Sys2Proof.Machine.execCmdRefConfig h c s
  | .cmdRefReport h r => Sys2Proof.Machine.execCmdRefReport h r s
  | .cmdDpllMode h mode ref => Sys2Proof.Machine.execCmdDpllMode h mode ref s
  | .cmdDpllFcw h fcw status => Sys2Proof.Machine.execCmdDpllFcw h fcw status s
  | .holdoverModelRead h => Sys2Proof.Machine.execHoldoverModelRead h s
  | .holdoverModelLoad h m => Sys2Proof.Machine.execHoldoverModelLoad h m s
  | .holdoverModelClear h => Sys2Proof.Machine.execHoldoverModelClear h s
  | .holdoverModelFreeze h => Sys2Proof.Machine.execHoldoverModelFreeze h s
  | .holdoverModelResume h => Sys2Proof.Machine.execHoldoverModelResume h s
  | .tdcEdgeAccept ch rising held stamp => Sys2Proof.Machine.execTdcEdgeAccept ch rising held stamp s
  | .holdoffEnd ch level => Sys2Proof.Machine.execHoldoffEnd ch level s
  | .tdcGateEnd ch => Sys2Proof.Machine.execTdcGateEnd ch s
  | .tdcAnchorLatch => Sys2Proof.Machine.execTdcAnchorLatch s
  | .cmdTdcConfig h ch c => Sys2Proof.Machine.execCmdTdcConfig h ch c s
  | .cmdTdcCal h ch po path count => Sys2Proof.Machine.execCmdTdcCal h ch po path count s
  | .tdcCalComplete => Sys2Proof.Machine.execTdcCalComplete s
  | .plumbMeasure h a => Sys2Proof.Machine.execPlumbMeasure h a s
  | .plumbComplete => Sys2Proof.Machine.execPlumbComplete s
  | .plumbLoad h port a => Sys2Proof.Machine.execPlumbLoad h port a s
  | .plumbRead h port => Sys2Proof.Machine.execPlumbRead h port s
  | .plumbClearSuspect h port => Sys2Proof.Machine.execPlumbClearSuspect h port s
  | .cmdTsrcConfig h mode slope recSlope => Sys2Proof.Machine.execCmdTsrcConfig h mode slope recSlope s
  | .cmdHtStep h load value eff => Sys2Proof.Machine.execCmdHtStep h load value eff s
  | .htStepApply => Sys2Proof.Machine.execHtStepApply s
  | .htStepArmingDeadline => Sys2Proof.Machine.execHtStepArmingDeadline s
  | .portBringUpStart p => Sys2Proof.Machine.execPortBringUpStart p s
  | .bringUpFlitReceive p ident => Sys2Proof.Machine.execBringUpFlitReceive p ident s
  | .keyExchangeStart p => Sys2Proof.Machine.execKeyExchangeStart p s
  | .keyExchangeReceive p x peerPassed => Sys2Proof.Machine.execKeyExchangeReceive p x peerPassed s
  | .phyDown p => Sys2Proof.Machine.execPhyDown p s
  | .timingFlitSend p k => Sys2Proof.Machine.execTimingFlitSend p k s
  | .timingFlitReceive l b sample n k => Sys2Proof.Machine.execTimingFlitReceive l b sample n k s
  | .controlFlitReceive l slot gen body => Sys2Proof.Machine.execControlFlitReceive l slot gen body s
  | .corruptFlitReceive p raw codewordOk tagOk corr => Sys2Proof.Machine.execCorruptFlitReceive p raw codewordOk tagOk corr s
  | .portNoFlitTimeout p => Sys2Proof.Machine.execPortNoFlitTimeout p s
  | .portTimingLoss p => Sys2Proof.Machine.execPortTimingLoss p s
  | .servoUpdate => Sys2Proof.Machine.execServoUpdate s
  | .rttEstimateUpdate p => Sys2Proof.Machine.execRttEstimateUpdate p s
  | .docketPushWord q w v access => Sys2Proof.Machine.execDocketPushWord q w v access s
  | .docketPushCommit q v access => Sys2Proof.Machine.execDocketPushCommit q v access s
  | .docketEntryReady q => Sys2Proof.Machine.execDocketEntryReady q s
  | .docketStrike q => Sys2Proof.Machine.execDocketStrike q s
  | .docketFlush q access => Sys2Proof.Machine.execDocketFlush q access s
  | .docketResume q access => Sys2Proof.Machine.execDocketResume q access s
  | .docketBind h q o paired => Sys2Proof.Machine.execDocketBind h q o paired s
  | .docketLoad h q o entries count replace => Sys2Proof.Machine.execDocketLoad h q o entries count replace s
  | .docketUnbind h q o => Sys2Proof.Machine.execDocketUnbind h q o s
  | .frameStrikeArm c v access => Sys2Proof.Machine.execFrameStrikeArm c v access s
  | .frameDirectStrike c => Sys2Proof.Machine.execFrameDirectStrike c s
  | .pulseEdge n => Sys2Proof.Machine.execPulseEdge n s
  | .pulseWidthEnd n => Sys2Proof.Machine.execPulseWidthEnd n s
  | .cmdPulseConfig h a => Sys2Proof.Machine.execCmdPulseConfig h a s
  | .cmdPulseAlign h mask eff => Sys2Proof.Machine.execCmdPulseAlign h mask eff s
  | .pulseAlignApply n => Sys2Proof.Machine.execPulseAlignApply n s
  | .syncSet ctx vid v => Sys2Proof.Machine.execSyncSet ctx vid v s
  | .syncAdd ctx vid v => Sys2Proof.Machine.execSyncAdd ctx vid v s
  | .syncSubtract ctx vid v => Sys2Proof.Machine.execSyncSubtract ctx vid v s
  | .syncReadIncrement page ctx vid => Sys2Proof.Machine.execSyncReadIncrement page ctx vid s
  | .syncUpdateApply phys => Sys2Proof.Machine.execSyncUpdateApply phys s
  | .waitRequest r => Sys2Proof.Machine.execWaitRequest r s
  | .waitTimeout w => Sys2Proof.Machine.execWaitTimeout w s
  | .waitCancel w access => Sys2Proof.Machine.execWaitCancel w access s
  | .syncMap h first count counter saturate => Sys2Proof.Machine.execSyncMap h first count counter saturate s
  | .syncUnmap h first count => Sys2Proof.Machine.execSyncUnmap h first count s
  | .syncMapRead h first count => Sys2Proof.Machine.execSyncMapRead h first count s
  | .syncSetMode h first count counter saturate => Sys2Proof.Machine.execSyncSetMode h first count counter saturate s
  | .syncPairDefine h producer consumer n => Sys2Proof.Machine.execSyncPairDefine h producer consumer n s
  | .syncPairDelete h producer consumer => Sys2Proof.Machine.execSyncPairDelete h producer consumer s
  | .contextClear slot => Sys2Proof.Machine.execContextClear slot s
  | .contextClearComplete slot => Sys2Proof.Machine.execContextClearComplete slot s
  | .paneClearAfterTeardown tile pane => Sys2Proof.Machine.execPaneClearAfterTeardown tile pane s
  | .slotResetComplete slot => Sys2Proof.Machine.execSlotResetComplete slot s
  | .cmdBarrierDefine h d => Sys2Proof.Machine.execCmdBarrierDefine h d s
  | .cmdBarrierDelete h id => Sys2Proof.Machine.execCmdBarrierDelete h id s
  | .barrierArrivalReceive l slot gen id inst pairD => Sys2Proof.Machine.execBarrierArrivalReceive l slot gen id inst pairD s
  | .barrierReleaseReceive l slot gen id inst strike => Sys2Proof.Machine.execBarrierReleaseReceive l slot gen id inst strike s
  | .barrierReleaseFire => Sys2Proof.Machine.execBarrierReleaseFire s
  | .collPlanOpen h addr desc w => Sys2Proof.Machine.execCollPlanOpen h addr desc w s
  | .collPlanClose h handle => Sys2Proof.Machine.execCollPlanClose h handle s
  | .cmdCollBind h handle src => Sys2Proof.Machine.execCmdCollBind h handle src s
  | .collStart ctx v => Sys2Proof.Machine.execCollStart ctx v s
  | .collQuery ctx v => Sys2Proof.Machine.execCollQuery ctx v s
  | .chunkSend slot handle chunk => Sys2Proof.Machine.execChunkSend slot handle chunk s
  | .contributionFlitReceive l k d fail => Sys2Proof.Machine.execContributionFlitReceive l k d fail s
  | .chunkMap k => Sys2Proof.Machine.execChunkMap k s
  | .spillReloadComplete k uncorrectable => Sys2Proof.Machine.execSpillReloadComplete k uncorrectable s
  | .contributionNoticeReceive l k code => Sys2Proof.Machine.execContributionNoticeReceive l k code s
  | .drainComplete k fail => Sys2Proof.Machine.execDrainComplete k fail s
  | .resultCopyReceive l r => Sys2Proof.Machine.execResultCopyReceive l r s
  | .resultCopyAck l k => Sys2Proof.Machine.execResultCopyAck l k s
  | .replayRequestReceive l k attempt crcOk => Sys2Proof.Machine.execReplayRequestReceive l k attempt crcOk s
  | .replayMarkReceive l k attempt => Sys2Proof.Machine.execReplayMarkReceive l k attempt s
  | .resultFlitReceive l k d => Sys2Proof.Machine.execResultFlitReceive l k d s
  | .commitMessageReceive l epoch m => Sys2Proof.Machine.execCommitMessageReceive l epoch m s
  | .resultAckReceive l k => Sys2Proof.Machine.execResultAckReceive l k s
  | .fabricReadResponse k addr beat fail => Sys2Proof.Machine.execFabricReadResponse k addr beat fail s
  | .fabricWriteResponse k err => Sys2Proof.Machine.execFabricWriteResponse k err s
  | .cmdClassConfig h pairId radioSlots radioTiles eff => Sys2Proof.Machine.execCmdClassConfig h pairId radioSlots radioTiles eff s
  | .radioSlotsApply => Sys2Proof.Machine.execRadioSlotsApply s
  | .radioTilesApply => Sys2Proof.Machine.execRadioTilesApply s
  | .cmdCtxShape h weight rate burst full => Sys2Proof.Machine.execCmdCtxShape h weight rate burst full s
  | .shaperEligible slot => Sys2Proof.Machine.execShaperEligible slot s
  | .hallmarkBatchClose => Sys2Proof.Machine.execHallmarkBatchClose s
  | .cmdHallmarkRead h first count addr len bad wrErr => Sys2Proof.Machine.execCmdHallmarkRead h first count addr len bad wrErr s
  | .manifestRegister h label file items => Sys2Proof.Machine.execManifestRegister h label file items s
  | .manifestVerify h file items => Sys2Proof.Machine.execManifestVerify h file items s
  | .manifestRead h => Sys2Proof.Machine.execManifestRead h s
  | .fenceTileFence h u => Sys2Proof.Machine.execFenceTileFence h u s
  | .fenceTileUnfence h u => Sys2Proof.Machine.execFenceTileUnfence h u s
  | .fenceTileRead h => Sys2Proof.Machine.execFenceTileRead h s
  | .cmdDaybookRead h first count addr len wrErr => Sys2Proof.Machine.execCmdDaybookRead h first count addr len wrErr s
  | .daybookRecordWrite flashOk => Sys2Proof.Machine.execDaybookRecordWrite flashOk s
  | .faultNoticeReceive l n => Sys2Proof.Machine.execFaultNoticeReceive l n s
  | .journalSelfTest step1Ok badChannels listOk => Sys2Proof.Machine.execJournalSelfTest step1Ok badChannels listOk s
  | .journalRead use page acc e => Sys2Proof.Machine.execJournalRead use page acc e s
  | .scrubRead page acc e => Sys2Proof.Machine.execScrubRead page acc e s
  | .channelFailure c => Sys2Proof.Machine.execChannelFailure c s
  | .dramRefresh c => Sys2Proof.Machine.execDramRefresh c s
  | .mr4Read c doubled => Sys2Proof.Machine.execMr4Read c doubled s
  | .zqCalibration c => Sys2Proof.Machine.execZqCalibration c s
  | .phyUpdateRequest c => Sys2Proof.Machine.execPhyUpdateRequest c s
  | .ledgerSave h handle saveId => Sys2Proof.Machine.execLedgerSave h handle saveId s
  | .ledgerSaveDelete h saveId => Sys2Proof.Machine.execLedgerSaveDelete h saveId s
  | .cmdLedgerResume h saveId handle token bound uncorrectable => Sys2Proof.Machine.execCmdLedgerResume h saveId handle token bound uncorrectable s
  | .journalStageOut h handle setId => Sys2Proof.Machine.execJournalStageOut h handle setId s
  | .journalStageIn h handle setId => Sys2Proof.Machine.execJournalStageIn h handle setId s
  | .journalStageDelete h setId => Sys2Proof.Machine.execJournalStageDelete h setId s
  | .journalRetirePage h page uncorrectable => Sys2Proof.Machine.execJournalRetirePage h page uncorrectable s
  | .journalRetireBank h c b uncorrectable => Sys2Proof.Machine.execJournalRetireBank h c b uncorrectable s
  | .journalRetireMark h c dev => Sys2Proof.Machine.execJournalRetireMark h c dev s
  | .journalRetireUnmark h c dev => Sys2Proof.Machine.execJournalRetireUnmark h c dev s
  | .journalRetireRead h => Sys2Proof.Machine.execJournalRetireRead h s
  | .cmdJournalConfig h hours => Sys2Proof.Machine.execCmdJournalConfig h hours s
  | .patternLoad h p aligned distribute => Sys2Proof.Machine.execPatternLoad h p aligned distribute s
  | .packReceive l p => Sys2Proof.Machine.execPackReceive l p s
  | .patternDelete h slot => Sys2Proof.Machine.execPatternDelete h slot s
  | .patternRead h => Sys2Proof.Machine.execPatternRead h s
  | .testTileRun h u packId => Sys2Proof.Machine.execTestTileRun h u packId s
  | .testTileAbort h u => Sys2Proof.Machine.execTestTileAbort h u s
  | .testComplete u r => Sys2Proof.Machine.execTestComplete u r s
  | .monitorFire tile slack => Sys2Proof.Machine.execMonitorFire tile slack s
  | .stretchIntervalEnd group => Sys2Proof.Machine.execStretchIntervalEnd group s
  | .tallyClockSet h group freq eff => Sys2Proof.Machine.execTallyClockSet h group freq eff s
  | .tallyClockSync h freqs eff => Sys2Proof.Machine.execTallyClockSync h freqs eff s
  | .tallyClockMargin h group margin => Sys2Proof.Machine.execTallyClockMargin h group margin s
  | .tallyClockRead h => Sys2Proof.Machine.execTallyClockRead h s
  | .tallySetEffective group => Sys2Proof.Machine.execTallySetEffective group s
  | .groupQuiesced group => Sys2Proof.Machine.execGroupQuiesced group s
  | .tallySyncEffective => Sys2Proof.Machine.execTallySyncEffective s
  | .cmdPowerSelf h domain set idle => Sys2Proof.Machine.execCmdPowerSelf h domain set idle s
  | .tileAutoIdleOff tile => Sys2Proof.Machine.execTileAutoIdleOff tile s
  | .domainPowerOnComplete domain => Sys2Proof.Machine.execDomainPowerOnComplete domain s
  | .powerPlanLoad h p => Sys2Proof.Machine.execPowerPlanLoad h p s
  | .powerPlanSchedule h q step strike => Sys2Proof.Machine.execPowerPlanSchedule h q step strike s
  | .powerPlanRead h => Sys2Proof.Machine.execPowerPlanRead h s
  | .powerStepStart => Sys2Proof.Machine.execPowerStepStart s
  | .pmAckChange k level => Sys2Proof.Machine.execPmAckChange k level s
  | .powerDelayExpiry => Sys2Proof.Machine.execPowerDelayExpiry s
  | .powerWaitTimeout => Sys2Proof.Machine.execPowerWaitTimeout s
  | .leaseRenewalSend => Sys2Proof.Machine.execLeaseRenewalSend s
  | .leaseRenewalReceive l f => Sys2Proof.Machine.execLeaseRenewalReceive l f s
  | .leaseClaimReceive l f => Sys2Proof.Machine.execLeaseClaimReceive l f s
  | .leaseReleaseReceive l f => Sys2Proof.Machine.execLeaseReleaseReceive l f s
  | .leaseConfirmationReceive l f => Sys2Proof.Machine.execLeaseConfirmationReceive l f s
  | .leaseRefusalReceive l g f => Sys2Proof.Machine.execLeaseRefusalReceive l g f s
  | .leaseLapse => Sys2Proof.Machine.execLeaseLapse s
  | .chordRenewalTimeout => Sys2Proof.Machine.execChordRenewalTimeout s
  | .leaseClaimSend => Sys2Proof.Machine.execLeaseClaimSend s
  | .chordDownSolo => Sys2Proof.Machine.execChordDownSolo s
  | .mirrorFlitReceive l m => Sys2Proof.Machine.execMirrorFlitReceive l m s
  | .epochRecordClose peer => Sys2Proof.Machine.execEpochRecordClose peer s
  | .pairIsolate h => Sys2Proof.Machine.execPairIsolate h s
  | .pairRejoin h => Sys2Proof.Machine.execPairRejoin h s
  | .pairHandover h eff => Sys2Proof.Machine.execPairHandover h eff s
  | .handoverEffective => Sys2Proof.Machine.execHandoverEffective s
  | .pairRead h => Sys2Proof.Machine.execPairRead h s
  | .attestEnroll h => Sys2Proof.Machine.execAttestEnroll h s
  | .attestReport h nonce userData => Sys2Proof.Machine.execAttestReport h nonce userData s
  | .attestCertLoad h len chain => Sys2Proof.Machine.execAttestCertLoad h len chain s
  | .attestCertRead h => Sys2Proof.Machine.execAttestCertRead h s
  | .cmdCtxOpen h a => Sys2Proof.Machine.execCmdCtxOpen h a s
  | .contextMessageReceive l m => Sys2Proof.Machine.execContextMessageReceive l m s
  | .cmdCtxClose h => Sys2Proof.Machine.execCmdCtxClose h s
  | .debugChallenge h => Sys2Proof.Machine.execDebugChallenge h s
  | .debugUnlock h t => Sys2Proof.Machine.execDebugUnlock h t s
  | .mailboxGo m access => Sys2Proof.Machine.execMailboxGo m access s
  | .mailboxAbort m access => Sys2Proof.Machine.execMailboxAbort m access s
  | .mailboxDoneClear m access => Sys2Proof.Machine.execMailboxDoneClear m access s
  | .mailboxAccept => Sys2Proof.Machine.execMailboxAccept s
  | .forwardedCommandReceive l block m seq tier opcode mirrored bytes resent => Sys2Proof.Machine.execForwardedCommandReceive l block m seq tier opcode mirrored bytes resent s
  | .forwardResponseReceive l src seq code results => Sys2Proof.Machine.execForwardResponseReceive l src seq code results s
  | .forwardTimeout src => Sys2Proof.Machine.execForwardTimeout src s
  | .distributionReceive l id d => Sys2Proof.Machine.execDistributionReceive l id d s
  | .distributionAckReceive l id code info => Sys2Proof.Machine.execDistributionAckReceive l id code info s
  | .watchdogExpiry => Sys2Proof.Machine.execWatchdogExpiry s
  | .sramDoubleError => Sys2Proof.Machine.execSramDoubleError s
  | .badFetch => Sys2Proof.Machine.execBadFetch s
  | .scrivenerRestartComplete stagedOk => Sys2Proof.Machine.execScrivenerRestartComplete stagedOk s
  | .cmdFwStage h kind len img => Sys2Proof.Machine.execCmdFwStage h kind len img s
  | .cmdFwActivate h kind eff => Sys2Proof.Machine.execCmdFwActivate h kind eff s
  | .fwActivateEffective => Sys2Proof.Machine.execFwActivateEffective s
  | .htLoRead => Sys2Proof.Machine.execHtLoRead s
  | .taiOfsLoRead => Sys2Proof.Machine.execTaiOfsLoRead s
  | .fcwLoRead access => Sys2Proof.Machine.execFcwLoRead access s
  | .tdcStampLoRead ch access => Sys2Proof.Machine.execTdcStampLoRead ch access s
  | .hmSeqLoRead access => Sys2Proof.Machine.execHmSeqLoRead access s
  | .dbSeqLoRead access => Sys2Proof.Machine.execDbSeqLoRead access s
  | .noticeRead access => Sys2Proof.Machine.execNoticeRead access s
  | .registerWrite addr v access => Sys2Proof.Machine.execRegisterWrite addr v access s
  | .htEvEdge c => Sys2Proof.Machine.execHtEvEdge c s
  | .temperatureExcursion temp => Sys2Proof.Machine.execTemperatureExcursion temp s
  | .ocxoClockReturn => Sys2Proof.Machine.execOcxoClockReturn s
  | .sramSingleBitError => Sys2Proof.Machine.execSramSingleBitError s
  | .phasePullEnd => Sys2Proof.Machine.execPhasePullEnd s
  | .frequencySlewEnd => Sys2Proof.Machine.execFrequencySlewEnd s
  | .paneSpillComplete k => Sys2Proof.Machine.execPaneSpillComplete k s
  | .domainPowerOffComplete domain => Sys2Proof.Machine.execDomainPowerOffComplete domain s
  | .activationCommandWaitExpiry => Sys2Proof.Machine.execActivationCommandWaitExpiry s

end Sys2Proof.Machine
end

