-- ==== Sys2Proof/Machine/Tick.lean ====
section
/-! DEFINITION. One tick of the hall time domain: what the step does when no command waits (DESIGN CHOICE, log 3). Time advances, and
with it what the manual ties to every tick and gives no command of its own. -/

set_option linter.unusedVariables false

namespace Sys2Proof.Machine

/-! ## Time (R34, R100, R111) -/

/-- What the clock bus advances in one tick, in units of 2⁻⁵⁶ of a coarse count: two counts in a Leaf; in a Hub the bus is the scale of
the OCXO, and the domain runs at 1 + FCW × 2⁻⁵⁶ against it (R59, R111). -/
def State.busStep (s : State) : Nat :=
  if s.isHub then (2 ^ 113 / (2 ^ 56 + s.dpll.fcw)).toNat else 2 ^ 57

/-- HT and the coarse counter advance (R34): 1 ns and the servo's correction, which never makes HT fall (R35). -/
def State.advance (s : State) : State :=
  let b := s.tdc.busFrac + s.busStep
  let ht : Int := s.time.ht48 + 2 ^ 48 + s.time.corr
  { s with time := { s.time with ht48 := max s.time.ht48 ht.toNat }
           tdc := { s.tdc with coarse := s.tdc.coarse + b / 2 ^ 56, busFrac := b % 2 ^ 56 } }

/-! ## The sync store and the wait port (R184, R188 to R190) -/

/-- A waiter on a new cycle `n` of wt_clk (R188 to R190): the pulses of the cycle before end; a gated waiter's gate rises on c + 3; a wait met
on cycle m pulses wt_met on m + 1 and leaves its waiter free on m + 2; a refused request aborts on its cycle. -/
def Waiter.tick (n : Nat) (x : Waiter) : Waiter :=
  let rise := decide (x.state = 1) && x.gate && x.watching && decide (x.gateAt ≤ n)
  let y := { x with metOut := false, abortOut := false, gateOut := x.gateOut || rise, state := if rise then 2 else x.state }
  let z := match y.metAt with
    | some m => if n ≤ m then y else if n = m + 1 then { y with metOut := true, gateOut := false, last := 0 } else { y with state := 0, metAt := none, gateOut := false }
    | none => y
  match z.abortAt with
  | some a => if n < a then z else { z with abortOut := true, gateOut := false, state := 0, last := 1, metAt := none, abortAt := none }
  | none => z

/-- A new tick of the sync store: no word has been updated on it yet, but for those that a register-port update took ahead. -/
def State.syncTick (s : State) : State :=
  { s with sync := { s.sync with used := s.sync.usedNext, usedNext := [], waiters := s.sync.waiters.map (fun e => (e.1, e.2.tick s.cycle)) } }

/-! ## Shapers (R290) -/

/-- Tokens accrue at RATE and stop at BURST. -/
def ShapeSt.tick (x : ShapeSt) : ShapeSt := if x.rate = 0 then x else { x with tokens80 := min (x.burst * 80) (x.tokens80 + x.rate) }

/-- The shapers of a Leaf. -/
def State.shapeTick (s : State) : State :=
  if s.isHub then s else { s with sched := { s.sched with shape := s.sched.shape.map (fun e => (e.1, e.2.tick)) } }

/-! ## The DPLL (R76, R86, R87) -/

/-- Whether FCW follows R86: in Holdover or Lost while the model is usable, unless another input or host software sets it. -/
def State.followsModel (s : State) : Bool :=
  (decide (s.dpll.state = .holdover) || decide (s.dpll.state = .lost)) && s.dpll.usable && s.dpll.holdEntry.isSome && !s.dpll.uplinkInput &&
  (s.dpll.mode != 4 || s.dpll.openExpired)

/-- The FCW that R86 gives now: F0 + f(t) − f(t_entry). -/
def State.modelFcw (s : State) : Int :=
  clampFcw (s.dpll.holdF0 + rround ((modelF s.dpll.model (s.ageH s.htNs) s.tempC - s.dpll.holdFe) * (72057594037927936 : Rat) / 1000000000))

/-- FCW after one tick: it moves toward its target by at most 7 units of 2⁻⁵⁶, which is within 0.1 ppm/s (R76). -/
def moveFcw (fcw target : Int) : Int :=
  if target - fcw > 7 then fcw + 7 else if target - fcw < -7 then fcw - 7 else target

/-- The log of FCW that F0 needs: changes, newest first, back to the one in force 8,100,000,000 ns ago (R86). -/
def trimLog (cut : HT) : List (HT × Int) → List (HT × Int)
  | [] => []
  | (t, v) :: r => if t ≤ cut then [(t, v)] else (t, v) :: trimLog cut r

/-- The frequency error of the output against its input in ppb (R90): FCW against the y of the active reference, or, on the up-servo, of the TDC channel that
shows the recovered clock (Table 4.1). -/
def State.freqErr (s : State) : Rat :=
  match s.dpll.active, s.tsrc.input with
  | some n, _ => ppbOf s.dpll.fcw 1 - (s.ref n).y
  | none, some (some u) => ppbOf s.dpll.fcw 1 - (s.tdcCh (4 + u)).yPpb
  | _, _ => 0

/-- The phase error that R90 looks at: that of the servo's input, or of a phase-carrying active reference, in units of 2⁻⁸ ns. -/
def State.lockPhase (s : State) : Int := if s.dpll.uplinkInput then s.dpll.phaseErr else s.phaseErrOut

/-- The lock criteria on one tick (R90): at most 1 ppb and 10 ns; and the unlock criteria: more than 4 ppb or 50 ns. -/
def State.lockOk (s : State) : Bool :=
  (s.dpll.active.isSome || s.dpll.uplinkInput) && decide (rabs s.freqErr ≤ 1) && decide (s.lockPhase.natAbs ≤ 2560)
@[inherit_doc State.lockOk] def State.unlockOk (s : State) : Bool := decide (4 < rabs s.freqErr) || decide (12800 < s.lockPhase.natAbs)

/-- The DPLL of a Hub on one tick. -/
def State.dpllTick (s : State) : State :=
  if !s.isHub then s
  else
    let s1 := if s.followsModel then s.fcwTo s.modelFcw else s
    let d := s1.dpll
    let f := moveFcw d.fcw d.fcwTarget
    let secs := match d.holdEntry with
      | some t => if d.state = .holdover ∨ d.state = .lost then (s.htNs - t) / 1000000000 else d.holdSeconds
      | none => d.holdSeconds
    let log := if f = d.fcw then d.fcwLog else trimLog (s.htNs - 8100000000) ((s.htNs, f) :: d.fcwLog)
    let left := d.pullLeft + s1.time.corr
    let done := decide (d.pullLeft = 0) || decide ((0 < d.pullLeft) ≠ (0 < left))
    let l := if done then 0 else left
    { s1 with time := { s1.time with corr := stepCorr d.cfg.slopeTenth l }
              dpll := { d with pullLeft := l, lockRun := if s.lockOk then d.lockRun + 1 else 0, unlockRun := if s.unlockOk then d.unlockRun + 1 else 0
                               binFcw := d.binFcw + d.fcw, binN := d.binN + 1, fcw := f, fcwTgl := if f = d.fcw then d.fcwTgl else !d.fcwTgl, fcwLog := log, holdSeconds := secs } }

/-! ## The flash interface (R518) -/

/-- xs_rst_n is released 10,000 ns after block reset ends, which is 20,000 counts of the coarse counter. -/
def State.flashTick (s : State) : State :=
  if s.boot.xsRstN || decide (s.tdc.coarse < 20000) then s else { s with boot := { s.boot with xsRstN := true } }

/-! ## The tick -/

/-- Chunks whose streams waited for their tile's clock go on (R386). -/
def State.chunkTick (s : State) : State :=
  if s.isHub then (s.coll.chunks.map (·.key)).foldl State.takeRx s else s

/-- A free Tally clock of every element (R216, R229): the lowest marked limb gives its GUARD to the next, which may be marked by it and then follows on a later
one. A tile whose clock stands still takes no step. -/
def State.tallyTick (s : State) : State :=
  { s with tiles := s.tiles.map (fun e => if s.tileRuns e.1 then (e.1, { e.2 with panes := e.2.panes.map (fun p =>
      (p.1, { p.2 with elems := p.2.elems.map (fun x => (x.1, x.2.freeClock p.2.lanes)) })) }) else e) }

/-- One tick. HT of 2⁶⁴ ns is never reached (Table 2.3): the model stops there. -/
def tick (s : State) : Out :=
  let s1 := s.advance
  if 2 ^ 64 ≤ s1.htNs then .fault .htPastLimit
  else .next ((s1.flashTick.syncTick.shapeTick.dpllTick.restartGroups.turnWaiting.stepTick).chunkTick.tallyTick.creditTick.linesTick)

end Sys2Proof.Machine
end

