-- ==== Sys2Proof/Machine/CmdTable.lean ====
section
/-! DEFINITION. Which commands of the block come through a mailbox, with their rows of Table 19.7 (R463), and what it means
that one runs in this block. -/

set_option linter.unusedVariables false

namespace Sys2Proof.Machine

/-- The row of Table 19.7 and the header of a command that comes through a mailbox; none for any other command of the block. -/
def cmdOf (i : Instr) (s : State) : Option (CmdInfo × CmdHdr) :=
  match i with
  | .cmdTaiMap h _ _ _ _ => some ({ opcode := 0x0101, leaf := false }, h)
  | .cmdRefConfig h _ => some ({ opcode := 0x0102, leaf := false, mirrored := true }, h)
  | .cmdRefReport h _ => some ({ opcode := 0x0103, leaf := false }, h)
  | .cmdDpllMode h _ _ => some ({ opcode := 0x0104, leaf := false, mirrored := true }, h)
  | .cmdDpllFcw h _ _ => some ({ opcode := 0x0105, leaf := false }, h)
  | .holdoverModelRead h => some ({ opcode := 0x0106, leaf := false, read := true }, h)
  | .holdoverModelLoad h _ => some ({ opcode := 0x0106, leaf := false }, h)
  | .holdoverModelClear h => some ({ opcode := 0x0106, leaf := false }, h)
  | .holdoverModelFreeze h => some ({ opcode := 0x0106, leaf := false }, h)
  | .holdoverModelResume h => some ({ opcode := 0x0106, leaf := false }, h)
  | .cmdTdcConfig h _ _ => some ({ opcode := 0x0107 }, h)
  | .cmdTdcCal h _ _ _ _ => some ({ opcode := 0x0108 }, h)
  | .plumbMeasure h _ => some ({ opcode := 0x0109 }, h)
  | .plumbLoad h _ _ => some ({ opcode := 0x0109, flash := true }, h)
  | .plumbRead h _ => some ({ opcode := 0x0109, read := true }, h)
  | .plumbClearSuspect h _ => some ({ opcode := 0x0109 }, h)
  | .cmdTsrcConfig h _ _ _ => some ({ opcode := 0x010A, hub := false }, h)
  | .cmdHtStep h _ _ _ => some ({ opcode := 0x010B, leaf := false, mirrored := true }, h)
  | .docketBind h _ _ _ => some ({ opcode := 0x0201, hub := false, iss := .ctx }, h)
  | .docketLoad h _ _ _ _ _ => some ({ opcode := 0x0201, hub := false, iss := .ctx }, h)
  | .docketUnbind h _ _ => some ({ opcode := 0x0201, hub := false, iss := .ctx }, h)
  | .cmdPulseConfig h _ => some ({ opcode := 0x0202 }, h)
  | .cmdPulseAlign h _ _ => some ({ opcode := 0x0203, leaf := false }, h)
  | .syncMap h _ _ _ _ => some ({ opcode := 0x0301, hub := false, iss := .ctx }, h)
  | .syncUnmap h _ _ => some ({ opcode := 0x0301, hub := false, iss := .ctx }, h)
  | .syncMapRead h _ _ => some ({ opcode := 0x0301, hub := false, iss := .ctx, read := true }, h)
  | .syncSetMode h _ _ _ _ => some ({ opcode := 0x0301, hub := false, iss := .ctx }, h)
  | .syncPairDefine h _ _ _ => some ({ opcode := 0x0302, hub := false, iss := .ctx }, h)
  | .syncPairDelete h _ _ => some ({ opcode := 0x0302, hub := false, iss := .ctx }, h)
  | .cmdBarrierDefine h _ => some ({ opcode := 0x0303, leaf := false, iss := .ctx, span := true, mirrored := true }, h)
  | .cmdBarrierDelete h _ => some ({ opcode := 0x0304, leaf := false, iss := .ctx, span := true, mirrored := true }, h)
  | .collPlanOpen h _ _ _ => some ({ opcode := 0x0401, iss := .ctx, mirrored := s.isHub }, h)
  | .collPlanClose h _ => some ({ opcode := 0x0401, iss := .ctx, mirrored := s.isHub }, h)
  | .cmdCollBind h _ _ => some ({ opcode := 0x0402, hub := false, iss := .ctx }, h)
  | .cmdClassConfig h _ _ _ _ => some ({ opcode := 0x0403, leaf := false, mirrored := true }, h)
  | .cmdCtxShape h _ _ _ _ => some ({ opcode := 0x0404, leaf := false, span := true, mirrored := true }, h)
  | .cmdHallmarkRead h _ _ _ _ _ _ => some ({ opcode := 0x0502, leaf := false, read := true }, h)
  | .manifestRegister h _ _ _ => some ({ opcode := 0x0501, hub := false, iss := .ctx }, h)
  | .manifestVerify h _ _ => some ({ opcode := 0x0501, hub := false, iss := .ctx }, h)
  | .manifestRead h => some ({ opcode := 0x0501, hub := false, iss := .ctx, read := true }, h)
  | .fenceTileFence h _ => some ({ opcode := 0x0601, flash := true }, h)
  | .fenceTileUnfence h _ => some ({ opcode := 0x0601, flash := true }, h)
  | .fenceTileRead h => some ({ opcode := 0x0601, read := true }, h)
  | .cmdDaybookRead h _ _ _ _ _ => some ({ opcode := 0x0602, read := true }, h)
  | .ledgerSave h _ _ => some ({ opcode := 0x0503, leaf := false, iss := .ctx, span := true, mirrored := true }, h)
  | .ledgerSaveDelete h _ => some ({ opcode := 0x0503, leaf := false, iss := .ctx, span := true, mirrored := true }, h)
  | .cmdLedgerResume h _ _ _ _ _ => some ({ opcode := 0x0504, leaf := false, iss := .ctx, span := true, mirrored := true }, h)
  | .journalStageOut h _ _ => some ({ opcode := 0x0505, leaf := false, iss := .ctx, span := true, mirrored := true }, h)
  | .journalStageIn h _ _ => some ({ opcode := 0x0505, leaf := false, iss := .ctx, span := true, mirrored := true }, h)
  | .journalStageDelete h _ => some ({ opcode := 0x0505, leaf := false, iss := .ctx, span := true, mirrored := true }, h)
  | .journalRetirePage h _ _ => some ({ opcode := 0x0506, leaf := false, flash := true }, h)
  | .journalRetireBank h _ _ _ => some ({ opcode := 0x0506, leaf := false, flash := true }, h)
  | .journalRetireMark h _ _ => some ({ opcode := 0x0506, leaf := false, flash := true }, h)
  | .journalRetireUnmark h _ _ => some ({ opcode := 0x0506, leaf := false, flash := true }, h)
  | .journalRetireRead h => some ({ opcode := 0x0506, leaf := false, read := true }, h)
  | .cmdJournalConfig h _ => some ({ opcode := 0x0507, leaf := false }, h)
  | .patternLoad h _ _ _ => some ({ opcode := 0x0603, flash := true }, h)
  | .patternDelete h _ => some ({ opcode := 0x0603, flash := true }, h)
  | .patternRead h => some ({ opcode := 0x0603, read := true }, h)
  | .testTileRun h _ _ => some ({ opcode := 0x0604 }, h)
  | .testTileAbort h _ => some ({ opcode := 0x0604 }, h)
  | .tallyClockSet h _ _ _ => some ({ opcode := 0x0701 }, h)
  | .tallyClockSync h _ _ => some ({ opcode := 0x0701 }, h)
  | .tallyClockMargin h _ _ => some ({ opcode := 0x0701 }, h)
  | .tallyClockRead h => some ({ opcode := 0x0701, read := true }, h)
  | .cmdPowerSelf h _ _ _ => some ({ opcode := 0x0702 }, h)
  | .powerPlanLoad h _ => some ({ opcode := 0x0703, hub := false }, h)
  | .powerPlanSchedule h _ _ _ => some ({ opcode := 0x0703, hub := false }, h)
  | .powerPlanRead h => some ({ opcode := 0x0703, hub := false, read := true }, h)
  | .pairIsolate h => some ({ opcode := 0x0704, leaf := false }, h)
  | .pairRejoin h => some ({ opcode := 0x0704, leaf := false }, h)
  | .pairHandover h _ => some ({ opcode := 0x0704, leaf := false }, h)
  | .pairRead h => some ({ opcode := 0x0704, leaf := false, read := true }, h)
  | .attestEnroll h => some ({ opcode := 0x0803, read := true, flash := true }, h)
  | .attestReport h _ _ => some ({ opcode := 0x0803, iss := .any, read := true }, h)
  | .attestCertLoad h _ _ => some ({ opcode := 0x0803, read := true, flash := true }, h)
  | .attestCertRead h => some ({ opcode := 0x0803, iss := .any, read := true }, h)
  | .cmdCtxOpen h _ => some ({ opcode := 0x0801, leaf := false, span := true, mirrored := true }, h)
  | .cmdCtxClose h => some ({ opcode := 0x0802, leaf := false, iss := .ctx, span := true, mirrored := true }, h)
  | .debugChallenge h => some ({ opcode := 0x0804 }, h)
  | .debugUnlock h _ => some ({ opcode := 0x0804 }, h)
  | .cmdFwStage h _ _ _ => some ({ opcode := 0x0901, read := true, recovery := true, flash := true }, h)
  | .cmdFwActivate h _ _ => some ({ opcode := 0x0902, read := true, recovery := true, flash := true }, h)
  | _ => none

/-- What the reads of data return that a command makes over the fabric beside that of its parameter block (R545). -/
def ownRead (i : Instr) : FabRead Unit :=
  match i with
  | .docketLoad _ _ _ r _ _ => bothReads (.ok ()) r
  | .collPlanOpen _ _ r _ => bothReads (.ok ()) r
  | .manifestRegister _ _ f l => bothReads (.ok ()) (allReads f l)
  | .manifestVerify _ f l => bothReads (.ok ()) (allReads f l)
  | .patternLoad _ r _ _ => bothReads (.ok ()) r
  | .powerPlanLoad _ r => bothReads (.ok ()) r
  | .attestCertLoad _ _ r => bothReads (.ok ()) r
  | .cmdCtxOpen _ a => bothReads (.ok ()) (if a.tenantKeyed then a.keyBlock else .ok 0)
  | .debugUnlock _ r => bothReads (.ok ()) r
  | .cmdFwStage _ _ _ r => bothReads (.ok ()) r
  | _ => .ok ()

/-- What the outside returns to a command stops it nowhere: its parameter block is read (R464), the guard unit refuses none of its writes
(R455), and neither its flash write (R519) nor the fabric write of its results (R545) fails. -/
def Untroubled (i : CmdInfo) (h : CmdHdr) : Prop :=
  (i.flash = true → h.flashOk = true) ∧ h.param = .ok () ∧ h.guard = none ∧ h.wrErr = false

/-- The command passes the checks of R460, its route ends here (R461), and nothing outside it stops it. -/
def RunsHere (i : Instr) (s : State) : Prop :=
  ∃ inf h, cmdOf i s = some (inf, h) ∧ gate inf h s = none ∧ route s inf h = .here ∧ Untroubled inf h

end Sys2Proof.Machine
end

