-- ==== Sys2Proof/Safety.lean ====
section
/-! DEFINITION. What counts as a safe run: no step ends in a fault or a refusal; and what holds of a state in every run. -/

set_option linter.unusedVariables false

namespace Sys2Proof

/-- The step at `s` goes on. -/
def Goes (s : Machine.State) : Prop := ∃ t, Machine.step s = .next t

/-- A run of `k` steps from `s` that goes on throughout. -/
def SafeFor : Nat → Machine.State → Prop
  | 0, _ => True
  | k + 1, s => ∃ t, Machine.step s = .next t ∧ SafeFor k t

/-- The last answer of the register interface carries data 0 where it is an error response (R507). -/
def Machine.State.RgOk (s : Machine.State) : Prop := s.rg.err = true → s.rg.rdata = 0

/-- A block that was unlocked holds no attestation key, KEYS_VALID is 0 and its PUF is off (R447). -/
def Machine.State.KeyOk (s : Machine.State) : Prop :=
  s.sec.unlocked = true → s.sec.pufOn = false ∧ s.sec.keysValid = false ∧ s.sec.attKey = 0

/-- The integer that a finite term adds to N: (−1)^neg × m × 2^(k + 149) (R210, R215). -/
def Machine.Term.units (t : Machine.Term) : Int :=
  if t.neg then -((t.m * 2 ^ (t.k + 149).toNat : Nat) : Int) else ((t.m * 2 ^ (t.k + 149).toNat : Nat) : Int)

/-- A finite addend of R208: a multiple of 2⁻¹⁴⁹ of magnitude below 2¹²⁸. -/
def Machine.Term.addend (t : Machine.Term) : Bool :=
  decide (t.kind = .fin) && decide (-149 ≤ t.k) && decide (t.m * 2 ^ (t.k + 149).toNat < 2 ^ 277)

/-- Every limb lies within `g` GUARD units of 0 (Table 8.4, R216). -/
def Machine.limbsWithin (g : Int) (l : List (BitVec 40)) : Bool :=
  l.all (fun x => decide (-(g * 4294967296) ≤ Machine.limbInt x) && decide (Machine.limbInt x < g * 4294967296))

end Sys2Proof
end

