-- ==== Sys2Proof/Certificates/Slice0/Obligations.lean ====
section
/-! DEFINITION. The statements for the provers. -/

set_option linter.unusedVariables false

open Sys2Proof Sys2Proof.Machine

/-- In a Hub of the top pair: loss of a reference sets its LOS bit once it is due (4 nominal periods of REF0 or REF1, 400 ns or 1.5 s of REF2, the report timeout of REF3), and not before; a status message or a QL report that stays away too long gives rank 15 and sets QL_TMO; in any other block these and a status message change nothing (the model's reading, entry 90 of the assumption log). In a Hub: a reference that still meets the conditions when its wait to restore ends is qualified; a Disputed pair that has agreed for 60 s is no longer Disputed; after each the selection runs again. A temperature that stays away for 10 s from an external sensor is stale. Each answers a next state; what is not named is unchanged. -/
def Obligations.ReferenceEvents : Prop :=
  -- R62, R68
  (∀ (s : State) (n : Nat), s.isTop = true → n < 4 →
     (n = 0 → 4000000 ≤ (s.htNs - (s.ref 0).lastEdge) * s.dpll.cfg.nomKhz0) → (n = 1 → 4000000 ≤ (s.htNs - (s.ref 1).lastEdge) * s.dpll.cfg.nomKhz1) →
     (n = 2 → (s.ref 2).lastEdge + 400 ≤ s.htNs ∨ (s.ref 2).lastPps + 1500000000 ≤ s.htNs) →
     (n = 3 → (s.ref 3).lastEdge + s.dpll.cfg.ref3TmoS * 1000000000 ≤ s.htNs) →
     exec (.refLoss n) s = .next ((s.modRef n (fun r => { r with los := true })).updCond n).reselect) ∧
  -- R62: not before the loss is due
  (∀ (s : State) (n : Nat), n < 4 →
     (n = 0 → (s.htNs - (s.ref 0).lastEdge) * s.dpll.cfg.nomKhz0 < 4000000) → (n = 1 → (s.htNs - (s.ref 1).lastEdge) * s.dpll.cfg.nomKhz1 < 4000000) →
     (n = 2 → s.htNs < (s.ref 2).lastEdge + 400 ∧ s.htNs < (s.ref 2).lastPps + 1500000000) →
     (n = 3 → s.htNs < (s.ref 3).lastEdge + s.dpll.cfg.ref3TmoS * 1000000000) →
     exec (.refLoss n) s = .next s) ∧
  -- R66
  (∀ (s : State), s.isTop = true → s.dpll.lastMsg + s.dpll.cfg.msgTmoS * 1000000000 ≤ s.htNs →
     exec .statusMessageTimeout s = .next ((s.hist 6).setRank 2 15).reselect) ∧
  -- R64
  (∀ (s : State) (n : Nat), s.isTop = true → n < 2 → (s.ref n).lastReport + 5000000000 ≤ s.htNs →
     exec (.qlTimeout n) s = .next ((s.hist 6).setRank n 15).reselect) ∧
  -- log 90: elsewhere than in a Hub of the top pair
  (∀ (s : State) (n : Nat) (l : List Byte), s.isTop = false →
     exec (.refLoss n) s = .next s ∧ exec .statusMessageTimeout s = .next s ∧ exec (.qlTimeout n) s = .next s ∧ exec (.xsStatusMessage l) s = .next s) ∧
  -- R85
  (∀ (s : State), s.isHub = true → s.dpll.cfg.tempExternal = true → s.dpll.tempAt + 10000000000 ≤ s.htNs →
     exec .tempTimeout s = .next ({ s with dpll := { s.dpll with stale := true } }.hist 18)) ∧
  -- R68
  (∀ (s : State) (n t : Nat), s.isHub = true → n < 4 → s.refCond n = true → (s.ref n).qualified = false → (s.ref n).wtrStart = some t →
     t + s.dpll.cfg.wtrS * 1000000000 ≤ s.htNs →
     exec (.waitToRestoreExpiry n) s = .next (s.qualify n).reselect) ∧
  -- R75
  (∀ (s : State) (n m t : Nat), s.isHub = true → n < m → m < 4 → (s.dpll.disp.get {} (4 * n + m)).marked = true →
     (s.dpll.disp.get {} (4 * n + m)).agreeSince = some t → t + 60000000000 ≤ s.htNs →
     exec (.disputeClear n m) s = .next
       (({ s with dpll := { s.dpll with disp := s.dpll.disp.set {} (4 * n + m) {} } }.mirror (.dispute (4 * n + m) false)).refreshDisq).reselect)

/-- In a Hub: Acquiring goes to Locked when the lock criteria have held for 10 s and Locked to Acquiring when the unlock criteria have held for 2 s; Holdover goes to Lost when its time exceeds the limit or a die excursion exceeds the configured limit; none of these happens in the open loop; an open loop that is not renewed sets OPEN_TMO and goes to Holdover or Free-run; a pull ends, once no phase is left to be moved, with the HT correction at zero and SLEW clear; a frequency slew ends when FCW reaches its target. -/
def Obligations.DpllStateEvents : Prop :=
  (∀ (s : State), s.isHub = true → s.dpll.state = .acquiring → s.openLoop = false → exec .lockCriteriaMet s = .next (if 10000000000 ≤ s.dpll.lockRun then s.enter .locked else s)) ∧
  (∀ (s : State), s.isHub = true → s.dpll.state = .locked → s.openLoop = false →
     exec .unlockCriteriaMet s = .next (if 2000000000 ≤ s.dpll.unlockRun then s.enter .acquiring else s)) ∧
  (∀ (s : State) (t : HT), s.isHub = true → s.dpll.state = .holdover → s.dpll.holdEntry = some t → s.openLoop = false →
     exec .holdoverLimitExpiry s = .next (if t + s.dpll.cfg.holdLimitS * 1000000000 < s.htNs then s.enter .lost else s)) ∧
  (∀ (s : State) (t : Rat), s.isHub = true → s.dpll.cfg.tempExternal = false → s.dpll.state = .holdover → s.openLoop = false →
     (s.dpll.cfg.tempExcC : Rat) < rabs (({ s with dpll := { s.dpll with tempDie := t } } : State).tempC - s.dpll.model.t0) →
     exec (.temperatureExcursion t) s = .next ({ s with dpll := { s.dpll with tempDie := t } }.enter .lost)) ∧
  (∀ (s : State), s.isHub = true → s.dpll.mode = 4 → s.dpll.openExpired = false → s.dpll.openAt + s.dpll.cfg.openTmoS * 1000000000 ≤ s.htNs →
     exec .openLoopTimeout s = .next (({ s with dpll := { s.dpll with openExpired := true } }.hist 17).enterNow (if s.dpll.usable then .holdover else .freeRun))) ∧
  (∀ (s : State), s.isHub = true → s.dpll.pull = true → s.dpll.pullLeft = 0 →
     exec .phasePullEnd s = .next { s with dpll := { s.dpll with pull := false }, time := { s.time with corr := 0, slew := false } }) ∧
  -- R77: while phase is left to be moved the pull goes on
  (∀ (s : State), s.dpll.pullLeft ≠ 0 → exec .phasePullEnd s = .next s) ∧
  (∀ (s : State), s.isHub = true → s.dpll.fslew = true → s.dpll.fcw = s.dpll.fcwTarget →
     exec .frequencySlewEnd s = .next { s with dpll := { s.dpll with fslew := false } })

/-- In a Hub: ocxo_warm_n at 1 ends trust and at 0 starts the settle time; the OCXO is trusted when the settle time has passed; loss of ocxo_clk ends trust, sets OCXO_LOSS and records event 0x0941, and its return starts the settle time again. A bin that does not count drops the bins outside the window and marks the next as clean when the conditions hold; a bin of 60 s that counts joins the window with the mean of the block's own FCW, before the fit. A usable model is written to flash. HT checkpoints write HT. -/
def Obligations.OcxoAndLearning : Prop :=
  -- R79
  (∀ (s : State), s.isHub = true → s.dpll.warmN = true →
     exec (.ocxoWarmChange false) s = .next { s with dpll := { s.dpll with warmN := false, settleStart := some s.htNs } }) ∧
  -- R79
  (∀ (s : State), s.isHub = true → s.dpll.warmN = false →
     exec (.ocxoWarmChange true) s = .next { s.endTrust with dpll := { s.endTrust.dpll with warmN := true, settleStart := none } }) ∧
  -- R79
  (∀ (s : State) (t : HT), s.isHub = true → s.dpll.settleStart = some t → s.dpll.warmN = false → s.dpll.ocxoRun = true → s.dpll.trusted = false →
     t + s.dpll.cfg.settleMin * 60000000000 ≤ s.htNs →
     exec .ocxoSettleExpiry s = .next ({ s with dpll := { s.dpll with trusted := true, settleStart := none } }.hist 13).refreshModel) ∧
  -- R502
  (∀ (s : State), s.isHub = true → s.dpll.ocxoRun = true →
     exec .ocxoLoss s = .next (({ s.endTrust with dpll := { s.endTrust.dpll with ocxoRun := false, settleStart := none }
                                                  irq := { s.endTrust.irq with ocxoLoss := true } }).record { event := 0x0941 })) ∧
  -- R502
  (∀ (s : State), s.isHub = true → s.dpll.ocxoRun = false →
     exec .ocxoClockReturn s = .next { s with dpll := { s.dpll with ocxoRun := true, settleStart := if s.dpll.warmN then none else some s.htNs } }) ∧
  -- R82: with the external sensor, whose reading the bin leaves alone
  (∀ (s : State) (t : Rat), s.isHub = true → s.dpll.cfg.tempExternal = true → 60000000000 ≤ s.dpll.binN → s.binCounts = false →
     ∀ r, r = ({ s with dpll := { s.dpll with bins := s.binsNow s.dpll.bins } } : State).refreshModel →
     exec (.learningBinEnd t) s = .next { r with dpll := { r.dpll with binFcw := 0, binN := 0, binClean := r.binCond } }) ∧
  -- R82: a bin lasts 60 s of ticks
  (∀ (s : State) (t : Rat), s.dpll.binN < 60000000000 → exec (.learningBinEnd t) s = .next s) ∧
  -- R82, R83: a bin that counts and is not the first
  (∀ (s : State) (t : Rat), s.isHub = true → s.dpll.cfg.tempExternal = true → s.binCounts = true → 60000000000 ≤ s.dpll.binN → s.dpll.modelLoaded = true →
     ∀ r, r = ({ s with dpll := { s.dpll with
         bins := s.binsNow (s.dpll.bins ++ [({ t := t, y := ppbOf s.dpll.binFcw s.dpll.binN, at_ := s.htNs } : Bin)]) } }.fitModel).refreshModel →
     exec (.learningBinEnd t) s = .next { r with dpll := { r.dpll with binFcw := 0, binN := 0, binClean := r.binCond } }) ∧
  -- R84, R454
  (∀ (s : State), s.isHub = true → s.dpll.usable = true → s.scriv.restarting = false →
     exec .modelFlashWrite s = .next { s with flash := { s.flash with model := some s.dpll.model, modelAt := s.htNs } }) ∧
  -- R40
  (∀ (s : State), s.checkpoints = true →
     exec .htCheckpoint s = .next { s with flash := { s.flash with checkpoint := some s.htNs, checkpointAt := s.htNs } })

/-- A mapping that arrives from above before its effective HT waits, and the primary mirrors it and hands it on; at its effective HT the pending mapping comes into force. A fall of ht_syn_lock sets SYN_UNLOCK and records event 0x0940; after 1,000,000 ns at 1 the lock counts again. In a Hub of the top pair, a valid REF2 message with its time valid sets its rank; a malformed one only sets MSG_ERROR. -/
def Obligations.TaiMappingAndSynthesizer : Prop :=
  -- R49, R50
  (∀ (s t : State) (l : Link) (m : TaiMap), s.params.isUp l.port = true → s.takeFlit l 1 = (t, true) → t.isTop = false → t.htNs < m.eff →
     exec (.taiMapReceive l m) s = .next (({ t with time := { t.time with pend := some m } }.mirror (.taiMap (some m))).mapDown m)) ∧
  -- R49
  (∀ (s : State) (m : TaiMap), s.time.pend = some m → m.eff ≤ s.htNs → m.ofs = s.time.ofs → s.isHub = false →
     exec .taiMapApply s = .next { s with
       time := { s.time with utc := m.utc, leap := m.leap, taiValid := true, seq := (s.time.seq + 1) % 65536, pend := none }
       irq := { s.irq with taiApplied := true } }) ∧
  -- R503
  (∀ (s : State), exec .synLockFall s = .next
     (({ s with time := { s.time with synLock := false, synLost := true, synBack := some s.htNs }, irq := { s.irq with synUnlock := true } }).record
       { event := 0x0940 }).refreshWord) ∧
  -- R503
  (∀ (s : State) (t : HT), s.time.synBack = some t → t + 1000000 ≤ s.htNs →
     exec .synLockRestored s = .next ({ s with time := { s.time with synLock := true, synLost := false, synBack := none } }).refreshWord) ∧
  -- R66
  (∀ (s : State) (l : List Byte), s.isTop = true → xsOk l = false → exec (.xsStatusMessage l) s = .next (s.hist 19)) ∧
  -- R65: a valid message while no pulse of the receiver has been seen
  (∀ (s : State) (l : List Byte), s.isTop = true → xsOk l = true → fieldAt l 11 1 % 2 = 1 → fieldAt l 11 1 / 2 ≠ 1 → fieldAt l 4 1 = 0xFF →
     (s.ref 2).lastPps = 0 →
     exec (.xsStatusMessage l) s = .next
       ((({ s with dpll := { s.dpll with lastMsg := s.htNs, msgSec := some (fieldAt l 5 6, s.htNs), msgBad := false } }).setRank 2
         (rankOf ((s.dpll.cfg.ssmII[2]?).getD false) { ssm := fieldAt l 3 1 % 16, eql := none })).reselect))

/-- Each of the six commands, run in this block with values in range, completes with ST_OK and its results: a configuration is applied and mirrored, and with a partner makes the block busy for 2000 ns; a report of levels alone sets ranks; a mapping 1 ms or more ahead is taken, mirrored and handed down; the time source takes its mode and slopes and returns the previous ones; a DPLL mode returns the previous mode; a frequency control word takes effect under the slew limit in Open-loop mode. -/
def Obligations.ReferenceCommands : Prop :=
  -- R97
  (∀ (h : CmdHdr) (c : RefCfg) (s : State), RunsHere (.cmdRefConfig h c) s → refCfgOk c = true → s.dpll.cfgBusyUntil ≤ s.htNs →
     exec (.cmdRefConfig h c) s = .next (complete
       (({ s with dpll := { s.dpll with cfgBusyUntil := if s.isPrimary = true ∧ s.pair.solo = false ∧ s.chordUp ≠ [] then s.htNs + 2000 else 0 } }.applyRefCfg c).mirror (.refConfig c)) h.src 0x0102 .ok [])) ∧
  -- R64
  (∀ (h : CmdHdr) (q0 q1 : QlReport) (s : State), RunsHere (.cmdRefReport h { ql0 := some q0, ql1 := some q1 }) s →
     q0.ssm < 16 → q1.ssm < 16 → q0.eql = none → q1.eql = none →
     exec (.cmdRefReport h { ql0 := some q0, ql1 := some q1 }) s = .next (complete
       ((s.reportQl 0 (some q0)).reportQl 1 (some q1)).reselect h.src 0x0103 .ok [])) ∧
  -- R468
  (∀ (h : CmdHdr) (ofs : Int) (utc leap eff : Nat) (s : State), RunsHere (.cmdTaiMap h ofs utc leap eff) s → s.isTop = true → s.isPrimary = true →
     s.htNs + 1000000 ≤ eff → leap < 3 → utc < 256 →
     exec (.cmdTaiMap h ofs utc leap eff) s = .next (complete
       (((s.takeMap { ofs := ofs, utc := utc, leap := leap, eff := eff }).mirror (.taiMap (some { ofs := ofs, utc := utc, leap := leap, eff := eff }))).mapDown
         { ofs := ofs, utc := utc, leap := leap, eff := eff }) h.src 0x0101 .ok (layout [(1, b2n s.time.pend.isSome)]))) ∧
  -- R144, R145
  (∀ (h : CmdHdr) (mode slope rec : Nat) (s : State), RunsHere (.cmdTsrcConfig h mode slope rec) s → mode ≤ 2 → 1 ≤ slope → slope ≤ 500 → 1 ≤ rec → rec ≤ 10000 →
     exec (.cmdTsrcConfig h mode slope rec) s = .next (complete
       { s with tsrc := { s.tsrc with mode := mode, slope := slope, recSlope := rec } } h.src 0x010A .ok
       (layout [(1, s.tsrc.mode), (4, s.tsrc.slope), (4, s.tsrc.recSlope)]))) ∧
  -- R93: mode 4, the open loop, at the top pair
  (∀ (h : CmdHdr) (n : Nat) (s : State), RunsHere (.cmdDpllMode h 4 n) s → s.isTop = true →
     ∃ t, exec (.cmdDpllMode h 4 n) s = .next (complete t h.src 0x0104 .ok (layout [(1, s.dpll.mode)])) ∧ t.dpll.mode = 4 ∧ t.dpll.active = none ∧
       t.dpll.openAt = s.htNs ∧ t.dpll.openExpired = false) ∧
  -- R94, R76
  (∀ (h : CmdHdr) (fcw : Int) (st : Nat) (s : State), RunsHere (.cmdDpllFcw h fcw st) s → fcw.natAbs ≤ fcwLimit.natAbs → st ≤ 4 → s.dpll.mode = 4 →
     exec (.cmdDpllFcw h fcw st) s = .next (complete
       (({ s with dpll := { s.dpll with openAt := s.htNs, openExpired := false, openStatus := wordOf st } }.enter (wordOf st)).fcwTo fcw)
       h.src 0x0105 .ok (layout [(8, twos 64 fcw)])))

/-- In a Hub that runs it, each operation of CMD_HOLDOVER_MODEL completes with ST_OK and the model's fields: a read changes nothing; a load of an acceptable model outside Holdover takes it and marks it loaded; a clear outside Holdover empties model and window; freeze stops learning and ends the present bin's count; resume lets it learn again. In Holdover a load and a clear fail with ST_CONFLICT and change nothing. -/
def Obligations.HoldoverModelCommands : Prop :=
  (∀ (h : CmdHdr) (s : State), RunsHere (.holdoverModelRead h) s →
     exec (.holdoverModelRead h) s = .next (complete s h.src 0x0106 .ok (modelOut s))) ∧
  (∀ (h : CmdHdr) (m : ModelData) (s : State), RunsHere (.holdoverModelLoad h m) s → s.modelOk m = true → s.dpll.state ≠ .holdover →
     ∃ t, exec (.holdoverModelLoad h m) s = .next (complete t h.src 0x0106 .ok (modelOut t)) ∧
       t = ({ s with dpll := { s.dpll with model := m, modelLoaded := true } }).refreshModel) ∧
  (∀ (h : CmdHdr) (s : State), RunsHere (.holdoverModelClear h) s → s.dpll.state ≠ .holdover →
     ∃ t, exec (.holdoverModelClear h) s = .next (complete t h.src 0x0106 .ok (modelOut t)) ∧
       t = ({ s with dpll := { s.dpll with model := {}, bins := [], modelLoaded := false, resid := 0, a1Fit := false, b1Fit := false, b2Fit := false } }).refreshModel) ∧
  (∀ (h : CmdHdr) (s : State), RunsHere (.holdoverModelFreeze h) s →
     exec (.holdoverModelFreeze h) s = .next (complete { s with dpll := { s.dpll with frozen := true, binClean := false } } h.src 0x0106 .ok (modelOut s))) ∧
  (∀ (h : CmdHdr) (s : State), RunsHere (.holdoverModelResume h) s →
     exec (.holdoverModelResume h) s = .next (complete { s with dpll := { s.dpll with frozen := false } } h.src 0x0106 .ok (modelOut s))) ∧
  -- Table 3.8: in Holdover
  (∀ (h : CmdHdr) (m : ModelData) (s : State), s.dpll.state = .holdover →
     (RunsHere (.holdoverModelLoad h m) s → s.modelOk m = true → exec (.holdoverModelLoad h m) s = .next (complete s h.src 0x0106 .conflict [])) ∧
     (RunsHere (.holdoverModelClear h) s → exec (.holdoverModelClear h) s = .next (complete s h.src 0x0106 .conflict [])))

/-- CMD_PLUMB LOAD stores the asymmetry of a port that is up and tells the other end; READ returns the port's values; CLEAR_SUSPECT clears SUSPECT; MEASURE with free resources starts at a multiple of 1024 ns at least 10,000 ns ahead and waits; its completion stores ASYM - theta for the means of both ends, the parent's end tells its means, and an end that stamped too few edges fails with ST_RANGE. An armed HT step from above moves HT at its effective HT. -/
def Obligations.PlumbAndHtStep : Prop :=
  (∀ (h : CmdHdr) (p : Nat) (a : Int) (s : State), RunsHere (.plumbLoad h p a) s → s.plumbPort p = none → -2147483648 ≤ a → a ≤ 2147483647 → s.tsrc.plumb = none →
     ∃ t, exec (.plumbLoad h p a) s = .next (complete t h.src 0x0109 .ok (plumbOut (t.port p))) ∧
       t = (s.storeAsym p a).send p (.plumb (.plumbEnd (some a)))) ∧
  (∀ (h : CmdHdr) (p : Nat) (s : State), RunsHere (.plumbRead h p) s → s.plumbPort p = none →
     exec (.plumbRead h p) s = .next (complete s h.src 0x0109 .ok (plumbOut (s.port p)))) ∧
  (∀ (h : CmdHdr) (p : Nat) (s : State), RunsHere (.plumbClearSuspect h p) s → s.plumbPort p = none →
     exec (.plumbClearSuspect h p) s = .next (complete (s.modPort p (fun o => { o with suspect := false })) h.src 0x0109 .ok
       (plumbOut { s.port p with suspect := false }))) ∧
  (∀ (h : CmdHdr) (a : PlumbArgs) (s : State), RunsHere (.plumbMeasure h a) s → s.plumbPort a.port = none → s.plumbCheck a.poChild a.chChild = none →
     a.poChild < 4 → a.poParent < 4 → a.chChild < 8 → a.chParent < 8 → 16 ≤ a.count → a.count ≤ 4096 →
     exec (.plumbMeasure h a) s = .next
       ((s.plumbTake { args := a, src := some h.src, start := roundUp (s.htNs + 10000) 1024 } a.poChild a.chChild).send a.port
         (.plumb (.plumbStart a.poParent a.chParent a.count (roundUp (s.htNs + 10000) 1024))))) ∧
  -- R140
  (∀ (s : State) (r : PlumbRun) (src : CmdSrc) (mp ep : Int), s.tsrc.plumb = some r → r.src = some src → r.peer = some (mp, ep) →
     r.args.count ≤ r.ext.1 → r.args.count ≤ r.got.1 → r.second + (r.args.count - 1) * 1024 + 64 ≤ s.htNs →
     ∀ dc dp, dc = (s.plumbMeans r).1 - ((s.plumbMeans r).2 + ep) / 2 → dp = mp - ((s.plumbMeans r).2 + ep) / 2 →
     ∃ t, exec .plumbComplete s = .next (complete (t.send r.args.port (.plumb (.plumbEnd (some ((s.port r.args.port).asym - (dc - dp) / 2))))) src 0x0109 .ok
         (plumbOut (t.port r.args.port))) ∧
       t = (s.plumbDrop.storeAsym r.args.port ((s.port r.args.port).asym - (dc - dp) / 2)).modPort r.args.port
         (fun o => { o with theta := (dc - dp) / 2, refDelay := (dc + dp) / 2 })) ∧
  -- R140: the parent's end tells its means
  (∀ (s : State) (r : PlumbRun), s.tsrc.plumb = some r → r.src = none → r.peer = none →
     r.args.count ≤ r.ext.1 → r.args.count ≤ r.got.1 → r.second + (r.args.count - 1) * 1024 + 64 ≤ s.htNs →
     exec .plumbComplete s = .next ({ s with tsrc := { s.tsrc with plumb := some { r with peer := some (s.plumbMeans r) } } }.send r.args.port
       (.plumb (.plumbMeans (s.plumbMeans r).1 (s.plumbMeans r).2)))) ∧
  -- R115, R140: an end that stamped fewer edges than it sent pulses fails with ST_RANGE
  (∀ (s : State) (r : PlumbRun) (src : CmdSrc), s.tsrc.plumb = some r → r.src = some src → r.got.1 < r.args.count →
     r.second + (r.args.count - 1) * 1024 + 64 ≤ s.htNs →
     exec .plumbComplete s = .next ((complete s.plumbDrop src 0x0109 .range []).send r.args.port (.plumb (.plumbEnd none)))) ∧
  -- R36
  (∀ (s : State) (d : Int) (eff : HT), s.time.step = some { d := d, eff := eff } → eff ≤ s.htNs → exec .htStepApply s = .next (s.stepHt d))

/-- An edge held long enough on a channel that is on, out of hold-off and at the other level moves the tracked level, and is accepted when its polarity is selected, in a Hub of the top pair as an edge of a reference too; hold-off ends by taking the present level; a gate boundary of a channel that is on ends its gate, in a Hub of the top pair with the reference's gate; that of a channel that is off only takes the waiting configuration and opens the next gate; the anchors take the count in bins and HT when HT is a multiple of 2^20 ns; a stamp ahead of the coarse count is none. CMD_TDC_CONFIG leaves the configuration waiting; CMD_TDC_CAL starts a calibration and waits, and its completion, after the last pulse, stores the mean of the stamped edges as the offset and returns it with the external delay, or fails with ST_RANGE when edges are missing. -/
def Obligations.EdgeMeasurement : Prop :=
  -- R102, R106, R105
  (∀ (s : State) (ch held stamp : Nat) (rising : Bool), ch < 8 → (s.tdcCh ch).cfg.en = true → (s.tdcCh ch).holdEnd = none → (s.tdcCh ch).level ≠ rising →
     (s.tdcCh ch).cfg.hyst + 1 ≤ held → s.seesInput ch = true → (s.tdcCh ch).loop = false →
     stamp + (s.tdcCh ch).cfg.hyst ≤ s.tickBins → s.tickBins < stamp + (s.tdcCh ch).cfg.hyst + 32 →
     (edgeSelected (s.tdcCh ch).cfg.edge rising = true →
       exec (.tdcEdgeAccept ch rising held stamp) s = .next (
         if s.isTop then ((s.modTdc ch (fun t => { t with level := rising })).modTdc ch (fun t => t.accept stamp)).refEdge ch stamp
         else (s.modTdc ch (fun t => { t with level := rising })).modTdc ch (fun t => t.accept stamp))) ∧
     (edgeSelected (s.tdcCh ch).cfg.edge rising = false →
       exec (.tdcEdgeAccept ch rising held stamp) s = .next (s.modTdc ch (fun t => { t with level := rising })))) ∧
  -- R103
  (∀ (s : State) (ch e : Nat) (level : Bool), (s.tdcCh ch).holdEnd = some e → e ≤ s.tdc.coarse * 8 →
     exec (.holdoffEnd ch level) s = .next (s.modTdc ch (fun t => { t with holdEnd := none, level := level }))) ∧
  -- R108: a channel that is off
  (∀ (s : State) (ch : Nat), ch < 8 → (s.tdcCh ch).cfg.en = false →
     (s.tdcCh ch).gateHt / ((s.tdcCh ch).cfg.gateMs * 1000000) < s.htNs / ((s.tdcCh ch).cfg.gateMs * 1000000) →
     exec (.tdcGateEnd ch) s = .next (s.modTdc ch (fun t =>
       { t with cfg := (s.tdcCh ch).pendCfg.getD t.cfg, pendCfg := none, gateStart := s.tdc.coarse, gateHt := s.htNs }))) ∧
  -- R110: a channel that is on ends its gate
  (∀ (s : State) (ch : Nat), ch < 8 → (s.tdcCh ch).cfg.en = true →
     (s.tdcCh ch).gateHt / ((s.tdcCh ch).cfg.gateMs * 1000000) < s.htNs / ((s.tdcCh ch).cfg.gateMs * 1000000) →
     exec (.tdcGateEnd ch) s = .next (
       if s.isTop then (s.modTdc ch (fun t => t.endGate s.tdc.coarse s.htNs)).refGate ch ((s.tdcCh ch).endGate s.tdc.coarse s.htNs).valid
         ((s.tdcCh ch).endGate s.tdc.coarse s.htNs).yPpb (s.tdcCh ch).gateHt
       else s.modTdc ch (fun t => t.endGate s.tdc.coarse s.htNs))) ∧
  -- R107
  (∀ (s : State), s.time.ht48 % 2 ^ 68 = 0 → s.tdc.ancHt ≠ BitVec.ofNat 32 (s.htNs / 2 ^ 20) → exec .tdcAnchorLatch s = .next
     { s with tdc := { s.tdc with ancCnt := BitVec.ofNat 32 s.tickBins, ancHt := BitVec.ofNat 32 (s.htNs / 2 ^ 20) } }) ∧
  -- R104
  (∀ (h : CmdHdr) (ch : Nat) (c : TdcCfg) (s : State), RunsHere (.cmdTdcConfig h ch c) s → ch < 8 → tdcCfgOk c = true → s.tdcFixed ch = false → s.inCal ch = false →
     exec (.cmdTdcConfig h ch c) s = .next (complete (s.modTdc ch (fun t => { t with pendCfg := some c })) h.src 0x0107 .ok [])) ∧
  -- R114
  (∀ (h : CmdHdr) (ch po count : Nat) (path : CalPath) (s : State), RunsHere (.cmdTdcCal h ch po path count) s → ch < 8 → po < 4 → 16 ≤ count → count ≤ 4096 →
     s.tdc.cal = none → s.tsrc.plumb = none → s.tdcFixed ch = false → s.inCal ch = false → (s.po po).mode = 0 → (s.isHub = false → s.canAlloc 1 true = true) →
     exec (.cmdTdcCal h ch po path count) s = .next { s.takeCal po ch with tdc := { (s.takeCal po ch).tdc with
       cal := some { ch := ch, po := po, path := path, count := count, start := roundUp (s.htNs + 10000) 1024, src := h.src } } }) ∧
  -- R115
  (∀ (s : State) (c : CalRun), s.tdc.cal = some c → c.start + (c.count - 1) * 1024 + 64 ≤ s.htNs →
     (c.got.1 < c.count → exec .tdcCalComplete s = .next (complete (s.endCal c) c.src 0x0108 .range [])) ∧
     (c.count ≤ c.got.1 → c.path = .internal →
       exec .tdcCalComplete s = .next (complete ((s.endCal c).modTdc c.ch (fun t => { t with calOfs := countMean c.got, calInternal := countMean c.got })) c.src 0x0108 .ok
         (layout [(8, twos 64 (countMean c.got)), (8, twos 64 0)]))) ∧
     (c.count ≤ c.got.1 → c.path ≠ .internal →
       exec .tdcCalComplete s = .next (complete ((s.endCal c).modTdc c.ch (fun t => { t with calOfs := countMean c.got })) c.src 0x0108 .ok
         (layout [(8, twos 64 (countMean c.got)), (8, twos 64 (countMean c.got - (s.tdcCh c.ch).calInternal))])))) ∧
  -- R115
  (∀ (s : State), (∀ c, s.tdc.cal = some c → s.htNs < c.start + (c.count - 1) * 1024 + 64) → exec .tdcCalComplete s = .next s) ∧
  -- R105: a stamp ahead of the coarse count is none
  (∀ (s : State) (ch held stamp : Nat) (rising : Bool), s.tickBins < stamp → exec (.tdcEdgeAccept ch rising held stamp) s = .next s)

/-- With the right to a bound queue of a Leaf, a write of word 0 to 6 goes to the staging buffer and answers without error, and the write of word 7 appends the entry when it is well formed and fewer than 256 are held; a malformed entry sets the queue's PUSH_ERR and reports ST_RANGE, a full queue sets PUSH_FULL and reports ST_BUSY. FLUSH empties the queue and ends Halted; RESUME of a Halted queue returns it to service. Without the right each answers an error and changes nothing else. -/
def Obligations.DocketPushAndCommit : Prop :=
  -- R160
  (∀ (s : State) (q w : Nat) (v : Word) (a : Nat), s.isHub = false → q < 16 → w < 7 → (s.queue q).owner.isSome = true → s.dkMay q a = true →
     exec (.docketPushWord q w v a) s = .next ((s.modQueue q (fun d => { d with staging := d.staging.set 0 w v })).answer 0 false)) ∧
  -- R160
  (∀ (s : State) (q : Nat) (v : Word) (a : Nat), s.isHub = false → q < 16 → (s.queue q).owner.isSome = true → s.dkMay q a = true →
     dkEntryOk (entryOfWords (s.queue q).staging v) (s.powerQueue q) = true → 0 < (s.queue q).entries.length → (s.queue q).entries.length < 256 →
     exec (.docketPushCommit q v a) s = .next ((s.answer 0 false).modQueue q (fun d =>
       { d with entries := (s.queue q).entries ++ [{ bits := entryOfWords (s.queue q).staging v }] }))) ∧
  -- R160: the two refusals
  (∀ (s : State) (q : Nat) (v : Word) (a : Nat), s.isHub = false → q < 16 → (s.queue q).owner.isSome = true → s.dkMay q a = true →
     (dkEntryOk (entryOfWords (s.queue q).staging v) (s.powerQueue q) = false →
       exec (.docketPushCommit q v a) s = .next (((s.answer 0 false).modQueue q (fun d => { d with pushErr := true })).dkReport q
         (dkTag (entryOfWords (s.queue q).staging v)) .range)) ∧
     (dkEntryOk (entryOfWords (s.queue q).staging v) (s.powerQueue q) = true → 256 ≤ (s.queue q).entries.length →
       exec (.docketPushCommit q v a) s = .next (((s.answer 0 false).modQueue q (fun d => { d with pushFull := true })).dkReport q
         (dkTag (entryOfWords (s.queue q).staging v)) .busy))) ∧
  -- R165
  (∀ (s : State) (q a : Nat), s.isHub = false → q < 16 → (s.queue q).owner.isSome = true → s.dkMay q a = true →
     exec (.docketFlush q a) s = .next ((s.modQueue q (fun d => { d with entries := [], halted := false, lastStrike := none, relH := none })).answer 0 false)) ∧
  -- R165
  (∀ (s : State) (q a : Nat), s.isHub = false → q < 16 → (s.queue q).halted = true → s.dkMay q a = true →
     exec (.docketResume q a) s = .next (((s.modQueue q (fun d => { d with halted := false })).dkHead q).answer 0 false)) ∧
  -- R160, R165: without the right
  (∀ (s : State) (q w a : Nat) (v : Word), s.dkMay q a = false →
     exec (.docketPushWord q w v a) s = .next (s.answer 0 true) ∧ exec (.docketPushCommit q v a) s = .next (s.answer 0 true) ∧
     exec (.docketFlush q a) s = .next (s.answer 0 true) ∧ exec (.docketResume q a) s = .next (s.answer 0 true))

/-- A head entry with no wait and a strike time of its own that lies at least 16 ns ahead and no earlier than the last strike is armed with that time; one whose strike time is too near fails with ST_LATE_STRIKE. A comparator that fires takes the head's action at its strike time and the next entry becomes head. CMD_DOCKET_LOAD binds a free queue with its comparators, loads a list of entries all together, and unbinds. -/
def Obligations.DocketArmsAndStrikes : Prop :=
  -- R161, R163, R489, R490
  (∀ (s : State) (q : Nat) (e : DkEntry) (r : List DkEntry), s.isHub = false → q < 16 → (s.queue q).owner.isSome = true → (s.queue q).halted = false → s.time.valid = true →
     (s.queue q).entries = e :: r → e.armed = none → dkWait e.bits = false → dkRel e.bits = false → (s.queue q).relH = none → (s.queue q).lastStrike = none →
     (dkStrike e.bits < s.htNs + 16 → exec (.docketEntryReady q) s = .next (s.dkFail q 0 .lateStrike)) ∧
     (s.htNs + 16 ≤ dkStrike e.bits → s.actionRefusal q e.bits = none →
       exec (.docketEntryReady q) s = .next (s.modQueue q (fun d => { d with entries := { e with armed := some (dkStrike e.bits) } :: r, relH := none })))) ∧
  -- R153, R159
  (∀ (s : State) (q : Nat) (e : DkEntry) (r : List DkEntry) (t : HT), s.isHub = false → s.time.valid = true → (s.queue q).entries = e :: r → e.armed = some t → t ≤ s.htNs →
     dkDone e.bits = false →
     exec (.docketStrike q) s = .next (((s.modQueue q (fun d => { d with entries := r, lastStrike := some t, relH := none })).act (s.queue q).slot e.bits t).dkHead q)) ∧
  -- R155
  (∀ (h : CmdHdr) (q : Nat) (o : Owner) (paired : Bool) (s : State), RunsHere (.docketBind h q o paired) s → s.ownerRefusal h q o = none → (s.queue q).owner = none →
     s.canAlloc (if paired then 2 else 1) (s.ownerTenant o) = true →
     ∃ t, exec (.docketBind h q o paired) s = .next (complete t h.src 0x0201 .ok (layout (t.dkOut q))) ∧
       t = (s.modQueue q (fun d => { d.unbound with owner := some o, paired := paired })).alloc (if paired then 2 else 1) (.queue q)) ∧
  -- R160: entries appended to a queue that holds some
  (∀ (h : CmdHdr) (q n : Nat) (o : Owner) (l : List (BitVec 256)) (s : State), RunsHere (.docketLoad h q o (.ok l) n false) s → s.ownerRefusal h q o = none →
     (s.queue q).owner = some o → 1 ≤ n → n ≤ 256 → firstBad (s.powerQueue q) 0 l = none → (s.queue q).entries ≠ [] → (s.queue q).entries.length + l.length ≤ 256 →
     ∃ t, exec (.docketLoad h q o (.ok l) n false) s = .next (complete t h.src 0x0201 .ok (layout (t.dkOut q))) ∧
       t = s.modQueue q (fun d => { d with entries := d.entries ++ l.map (fun e => ({ bits := e } : DkEntry)) })) ∧
  (∀ (h : CmdHdr) (q : Nat) (o : Owner) (s : State), RunsHere (.docketUnbind h q o) s → s.ownerRefusal h q o = none → (s.queue q).owner = some o →
     ∃ t, exec (.docketUnbind h q o) s = .next (complete t h.src 0x0201 .ok (layout (t.dkOut q))) ∧ t = (s.modQueue q DkQueue.unbound).release (.queue q))

/-- An operator's write of the high strike word arms a Direct frame channel when the strike lies at least 16 ns ahead, and sets LATE and disarms it when it does not; the pending strike fires at its time. A Direct channel keeps the tag that it had when it was armed. A Periodic output rises when its edge is due and VALID, and falls when its width has passed; the channels that observe it see the edges. CMD_PULSE_CONFIG off releases the output; CMD_PULSE_ALIGN of Periodic outputs waits for its HT, at which each takes ALIGN from OFS and the last completes the command. -/
def Obligations.FramesAndPulses : Prop :=
  -- R170
  (∀ (s : State) (c : Nat) (v : Word), s.isHub = false → c < 4 → (s.frame c).mode = 1 →
     ((s.frame c).lo.toNat + v.toNat * 2 ^ 32 < s.htNs + 16 →
       exec (.frameStrikeArm c v 0) s = .next (((s.modFrame c (fun f => { f with hi := v })).answer 0 false).modFrame c (fun f => { f with armed := none, late := true }))) ∧
     (s.htNs + 16 ≤ (s.frame c).lo.toNat + v.toNat * 2 ^ 32 →
       exec (.frameStrikeArm c v 0) s = .next (((s.modFrame c (fun f => { f with hi := v })).answer 0 false).modFrame c
         (fun f => { f with armed := some ((s.frame c).lo.toNat + v.toNat * 2 ^ 32), armTag := f.tag })))) ∧
  -- R170
  (∀ (s : State) (c : Nat) (t : HT), s.isHub = false → s.time.valid = true → (s.frame c).armed = some t → t ≤ s.htNs →
     exec (.frameDirectStrike c) s = .next (s.modFrame c (fun f => { f with go := !f.go, tagOut := (s.frame c).armTag, armed := none, lastStamp := BitVec.ofNat 32 t }))) ∧
  -- R171
  (∀ (s : State) (n : Nat), n < 4 → s.time.valid = true → (s.po n).mode = 1 → s.edgeDue n = true →
     ∀ r, r = ((s.htNs : Int) - s.pulsePhase n s.htNs).toNat →
     ∃ t, exec (.pulseEdge n) s = .next t ∧ t = (s.setPo n true r).modPo n (fun o => { o with fallAt := some (r + o.width), lastRise := some r }) ∧
       t.po n = { s.po n with high := true, fallAt := some (r + (s.po n).width), lastRise := some r }) ∧
  -- R172
  (∀ (s : State) (n : Nat) (t : HT), n < 4 → (s.po n).fallAt = some t → t ≤ s.htNs → 
     ∃ u, exec (.pulseWidthEnd n) s = .next u ∧ u = (s.setPo n false t).modPo n (fun o => { o with fallAt := none }) ∧
       u.po n = { s.po n with high := false, fallAt := none }) ∧
  -- R170 to R175: an output that is turned off
  (∀ (h : CmdHdr) (n : Nat) (a : PulseArgs) (s : State), RunsHere (.cmdPulseConfig h a) s → a.target = .output n → n < 4 → a.mode = 0 → (s.po n).mode = 1 →
     exec (.cmdPulseConfig h a) s = .next (complete (((s.release (.pulse n)).setPo n false s.htNs).modPo n (fun o =>
       { o with mode := 0, slot := 0, gen := 0, fallAt := none, lastRise := none })) h.src 0x0202 .ok (layout [(1, 1)]))) ∧
  -- R174
  (∀ (h : CmdHdr) (n eff : Nat) (s : State), RunsHere (.cmdPulseAlign h (2 ^ n) eff) s → n < 4 → s.htNs + 1000000 ≤ eff → (s.po n).mode = 1 →
     exec (.cmdPulseAlign h (2 ^ n) eff) s = .next (s.modPo n (fun o => { o with alignPend := some eff, alignSrc := some h.src }))) ∧
  -- R174
  (∀ (s : State) (n : Nat) (eff : HT) (src : CmdSrc), n < 4 → s.isHub = true → (s.po n).alignPend = some eff → eff ≤ s.htNs → (s.po n).alignSrc = some src →
     exec (.pulseAlignApply n) s = .next (complete (s.modPo n (fun o => { o with
         align := s.time.ofs, alignPend := none, alignSrc := none, realign := o.realign || (decide (o.mode = 1) && decide (s.time.ofs - (s.po n).align ≠ 0))
         changedAt := if s.time.ofs - (s.po n).align = 0 then o.changedAt else some s.htNs })) src 0x0203 .ok
       (layout [(8, twos 64 s.time.ofs), (8, twos 64 (-(s.time.ofs - (s.po n).align)))])))

/-- For a virtual ID of a Leaf that is mapped in a context that may be used: page 0 sets a plain word to the value; page 1 adds to a plain word that does not overflow and to an unpaired counter, which wraps; page 2 subtracts from a plain word that does not underflow; page 3 returns the value before the update and adds 1. The access answers without an error, every other physical word keeps its value, a read of pages 0 to 2 returns the value and changes no word, and outside the sync store, the messages that leave or wait for a link and the register answer nothing changes. -/
def Obligations.SyncWindowWritesTheWord : Prop :=
  -- page 0
  (∀ (s : State) (c vid : Nat) (v : Word), s.isHub = false → vid < 4096 → s.syncRefusal c vid = none → (s.tr c vid).counter = false →
     ∃ t, exec (.syncSet c vid v) s = .next t ∧ t.rg = { rdata := 0, err := false } ∧ (∀ q, t.word q = if q = (s.tr c vid).phys then v else s.word q) ∧
       t = { s with sync := t.sync, flt := t.flt, tx := t.tx, rg := t.rg }) ∧
  -- page 1
  (∀ (s : State) (c vid : Nat) (v : Word), s.isHub = false → vid < 4096 → s.syncRefusal c vid = none → v ≠ 0 →
     ((s.tr c vid).counter = true ∧ (s.tr c vid).role = 0 ∨ (s.tr c vid).counter = false ∧ (s.word (s.tr c vid).phys).toNat + v.toNat ≤ 0xFFFFFFFF) →
     ∃ t, exec (.syncAdd c vid v) s = .next t ∧ t.rg = { rdata := 0, err := false } ∧
       (∀ q, t.word q = if q = (s.tr c vid).phys then s.word (s.tr c vid).phys + v else s.word q) ∧
       t = { s with sync := t.sync, flt := t.flt, tx := t.tx, rg := t.rg }) ∧
  -- page 2
  (∀ (s : State) (c vid : Nat) (v : Word), s.isHub = false → vid < 4096 → s.syncRefusal c vid = none → v ≠ 0 → (s.tr c vid).counter = false →
     v.toNat ≤ (s.word (s.tr c vid).phys).toNat →
     ∃ t, exec (.syncSubtract c vid v) s = .next t ∧ t.rg = { rdata := 0, err := false } ∧
       (∀ q, t.word q = if q = (s.tr c vid).phys then s.word (s.tr c vid).phys - v else s.word q) ∧
       t = { s with sync := t.sync, flt := t.flt, tx := t.tx, rg := t.rg }) ∧
  -- page 3
  (∀ (s : State) (c vid : Nat), s.isHub = false → vid < 4096 → s.syncRefusal c vid = none →
     ((s.tr c vid).counter = true ∧ (s.tr c vid).role = 0 ∨ (s.tr c vid).counter = false ∧ (s.word (s.tr c vid).phys).toNat + 1 ≤ 0xFFFFFFFF) →
     ∃ t, exec (.syncReadIncrement 3 c vid) s = .next t ∧ t.rg = { rdata := s.word (s.tr c vid).phys, err := false } ∧
       (∀ q, t.word q = if q = (s.tr c vid).phys then s.word (s.tr c vid).phys + 1 else s.word q) ∧
       t = { s with sync := t.sync, flt := t.flt, tx := t.tx, rg := t.rg }) ∧
  -- pages 0 to 2, read
  (∀ (s : State) (page c vid : Nat), s.isHub = false → page < 3 → vid < 4096 → s.syncRefusal c vid = none →
     exec (.syncReadIncrement page c vid) s = .next (s.answer (s.word (s.tr c vid).phys) false))

/-- When an access of the sync window names an unmapped virtual ID, or a context that is not open or is being cleared, or a plain word would overflow or underflow without saturation, the access answers an error with data 0, the failure is recorded in LF_SYNC_ERR and LF_SYNC_ERR_CODE, and every word keeps its value. -/
def Obligations.SyncFailuresLeaveWords : Prop :=
  -- R181
  (∀ (s : State) (page c vid : Nat) (v : Word) (k : St), s.isHub = false → page < 4 → vid < 4096 → s.syncRefusal c vid = some k →
     (∀ i, (i = .syncSet c vid v ∨ i = .syncAdd c vid v ∨ i = .syncSubtract c vid v ∨ i = .syncReadIncrement page c vid) →
       exec i s = .next ((s.syncFail c vid 0 k).answer 0 true)) ∧ (∀ q, ((s.syncFail c vid 0 k).answer 0 true).word q = s.word q)) ∧
  -- R183
  (∀ (s : State) (c vid : Nat) (v : Word), s.isHub = false → vid < 4096 → s.syncRefusal c vid = none → (s.tr c vid).counter = false → (s.tr c vid).saturate = false → v ≠ 0 →
     (0xFFFFFFFF < (s.word (s.tr c vid).phys).toNat + v.toNat → exec (.syncAdd c vid v) s = .next ((s.syncFail c vid 0 .overflow).answer 0 true)) ∧
     ((s.word (s.tr c vid).phys).toNat < v.toNat → exec (.syncSubtract c vid v) s = .next ((s.syncFail c vid 0 .underflow).answer 0 true)))

/-- A wait request on a free waiter and a mapped word starts the wait with its threshold, gate and deadline and compares the word from then on, while a refused one aborts on c + 3; a time-out ends the wait with reason 3 and a cancel with the right with reason 2; a queued update is applied when the word is free on this tick. -/
def Obligations.WaitersAndQueuedUpdates : Prop :=
  -- R187 to R190
  (∀ (s : State) (r : WaitReq), s.isHub = false → r.waiter < 64 → r.vid < 4096 → s.syncRefusal r.ctx r.vid = none → (s.waiter r.waiter).state = 0 →
     (s.waiter r.waiter).abortAt = none →
     exec (.waitRequest r) s = .next ((s.modWaiter r.waiter (fun x => ({ state := 1, last := x.last, slot := r.ctx, vid := r.vid, phys := (s.tr r.ctx r.vid).phys
                                                                         counter := (s.tr r.ctx r.vid).counter, thr := r.thr, gate := r.gate, gateAt := s.cycle + 3, abortOut := x.abortOut
                                                                         deadline := if r.tmo = 0 then none else some (s.cycle + 2 + r.tmo * 1000) } : Waiter))).wake (s.tr r.ctx r.vid).phys)) ∧
  -- R190: a request that is refused aborts on c + 3
  (∀ (s : State) (r : WaitReq) (k : St), s.isHub = false → r.waiter < 64 → r.vid < 4096 → s.syncRefusal r.ctx r.vid = some k → (s.waiter r.waiter).state = 0 →
     (s.waiter r.waiter).abortAt = none →
     exec (.waitRequest r) s = .next (((s.modWaiter r.waiter (fun x =>
       { x with slot := r.ctx, vid := r.vid, deadline := none, abortAt := some (x.abortAt.getD (s.cycle + 3)) })).ctxIrq r.ctx 2).syncFail r.ctx r.vid 2 k)) ∧
  -- R190
  (∀ (s : State) (w : Nat) (d : HT), s.isHub = false → w < 64 → (s.waiter w).deadline = some d → (s.waiter w).watching = true → d < s.cycle →
     exec (.waitTimeout w) s = .next (s.endWait w 3)) ∧
  -- R190
  (∀ (s : State) (w a : Nat), s.isHub = false → w < 64 → s.mayUse a (s.waiter w).slot = true → (s.waiter w).watching = true →
     exec (.waitCancel w a) s = .next ((s.endWait w 2).answer 0 false)) ∧
  -- R184
  (∀ (s : State) (p : Nat) (u : SyncUpd), s.isHub = false → s.sync.used.contains p = false → nextUpd s.htNs p s.sync.queue = some u → (s.tr u.slot u.vid).valid = true →
     (s.tr u.slot u.vid).phys = p →
     exec (.syncUpdateApply p) s = .next ({ s with sync := { s.sync with queue := s.sync.queue.erase u } }.addWord u.slot u.vid u.amount u.source).1)

/-- In a Leaf that runs them while the context is not being cleared: MAP gives each free virtual ID of the range the lowest free word, set to 0; UNMAP returns the range to the pool and checks the context's queues again; READ returns the entries of the range and the free words; SET_MODE sets KIND and BOUND of a mapped range, whose words are then compared anew; a pair of two free counter words is defined with both words set to 0 and deleted again. -/
def Obligations.SyncCommands : Prop :=
  -- R179: one virtual ID
  (∀ (h : CmdHdr) (vid : Nat) (k b : Bool) (s : State), RunsHere (.syncMap h vid 1 k b) s → (s.slot h.slot).clearing = false → vid < 4096 → (s.tr h.slot vid).valid = false →
     1 ≤ s.freeWords →
     ∀ p, pickFree s.usedWords 65536 1 0 = [p] →
     ∃ t, exec (.syncMap h vid 1 k b) s = .next (complete t h.src 0x0301 .ok (layout [(4, t.freeWords)])) ∧
       t = (s.setTr h.slot vid { valid := true, phys := p, counter := k, saturate := b && !k }).setWord p 0) ∧
  (∀ (h : CmdHdr) (first n : Nat) (s : State), RunsHere (.syncUnmap h first n) s → (s.slot h.slot).clearing = false → rangeOk first n = true →
     (vidsOf first n).any (fun v => !(s.tr h.slot v).valid || (s.tr h.slot v).role != 0) = false →
     ∃ t, exec (.syncUnmap h first n) s = .next (complete t h.src 0x0301 .ok (freeOut t)) ∧
       t = ((vidsOf first n).foldl (fun s v => s.setTr h.slot v {}) s).recheckQueues h.slot) ∧
  (∀ (h : CmdHdr) (first n : Nat) (s : State), RunsHere (.syncMapRead h first n) s → (s.slot h.slot).clearing = false → rangeOk first n = true →
     exec (.syncMapRead h first n) s = .next (complete s h.src 0x0301 .ok
       (layout ((vidsOf first n).flatMap (fun v => entryOut (s.tr h.slot v)) ++ [(4, s.freeWords)])))) ∧
  -- R186: with no waiter that runs on the words
  (∀ (h : CmdHdr) (vid : Nat) (k b : Bool) (s : State), RunsHere (.syncSetMode h vid 1 k b) s → (s.slot h.slot).clearing = false → vid < 4096 → (s.tr h.slot vid).valid = true →
     (s.tr h.slot vid).role = 0 → (∀ w, (s.waiter w).state = 0) →
     ∃ t, exec (.syncSetMode h vid 1 k b) s = .next (complete t h.src 0x0301 .ok (freeOut t)) ∧
       t = ((s.setTr h.slot vid { s.tr h.slot vid with counter := k, saturate := b && !k }).wake (s.tr h.slot vid).phys).arrivals h.slot (s.tr h.slot vid).phys) ∧
  -- R185
  (∀ (h : CmdHdr) (p c n : Nat) (s : State), RunsHere (.syncPairDefine h p c n) s → (s.slot h.slot).clearing = false → p < 4096 → c < 4096 → p ≠ c → 1 ≤ n → n ≤ 0x7FFFFFFF →
     (s.tr h.slot p).valid = true → (s.tr h.slot c).valid = true → (s.tr h.slot p).counter = true → (s.tr h.slot c).counter = true →
     (s.tr h.slot p).role = 0 → (s.tr h.slot c).role = 0 →
     exec (.syncPairDefine h p c n) s = .next (complete
       ((((s.setTr h.slot p { s.tr h.slot p with role := 1, partner := c, limit := n }).setTr h.slot c { s.tr h.slot c with role := 2, partner := p, limit := n }).store
         h.slot (s.tr h.slot p).phys 0).store h.slot (s.tr h.slot c).phys 0) h.src 0x0302 .ok [])) ∧
  (∀ (h : CmdHdr) (p c : Nat) (s : State), RunsHere (.syncPairDelete h p c) s → (s.slot h.slot).clearing = false → p < 4096 → c < 4096 →
     (s.tr h.slot p).valid = true → (s.tr h.slot c).valid = true → (s.tr h.slot p).role = 1 → (s.tr h.slot c).role = 2 → (s.tr h.slot p).partner = c →
     exec (.syncPairDelete h p c) s = .next (complete
       ((s.setTr h.slot p { s.tr h.slot p with role := 0, partner := 0, limit := 0 }).setTr h.slot c { s.tr h.slot c with role := 0, partner := 0, limit := 0 })
       h.src 0x0302 .ok []))

/-- A Hub adds an arrival from a child of the barrier's plan to its instance, mirrors it and completes the instance when it can. A Leaf that receives the first release of an instance in time keeps it until its strike time, at which every release of that time fires. CMD_BARRIER_DEFINE with a well-formed barrier of this tier is distributed; CMD_BARRIER_DELETE of one with no open instance removes it here and at the partner and returns the count of completed instances. -/
def Obligations.BarrierMessagesAndCommands : Prop :=
  -- R199
  (∀ (s0 s : State) (l : Link) (c g id n : Nat) (d : Option Nat) (b : HBar), s0.takeFlit l 1 = (s, true) → s.params.isDown l.port = true → (s.port l.port).up = true → s.openCtx c g = true →
     s.hbar c id = some b → (s.kidsOf c b.d.spanTier b.d.mask).contains (s.portChild l.port) = true →
     exec (.barrierArrivalReceive l c g id n d) s0 = .next
       (((s.setHbar c id (some (b.setInst { b.inst n with arrived := addNew (b.inst n).arrived (s.portChild l.port), ds := (b.inst n).ds.set 0 (s.portChild l.port) (d.getD 0) }))).mirror
         (.barrierArrival c g id n (s.portChild l.port) d)).completeInst c id n)) ∧
  -- R202
  (∀ (s0 s : State) (l : Link) (c g id n : Nat) (t : HT) (b : LBar), s0.takeFlit l 1 = (s, true) → s.isHub = false → s.params.hasPort l.port = true → s.params.isDown l.port = false →
     (s.port l.port).up = true → s.openCtx c g = true → s.lbar c id = some b → b.lastInst = none → s.htNs + 4 ≤ t →
     ∃ u : State, exec (.barrierReleaseReceive l c g id n t) s0 = .next u ∧ u.lbar c id = some { b with lastInst := some n, lastS := t } ∧
       u.sync.rels = s.sync.rels ++ [({ slot := c, gen := g, id := id, inst := n, s := t, fireAt := t, port := l.port, rid := b.d.releaseId, launch := b.d.launch } : Rel)] ∧
       (∀ q, u.word q = s.word q) ∧ u = { s with sync := { s.sync with bars := u.sync.bars, rels := u.sync.rels } }) ∧
  -- R202: one release in the table
  (∀ (s : State) (r : Rel), s.isHub = false → s.time.valid = true → s.sync.rels = [r] → r.fireAt ≤ s.htNs →
     exec .barrierReleaseFire s = .next (({ s with sync := { s.sync with rels := [] } }).fireRelease r)) ∧
  -- R197
  (∀ (h : CmdHdr) (d : BarrierDef) (s : State), RunsHere (.cmdBarrierDefine h d) s → barDefOk d = true → d.spanTier = s.tier →
     exec (.cmdBarrierDefine h d) s = .next (s.distBegin (.barrierDefine h.slot h.gen d) h.src none [] none)) ∧
  -- R205
  (∀ (h : CmdHdr) (id : Nat) (b : HBar) (s : State), RunsHere (.cmdBarrierDelete h id) s → s.hbar h.slot id = some b → id < 64 → b.d.spanTier = s.tier → s.instOpen b = false →
     exec (.cmdBarrierDelete h id) s = .next (complete (s.hubDelBar h.slot id) h.src 0x0304 .ok (layout [(4, b.completed)])))

/-- At the serving Hub: CMD_CTX_OPEN of an operator context with a free slot draws its key and distributes the open; CMD_CTX_SHAPE and CMD_CTX_CLOSE of a context that spans here are distributed, CLOSE once only. At a block: an open that arrives for a free slot installs the context and is acknowledged; a clear that was ordered runs on its tick and afterwards completes; a freed pane is cleared; a slot whose reset is due starts again at generation 0. -/
def Obligations.ContextLifecycle : Prop :=
  -- R433, R434, R544, R546
  (∀ (h : CmdHdr) (a : CtxOpenArgs) (c : Nat) (s : State), RunsHere (.cmdCtxOpen h a) s → 1 ≤ a.spanTier → a.spanTier ≤ 3 → s.openRange a = false → s.sec.keysValid = true →
     s.chooseSlot a = .ok c → a.tenantKeyed = false →
     exec (.cmdCtxOpen h a) s = .next ({ s with freeCtr := s.freeCtr + 1 }.distBegin
       (.ctxOpen { slot := c, gen := s.nextGen a c, radio := a.radio, enc := a.enc, tenantKeyed := false, key := Config.freeRandom s.freeCtr, span := a.spanTier, mask := some a.mask })
       h.src none (layout [(2, c), (2, s.nextGen a c)]) none)) ∧
  -- R289, R290, R292
  (∀ (h : CmdHdr) (w r b : Nat) (full : Bool) (s : State), RunsHere (.cmdCtxShape h w r b full) s → shapeRange w r b = true → (s.slot h.slot).spanHere = true →
     exec (.cmdCtxShape h w r b full) s = .next (s.distBegin (.ctxShape h.slot h.gen w r b full) h.src none
       (layout [(2, (s.shapeOf h.slot).weight), (4, (s.shapeOf h.slot).rate), (4, (s.shapeOf h.slot).burst)]) none)) ∧
  -- R441
  (∀ (h : CmdHdr) (s : State), RunsHere (.cmdCtxClose h) s → h.slot ≠ 0 → (s.slot h.slot).spanHere = true → (s.slot h.slot).clearing = false → (s.slot h.slot).clearReq = false →
     exec (.cmdCtxClose h) s = .next ((s.modSlot h.slot (fun x => { x with closing := some h.src })).distBegin (.ctxClose h.slot h.gen 0) h.src none [] none)) ∧
  -- R434: at a Leaf
  (∀ (s0 s : State) (l : Link) (m : CtxMsg) (k : PortKeys), s0.takeFlit l 1 = (s, true) → s.isHub = false → s.params.isUp l.port = true → (s.port l.port).up = true → (s.port l.port).keys = some k →
     (s.slot m.slot).free = true → m.slot < s.params.contexts →
     ∃ t : State, exec (.contextMessageReceive l m) s0 = .next (t.send l.port (.distAck (openId m) .ok (t.ackInfo (.ctxOpen { m with key := Config.unwrap k.wrap m.key })))) ∧
       (t.slot m.slot).open_ = true ∧ (t.slot m.slot).lastGen = m.gen ∧ (t.slot m.slot).key = Config.unwrap k.wrap m.key ∧ (∀ c, c ≠ m.slot → t.slot c = s.slot c) ∧
       t = { s with ctx := t.ctx, scriv := t.scriv }) ∧
  -- R195, R491
  (∀ (s : State) (c : Nat), c ≠ 0 → (s.slot c).clearReq = true → (s.slot c).open_ = true →
     ∃ t : State, exec (.contextClear c) s = .next (t.modSlot c (fun x => { x with clearReq := false, clearing := true, key := 0, irq := 0, irqEn := 0 })) ∧
       t.modSlot c (fun x => { x with clearReq := false, clearing := true, key := 0, irq := 0, irqEn := 0 }) = s.clearTick c) ∧
  -- R195: with no one to answer
  (∀ (s : State) (c : Nat), (s.slot c).clearing = true → (s.slot c).ackTo = none → s.sync.freeing.get [] c = [] → s.scriv.dists = [] →
     ∃ t : State, exec (.contextClearComplete c) s = .next t ∧ (t.slot c).open_ = false ∧ (t.slot c).clearing = false ∧ (t.slot c).clearedAt = s.htNs ∧
       (∀ d, d ≠ c → t.slot d = s.slot d) ∧ t = { s with ctx := t.ctx, sync := { s.sync with freeing := t.sync.freeing, clearAt := t.sync.clearAt } }) ∧
  -- R491
  (∀ (s : State) (t p : Nat), t < s.params.tiles → p < s.params.tilePanes → (s.pane t p).dirty = true →
     exec (.paneClearAfterTeardown t p) s = .next (s.modPane t p (fun x => { x with dirty := false }))) ∧
  -- R438
  (∀ (s : State) (c : Nat), (s.slot c).resetting = true → (s.slot c).open_ = false → (s.slot c).clearing = false → s.flushedSince (s.slot c).clearedAt = true →
     exec (.slotResetComplete c) s = .next (s.modSlot c (fun x => { x with lastGen := 0, resetting := false })))

/-- At a Leaf, a well-formed plan of a local reduction that the Leaf can hold completes with the number of chunks and the panes reserved; CLOSE of an idle local reduction gives its panes back; CMD_COLL_BIND of an idle collective keeps the source address; a start of a bound, idle collective with elements makes an instance run, of no elements ends it at once; a query latches the status of a handle in the query registers. -/
def Obligations.CollectivesOfALeaf : Prop :=
  -- R254, R276
  (∀ (h : CmdHdr) (a : Nat) (d : BitVec 512) (w : Nat) (t s : State), RunsHere (.collPlanOpen h a (.ok d) w) s → a % 64 = 0 → s.isHub = false → h.access = 0 → s.openCtx (dSlot d) (dGen d) = true →
     dRangeOk d = true → 1 ≤ w → w ≤ 64 → dSpan d = 0 → dMask d = 0 → dK d 1 ≤ 2 ^ 31 → s.leafTake d w = .ok t →
     exec (.collPlanOpen h a (.ok d) w) s = .next (complete t h.src 0x0401 .ok (layout [(4, dChunks d), (2, (t.ackInfo (.collOpen d w)).panes)]))) ∧
  -- R276
  (∀ (h : CmdHdr) (c : Nat) (x : LColl) (s : State), RunsHere (.collPlanClose h c) s → s.isHub = false → s.lcoll h.slot c = some x → c < 512 → dSpan x.desc = 0 → x.running = false →
     s.armedColl h.slot c = false → exec (.collPlanClose h c) s = .next (complete (s.leafClose h.slot c) h.src 0x0401 .ok [])) ∧
  -- R255
  (∀ (h : CmdHdr) (c src : Nat) (x : LColl) (s : State), RunsHere (.cmdCollBind h c src) s → s.lcoll h.slot c = some x → c < 512 → src % 64 = 0 → x.running = false →
     exec (.cmdCollBind h c src) s = .next (complete (s.setLcoll h.slot c (some { x with src := some src })) h.src 0x0402 .ok [])) ∧
  -- R258: with elements
  (∀ (s : State) (c : Nat) (v : Word) (x : LColl), s.isHub = false → (c ≠ 0 → s.openCtx c (s.slot c).lastGen = true) → s.lcoll c (v.toNat % 512) = some x → x.src.isSome = true →
     x.running = false → dCount x.desc ≠ 0 →
     exec (.collStart c v) s = .next ((s.setLcoll c (v.toNat % 512) (some { x with
       started := x.started + 1, chunks := [], sent := 0, committed := 0, noSignal := false, stopped := false, owed := none, running := true, ended := false })).answer 0 false)) ∧
  -- R258: without elements and without a signal
  (∀ (s : State) (c : Nat) (v : Word) (x : LColl), s.isHub = false → (c ≠ 0 → s.openCtx c (s.slot c).lastGen = true) → s.lcoll c (v.toNat % 512) = some x → x.src.isSome = true →
     x.running = false → dCount x.desc = 0 → dSigEn x.desc = false →
     exec (.collStart c v) s = .next ((s.setLcoll c (v.toNat % 512) (some { x with
       started := x.started + 1, chunks := [], sent := 0, committed := 0, noSignal := false, stopped := false, owed := none
       running := false, ended := true, failed := false, code := 0, flags := 0 })).answer 0 false)) ∧
  -- R277
  (∀ (s : State) (c : Nat) (v : Word) (x : LColl), s.isHub = false → (s.slot c).clearing = false → s.lcoll c (v.toNat % 512) = some x →
     exec (.collQuery c v) s = .next ({ s with coll := { s.coll with
       qSlot := some c
       qState := BitVec.ofNat 32 (x.stateVal + (x.started - 1) % 65536 * 65536)
       qCode := BitVec.ofNat 32 (x.code % 65536 + x.flags % 128 * 65536)
       qWin := BitVec.ofNat 32 (min 64 (x.sent - x.committed).toNat + x.w * 256) } }.answer 0 false))

/-- At a Leaf with a running instance: a source beat in order joins the chunk's buffer; the drain of a local reduction whose checks agree frees its panes and writes the rounded result at its place in DEST; CHUNK_SEND hands the flits of the chunk that is next to the ports that carry it and counts it as sent; a result flit takes its place in the result at its offset; a commit message with every result byte writes them at the chunk's first element and counts the chunk as committed; the fabric's answer ends the chunk; a replay request answers with the mark and the retained stream. -/
def Obligations.ContributionsAndResultsAtALeaf : Prop :=
  -- R509: a beat that does not complete the source
  (∀ (s : State) (k : ChunkKey) (x : LColl) (l : List Byte), s.isHub = false → s.lrun k = some x → x.w ≠ 0 → x.owed = none → x.stopped = false →
     (x.chunk k.chunk).sent = false → (x.chunk k.chunk).done = false → (x.chunk k.chunk).stuck = false → (x.chunk k.chunk).writing = false → (x.chunk k.chunk).stream = none →
     (x.chunk k.chunk).panes = [] → l ≠ [] → srcRun x.desc k.chunk (x.chunk k.chunk).buf.length l.length = true → (x.chunk k.chunk).buf.length + l.length ≠ srcLen x.desc k.chunk →
     exec (.fabricReadResponse k (x.src.getD 0 + srcOfs x.desc k.chunk (x.chunk k.chunk).buf.length) (some (l, false)) none) s = .next
       (s.modLchunk k.slot k.handle k.chunk (fun c => { c with buf := c.buf ++ l }))) ∧
  -- R236: the drain of a local reduction
  (∀ (s : State) (k : ChunkKey) (x : LColl) (t : Nat) (r : List Nat) (ps : List Pane) (out : List Byte) (fl : Nat), s.isHub = false → s.lrun k = some x →
     (x.chunk k.chunk).tiles = t :: r → dSpan x.desc = 0 → (∀ e ∈ (x.chunk k.chunk).panes, (s.pane e.1 e.2).check x.desc e.2 1 = none) →
     r.foldl (fun a t => joinPanes a (((x.chunk k.chunk).on t).map (fun p => s.pane t p))) (((x.chunk k.chunk).on t).map (fun p => s.pane t p)) = ps →
     resultOf x.desc (dElems x.desc k.chunk) ps = (out, fl) →
     exec (.drainComplete k none) s = .next
       (((s.dropAcc (x.chunk k.chunk).panes).modLchunk k.slot k.handle k.chunk (fun c => { c with
           panes := [], buf := [], bad := [], writing := true, cflags := fl ||| (x.chunk k.chunk).flags })).fabricWrite
         (dDest x.desc + dPer x.desc * k.chunk * outWidth x.desc) out (bit (fl ||| (x.chunk k.chunk).flags) 6) (dQos x.desc))) ∧
  -- R262: its flits wait in order at the ports that carry the chunk, it is sent, and SENT rises
  (∀ (s : State) (c h n : Nat) (x : LColl), s.isHub = false → s.lcoll c h = some x → s.leafNext x = some n → s.openCtx c (dGen x.desc) = true → s.sendPorts n ≠ [] →
     exec (.chunkSend c h n) s = .next ((s.sendTurn (s.sendPorts n)
         ((x.chunk n).flits.map (fun d => TxMsg.contribution { slot := c, gen := dGen x.desc, handle := h, inst := x.started - 1, chunk := n } d))).setLcoll c h (some { x with
           sent := x.sent + 1, chunks := x.chunks.set {} n { x.chunk n with sent := true } }))) ∧
  -- R264
  (∀ (s0 s : State) (l : Link) (k0 k : ChunkKey) (x : LColl) (d : CollData), s0.takeFlit l (s0.classOf (.result k0 d)) = (s, true) → s0.params.isUp l.port = true → s.isHub = false →
     s.openCtx k0.slot k0.gen = true → s.formKey k0 = k → s.lrun k = some x → (x.chunk k.chunk).committed = false →
     exec (.resultFlitReceive l k0 d) s0 = .next (s.modLchunk k.slot k.handle k.chunk (fun c => { c with result := c.result.put d }))) ∧
  -- R272: a commit message of a chunk with every result byte
  (∀ (s0 s : State) (l : Link) (e : Nat) (m : CommitMsg) (k : ChunkKey) (x : LColl), s0.takeFlit l 1 = (s, true) → s0.params.isUp l.port = true → s.isHub = false →
     newerEpoch s.pair.seenEpoch e = false → s.openCtx m.key.slot m.key.gen = true → s.formKey m.key = k → s.lrun k = some x → (x.chunk k.chunk).committed = false → m.code = .ok →
     (x.chunk k.chunk).result.bytes.length = m.resultBytes → (x.chunk k.chunk).sent = true →
     exec (.commitMessageReceive l e m) s0 = .next (((((s.setLcoll k.slot k.handle (some { x with
         committed := x.committed + 1
         chunks := x.chunks.set {} k.chunk { x.chunk k.chunk with stream := none, committed := true, sent := true, stuck := false, result := {} } })).sendStuck k.slot k.handle).modLchunk
           k.slot k.handle k.chunk (fun c => { c with writing := true, cflags := m.flags }))).fabricWrite
         (dDest x.desc + dPer x.desc * k.chunk * outWidth x.desc) (x.chunk k.chunk).result.bytes (bit m.flags 6) (dQos x.desc))) ∧
  -- R509, R194: of a local reduction, without an error
  (∀ (s : State) (k : ChunkKey) (x : LColl), s.isHub = false → s.lrun k = some x → (x.chunk k.chunk).writing = true → dSpan x.desc = 0 →
     exec (.fabricWriteResponse k false) s = .next ((s.modLchunk k.slot k.handle k.chunk (fun c => { c with writing := false })).chunkDone k
       (if bit (x.chunk k.chunk).cflags 6 then St.poison else St.ok) (x.chunk k.chunk).cflags)) ∧
  -- R325
  (∀ (s0 s : State) (l : Link) (k0 k : ChunkKey) (a : Nat) (x : LColl), s0.takeFlit l 1 = (s, true) → s.isHub = false → s.params.isUp l.port = true → (s.port l.port).up = true →
     s.openCtx k0.slot k0.gen = true → s.formKey k0 = k → s.lrun k = some x → (x.chunk k.chunk).noticed = false → (x.chunk k.chunk).sent = true →
     exec (.replayRequestReceive l k0 a true) s0 = .next ((s.send l.port (.replayMark k a)).sendList l.port ((x.chunk k.chunk).flits.map (fun d => TxMsg.contribution k d))))

/-- At the serving Hub: the first flit of a contribution to a new chunk of a planned collective, which no contributor has released at a former primary, is kept in order; a notice of a contributor marks the chunk failed with its code; the sequencer maps a chunk that waits; a spilled chunk keeps its images and frees its panes; a reloaded chunk opens with its images and the streams that wait; a replay mark makes the child's flits count again. -/
def Obligations.ContributionsAtAHub : Prop :=
  -- R264: the first flit of a chunk, which is not the last
  (∀ (s0 s : State) (l : Link) (k0 k : ChunkKey) (d : CollData) (p : HPlan) (r : RxBuf), s0.takeFlit l (s0.classOf (.contribution k0 d)) = (s, true) → s0.params.isDown l.port = true →
     s.isHub = true → s.isPrimary = true → s.openCtx k0.slot k0.gen = true → s.formKey k0 = k → k.slot = k0.slot → k.handle = k0.handle → s.kplan k = some p →
     s.plan k.slot k.handle = some p → p.saving = none → p.newest = k.inst → p.done = [] → p.released = [] → s.hchunk k = none → (s.planKids p.desc).contains (s.portChild l.port) = true →
     ({ child := s.portChild l.port, aux := d.aux, part := d.partialKind } : RxBuf).put d = r → r.whole = false → dOp p.desc ≠ 6 →
     exec (.contributionFlitReceive l k0 d none) s0 = .next (((s.seeInst k).setChunk { key := k, rx := [r] }).withhold l.port (s.classOf (.contribution k0 d)) k)) ∧
  -- R542: of a chunk that the contributor has not sent
  (∀ (s0 s : State) (l : Link) (child : Nat) (k0 k : ChunkKey) (p : HPlan) (c : HChunk), s0.takeFlit l 1 = (s, true) → s0.params.isDown l.port = true → s.portChild l.port = child →
     s.isHub = true → s.isPrimary = true → s.openCtx k0.slot k0.gen = true → s.formKey k0 = k → k.slot = k0.slot → k.handle = k0.handle → s.kplan k = some p →
     s.plan k.slot k.handle = some p → (s.planKids p.desc).contains child = true → p.newest = k.inst → p.done = [] → p.released = [] → s.hchunk k = some c → c.state = .waiting → c.heard = [] → c.arrived = [] →
     exec (.contributionNoticeReceive l k0 .range) s0 = .next
       ((((s.seeInst k).setChunk { c with heard := [child], rx := c.rx.filter (fun r => r.child != child) }).markFailed k .range).trySave k.slot k.handle)) ∧
  -- R266: a tenant chunk when it is its slot's turn
  (∀ (s : State) (k : ChunkKey) (c : HChunk) (p : HPlan) (t : Nat), s.isPrimary = true → s.hchunk k = some c → s.kplan k = some p → c.state = .waiting → c.waits = true → s.pair.stopMapping = false →
     (s.dom 79).on = true → dRadio p.desc = false → (s.awaken 2000 s.seqBacklog).pickFrom 2000 s.seqBacklog = some k.slot → s.tileFor p.desc = some t → (s.dom t).on = true →
     exec (.chunkMap k) s = .next (((s.awaken 2000 s.seqBacklog).served 2000 k.slot false).mapChunk k)) ∧
  -- R267
  (∀ (s : State) (k : ChunkKey) (c : HChunk), s.hchunk k = some c → c.state = .spilling →
     exec (.paneSpillComplete k) s = .next ((({ s with coll := { s.coll with spills := (s.coll.spills + 1) % 2 ^ 32 } } : State).dropPanes c.tile c.panes false).setChunk
       { c with state := .spilled, panes := [], image := c.panes.map (fun p => (s.pane c.tile p).canonical (((s.plan k.slot k.handle).map (·.desc)).getD 0)) })) ∧
  -- R268: without an uncorrectable read
  (∀ (s : State) (k : ChunkKey) (c : HChunk), s.hchunk k = some c → c.state = .reloading → c.fromSave = false → s.jm.spillPages = [] → (∀ q ∈ c.image, q.imagesOk = true) →
     ∃ t u : State, t = s.loadImage c false ∧ u = { t.releasePages (t.jm.spillPages.flatMap (fun e => if e.1 == k then e.2 else [])) with
         jm := { (t.releasePages (t.jm.spillPages.flatMap (fun e => if e.1 == k then e.2 else []))).jm with spillPages := t.jm.spillPages.filter (fun e => e.1 != k) } } ∧
       exec (.spillReloadComplete k false) s = .next ((u.setChunk { c with state := .open_, image := [], fromSave := false, lastUpd := s.htNs }).takeRx k)) ∧
  -- R325
  (∀ (s0 s : State) (l : Link) (k : ChunkKey) (c : HChunk), s0.takeFlit l 1 = (s, true) → s0.params.isDown l.port = true → s.hchunk (s.formKey k) = some c → s.isPrimary = true →
     exec (.replayMarkReceive l k c.attempt) s0 = .next
       (s.setChunk { c with discard := c.discard.filter (fun x => x != s.portChild l.port), rx := c.rx.filter (fun r => r.child != s.portChild l.port) }))

/-- A drain at the span pair whose checks agree forms the result and its Hallmark, and gates the chunk until the partner has its copy; the partner keeps a copy with its own Hallmark and a shadow record and acknowledges it; the acknowledgement commits a gated chunk, which puts the Hallmark into the open batch and sends results and commit messages; the last acknowledgement of a receiver retires the chunk. An acknowledgement of a chunk that the span pair's primary has not committed, and so a former primary has, fails the chunk with ST_NO_SPARE. -/
def Obligations.CommitAtAHub : Prop :=
  -- R236: no failure, no replay
  (∀ (s : State) (k : ChunkKey) (c : HChunk) (p : HPlan), s.isHub = true → s.isPrimary = true → s.hchunk k = some c → s.kplan k = some p → c.state = .draining → c.attempt = 0 →
     (∀ q ∈ c.panes, (s.pane c.tile q).check p.desc q (s.expected p k.inst) = none) → s.spans p.desc = true →
     exec (.drainComplete k none) s = .next (((s.chunkFree k false).gateSpan k c p (c.panes.map (fun q => s.pane c.tile q))).trySave k.slot k.handle)) ∧
  -- R270, R303: at the partner
  (∀ (s0 s : State) (l : Link) (r : ResultCopy) (p : HPlan), s0.takeFlit l 1 = (s, true) → s0.params.isChord l.port = true → s.isHub = true → s.isPrimary = false → s.pair.role ≠ .isolated → s.plan r.msg.key.slot r.msg.key.handle = some p →
     exec (.resultCopyReceive l r) s0 = .next (({ s with
         coll := { s.coll with copies := s.coll.copies.filter (fun (x : ResultCopy) => x.msg.key != r.msg.key) ++ [{ r with msg := { r.msg with hallmark := s.hallmarkOf p.desc r.msg.key r.bytes r.msg.flags r.fwVersion } }] }
         hm := { s.hm with shadows := s.hm.shadows.filter (fun (x : HmRec) => x.key != r.msg.key) ++
           [s.hmRec p.desc r.msg.key (s.hallmarkOf p.desc r.msg.key r.bytes r.msg.flags r.fwVersion) r.msg.flags] } }.seeInst r.msg.key).sendChord (.copyAck r.msg.key))) ∧
  -- R270, R304
  (∀ (s0 s : State) (l : Link) (k : ChunkKey) (c : HChunk) (p : HPlan) (m : CommitMsg), s0.takeFlit l 1 = (s, true) → s0.params.isChord l.port = true → s.isPrimary = true → s.hchunk k = some c → s.kplan k = some p → c.state = .gated → c.msg = some m →
     exec (.resultCopyAck l k) s0 = .next (((((s.addHm (s.hmRec p.desc k m.hallmark m.flags)).setChunk { c with state := .committed, copyAcked := true }).noteDone k).sendCommit
       (s.planKids p.desc) m c.result).trySave k.slot k.handle)) ∧
  -- R413: of a chunk that this Hub has not committed
  (∀ (s0 s : State) (l : Link) (k0 k : ChunkKey) (p : HPlan), s0.takeFlit l 1 = (s, true) → s0.params.isDown l.port = true → s.isPrimary = true → s.formKey k0 = k → s.hchunk k = none →
     s.kplan k = some p → (s.planKids p.desc).contains (s.portChild l.port) = true → p.newest = k.inst → p.done = [] → s.spans p.desc = true →
     exec (.resultAckReceive l k0) s0 = .next (((s.seeInst k).setChunk { key := k }).failChunk k .noSpare)) ∧
  -- Table 10.5: the last receiver of a chunk at its span pair
  (∀ (s0 s : State) (l : Link) (child : Nat) (k0 k : ChunkKey) (c : HChunk) (p : HPlan), s0.takeFlit l 1 = (s, true) → s0.params.isDown l.port = true → s.portChild l.port = child →
     s.isPrimary = true → s.formKey k0 = k → s.hchunk k = some c → s.kplan k = some p → c.state = .committed →
     (s.planKids p.desc).contains child = true → subList (s.planKids p.desc) (addNew c.acked child) = true → s.spans p.desc = true →
     exec (.resultAckReceive l k0) s0 = .next
       (((((s.delChunk k).modPlan k.slot k.handle (fun p => if p.newest = k.inst then { p with ackd := p.ackd + 1 } else p)).mirror (.retired k)).instanceEnd k.slot k.handle).trySave k.slot k.handle))

/-- When the PHY of a port is ready and the block has its keys, bring-up starts and the identity is sent; a bring-up flit with a fitting identity stores the peer and goes on to wait for the exchange, a wrong one holds the port with PEER_MISMATCH and event 0x0200; the lowest waiting port starts its exchange with a fresh nonce and share while fewer than 4 run; a peer's exchange that passes both ends derives the port keys; a PHY that falls takes the port down. -/
def Obligations.PortBringUp : Prop :=
  -- R540
  (∀ (s : State) (p : Nat), s.params.hasPort p = true → (s.port p).bring = .down → s.portFenced p = false →
     s.test.runs.any (fun r => unitVal r.unit == s.portUnit p) = false → s.portPowered p = true → 5 ≤ s.boot.stage → s.boot.stage < 8 → s.sec.keysValid = true →
     exec (.portBringUpStart p) s = .next
       ((s.modPort p (fun o => { o with phyRdy := true, rxLock := 3 })).modPort p (fun o => { o with bring := .locking, held := false }) |>.send p
         (.bringUp (s.ownIdent p)))) ∧
  -- R25, R540: at a Leaf, whose place the identity gives
  (∀ (s : State) (p : Nat) (i : Ident), s.params.hasPort p = true → s.isHub = false → (s.port p).up = false → (s.port p).bring = .locking → s.peerOk p i = true →
     ({ s with boot := { s.boot with leafIndex := i.port, pairId := i.pairId, placeValid := true } } : State).storedAsym p i = none → (s.port p).asym = 0 →
     ∃ t, exec (.bringUpFlitReceive p i) s = .next t ∧ (t.port p).peer = some i ∧ (t.port p).bring = .waiting ∧ (t.port p).lastGood = s.htNs ∧
       (t.port p).calibrated = false ∧ t.boot = { s.boot with leafIndex := i.port, pairId := i.pairId, placeValid := true } ∧
       (∀ q, q ≠ p → t.port q = s.port q) ∧ t = { s with boot := t.boot, ports := t.ports, flash := t.flash, tsrc := t.tsrc }) ∧
  -- R25
  (∀ (s : State) (p : Nat) (i : Ident), s.params.hasPort p = true → (s.port p).up = false → (s.port p).bring = .locking → s.peerOk p i = false →
     exec (.bringUpFlitReceive p i) s = .next
       (((s.holdPort p).modPort p (fun o => { o with peerMismatch := true })).record { event := 0x0200, unit := s.portUnit p })) ∧
  -- R428
  (∀ (s : State) (p : Nat), s.params.portList.find? (fun q => decide ((s.port q).bring = .waiting)) = some p → s.exchanging.length < 4 →
     exec (.keyExchangeStart p) s = .next
       ((({ s with freeCtr := s.freeCtr + 2 }).modPort p (fun o => { o with
         bring := .exchanging, nonce := Config.freeRandom s.freeCtr, share := Config.freeRandom (s.freeCtr + 1), exchStart := s.htNs })).send p
           (.exchange (Config.freeRandom s.freeCtr) (Config.pubOf (Config.freeRandom (s.freeCtr + 1)))))) ∧
  -- R430: an uplink of a Leaf
  (∀ (s : State) (p : Nat) (x : Exchange), s.isHub = false → s.params.isChord p = false → s.params.isDown p = false → s.params.hasPort p = true →
     (s.port p).bring = .exchanging → (s.port p).keys = none → s.exchangeFail false x = none →
     exec (.keyExchangeReceive p x true) s = .next
       ((s.modPort p (fun o => { o with peerNonce := x.nonce, share := 0, keys := some {
           down := Config.hkdf (s.prk p (s.port p).share (s.port p).nonce x) "DXDN" [], up := Config.hkdf (s.prk p (s.port p).share (s.port p).nonce x) "DXUP" []
           saltDown := Config.hkdf (s.prk p (s.port p).share (s.port p).nonce x) "DXSD" [] % 2 ^ 32, saltUp := Config.hkdf (s.prk p (s.port p).share (s.port p).nonce x) "DXSU" [] % 2 ^ 32
           wrap := Config.hkdf (s.prk p (s.port p).share (s.port p).nonce x) "DXKW" [] } })).portComplete p)) ∧
  -- R505
  (∀ (s : State) (p : Nat), s.params.hasPort p = true →
     exec (.phyDown p) s = .next ((s.portDown p false .ok).modPort p (fun o => { o with phyRdy := false, rxLock := 0 })))

/-- A flit's header frees what it acknowledges and adds the credits it returns; a numbered flit acts only when it is the next in sequence, and then owes a credit; one ahead of the sequence asks for a replay, an older one says nothing. The contents of a control flit act unless they are of a context that is not open here. A timing flit whose tag fails counts in AUTH_FAILS and restarts the run of good ones. The timing flit of a period leaves once, with HT at its first bit. A flit with an uncorrectable codeword, a bad CRC or a reserved field is discarded, and a replay of a numbered one is requested. 16,384 ns without a good flit take the port down with RETRY_DOWN; 8 slots without a timing flit lose its timing; the interval's mean becomes RTT_EST from 1,024 samples on. -/
def Obligations.PortReceivesAndTimesOut : Prop :=
  -- R122, R129: the header of a flit without NAK, and when its contents act
  (∀ (s : State) (l : Link) (cls : Nat), s.params.hasPort l.port = true → (s.port l.port).up = true → l.nak = false →
     s.takeHeader l = s.modPort l.port (fun o => { o with
         lastGood := s.htNs, fecCorr := (o.fecCorr + l.corr) % 65536, replay := ackTo o.replay l.ack
         resend := o.resend.filter (fun f => (ackTo o.replay l.ack).any (fun x => x.1.seq == f.seq))
         seqReplays := o.seqReplays.filter (fun e => (ackTo o.replay l.ack).any (fun x => x.1.seq == e.1))
         creditCtl := o.creditCtl + l.crCtl, creditRadio := o.creditRadio + l.crRadio, creditTen := o.creditTen + l.crTen }) ∧
     (l.seq = (s.port l.port).rxSeq → (s.port l.port).rxSeq < 4096 → s.takeFlit l cls =
       ((s.takeHeader l).modPort l.port (fun o => { o.oweCredit cls with rxSeq := (o.rxSeq + 1) % 4096, nakPend := false, tagFailSeq := none }), true)) ∧
     ((l.seq + 4096 - (s.port l.port).rxSeq) % 4096 ≠ 0 → (l.seq + 4096 - (s.port l.port).rxSeq) % 4096 < 2048 → s.takeFlit l cls = ((s.takeHeader l).requestReplay l.port, false)) ∧
     (2048 ≤ (l.seq + 4096 - (s.port l.port).rxSeq) % 4096 → s.takeFlit l cls = (s.takeHeader l, false))) ∧
  -- R129, R437: the contents of one that is delivered
  (∀ (s t : State) (l : Link) (c g : Nat) (b : CtlBody), b ≠ .idle → s.takeFlit l 1 = (t, true) →
     ((c = 0 ∨ t.openCtx c g = true) → exec (.controlFlitReceive l c g b) s = .next (t.control l.port b)) ∧
     (c ≠ 0 → t.openCtx c g = false → exec (.controlFlitReceive l c g b) s = .next t.countStale)) ∧
  -- R121: an idle flit
  (∀ (s : State) (l : Link) (c g : Nat), s.params.hasPort l.port = true → (s.port l.port).up = true → exec (.controlFlitReceive l c g .idle) s = .next (s.takeHeader l)) ∧
  -- R126
  (∀ (s : State) (l : Link) (b : TimingBody) (x n k : Nat), s.params.hasPort l.port = true → (s.port l.port).up = true → b.authOk = false →
     exec (.timingFlitReceive l b x n k) s = .next
       (s.modPort l.port (fun o => { o with authFail := true, authFails := (o.authFails + 1) % 65536, lastGood := s.htNs, timingRun := 0 }))) ∧
  -- R126, R136: a good flit with no echo, before the port is usable for time
  (∀ (s t : State) (l : Link) (b : TimingBody) (x n k p : Nat), s.params.hasPort p = true → (s.port p).up = true → b.authOk = true → s.takeHeader l = t → l.port = p → (t.port p).up = true →
     b.echoTx = 0 → (t.port p).nSamples < 16 →
     exec (.timingFlitReceive l b x n k) s = .next
       (((((t.modPort p (fun o => { o with
         lastGood := t.htNs, lastTiming := t.htNs, timingRun := if o.lastTiming + 768 < t.htNs then 1 else satN 16 (o.timingRun + 1), peerPrimary := b.primary, peerEpoch := b.epoch
         peerStatus := b.status, echoes := ((t.port p).echoes ++ [(b.txHt, t.rxStamp p x n k)]).drop (((t.port p).echoes ++ [(b.txHt, t.rxStamp p x n k)]).length - 2) })).modPort p
           (fun o => { o with lostTiming := (t.port p).lostTiming && decide ((if (t.port p).lastTiming + 768 < t.htNs then 1 else satN 16 ((t.port p).timingRun + 1)) < 16), timeUsable := false })).seeEpoch p b).flushUp).refreshWord)) ∧
  -- R123, R126: the period's timing flit takes the line in slot 0, with HT at its bit 0
  (∀ (s : State) (p k : Nat), s.params.hasPort p = true → (s.port p).up = true → (s.port p).lastPeriod ≠ some (s.htNs / 512) →
     ∃ t b l, exec (.timingFlitSend p k) s = .next t ∧ l = (s.port p).sentTx ++ [(b.txHt, b.txHt)] ∧ t = (s.modPort p (fun o => { o with
         lastPeriod := some (s.htNs / 512), slotPeriod := s.htNs / 512, slotNo := 0, lineAcc := 0, sentTx := l.drop (l.length - 16) })).putFlit p (s.mkFlit p (some (.timing b))) false ∧
       b.txHt = s.time.ht48 / 2 ^ 32 + k % 128 * 512 ∧ b.status = s.time.word ∧ b.primary = s.isPrimary ∧ b.stepCnt = s.time.stepCnt) ∧
  -- R120, R121, R129, R133
  (∀ (s t : State) (p n : Nat) (raw : List Byte) (tag : Bool), s.params.hasPort p = true → (s.port p).up = true →
     t = s.modPort p (fun o => if o.up then { o with fecCorr := (o.fecCorr + n) % 65536 } else o) →
     exec (.corruptFlitReceive p raw false tag n) s = .next ((t.modPort p (fun o => { o with fecUncorr := (o.fecUncorr + 1) % 65536 })).discardFlit p (rawNumbered raw)) ∧
     (crcGood raw = false → exec (.corruptFlitReceive p raw true tag n) s = .next (t.discardFlit p (rawNumbered raw))) ∧
     (crcGood raw = true → t.reservedFlit p raw = true → exec (.corruptFlitReceive p raw true tag n) s = .next
       (((t.modPort p (fun o => { o with lastGood := t.htNs })).record { event := 0x0201, unit := t.portUnit p }).discardFlit p (rawNumbered raw)))) ∧
  -- R130
  (∀ (s : State) (p : Nat), s.params.hasPort p = true → (s.port p).up = true → (s.port p).lastGood + 16384 ≤ s.htNs →
     exec (.portNoFlitTimeout p) s = .next (s.portDown p true .ok)) ∧
  -- R139
  (∀ (s : State) (p : Nat), s.params.hasPort p = true → (s.port p).up = true → (s.port p).lastTiming + 4096 ≤ s.htNs → ((s.port p).lostTiming = false ∨ (s.port p).timingRun ≠ 0) →
     exec (.portTimingLoss p) s = .next
       (((s.modPort p (fun o => { o with timeUsable := false, lostTiming := true, timingRun := 0, lostFrames := true, peerPrimary := false, source := false })).chooseSource).chordLoss).refreshWord) ∧
  -- R137
  (∀ (s : State) (p : Nat), s.params.hasPort p = true → (s.port p).up = true → (s.port p).rttAt + 1048576 ≤ s.htNs →
     ((s.port p).samples.length < 1024 → exec (.rttEstimateUpdate p) s = .next (s.modPort p (fun o => { o with rttAt := s.htNs, samples := [] }))) ∧
     (1024 ≤ (s.port p).samples.length → exec (.rttEstimateUpdate p) s = .next
       ((s.modPort p (fun o => { o with rttAt := s.htNs, samples := [] })).setRtt p (meanOf (s.port p).samples)))) ∧
  -- R143 to R148: the update of a Leaf and of a Hub
  (∀ (s : State), s.tsrc.lastUpdate + 8192 ≤ s.htNs →
     (s.isHub = false → exec .servoUpdate s = .next
       (((({ s.formE with tsrc := { s.formE.tsrc with lastUpdate := s.htNs } }).chooseSource.plumbMismatch).leafServo.inServiceNow).refreshWord)) ∧
     (s.isHub = true → exec .servoUpdate s = .next
       (((({ s.formE with tsrc := { s.formE.tsrc with lastUpdate := s.htNs } }).chooseSource.hubServo).tryPartner.inServiceNow).refreshWord)))

/-- CMD_CLASS_CONFIG with values in range, of which RADIO_TILES is either the present one or one that splits the tiles while no radio collective is open, is mirrored and distributed and returns the previous values. At its effective frame RADIO_SLOTS becomes the pair's share; at its effective time RADIO_TILES chooses the radio tiles. A held queue of a Leaf whose shaper has reached 256 bytes wakes at both ports. -/
def Obligations.ClassesAndShaping : Prop :=
  -- R281, R284
  (∀ (h : CmdHdr) (id rs rt : Nat) (e : HT) (s : State), RunsHere (.cmdClassConfig h id rs rt e) s → id = s.boot.cfg.pairId → rs ≤ 16 → rt ≤ s.params.maxRadioTiles → s.htNs + 1000000 ≤ e →
     (rt = s.sched.radioTiles ∨ (s.radioGroups rt = true ∧ s.coll.hub = [])) →
     exec (.cmdClassConfig h id rs rt e) s = .next
       ((({ s with sched := { s.sched with tilesPend := some (rt, e) } } : State).mirror (.radioTiles rt e)).distBegin (.classConfig rs e) h.src none
         (layout [(2, s.sched.radioSlots), (2, s.sched.radioTiles)]) none)) ∧
  -- R281
  (∀ (s : State) (v : Nat), slotsDue s.htNs s.sched.slotsPend = some v → s.sched.upSlotsPend = none →
     exec .radioSlotsApply s = .next { s with sched := { s.sched with radioSlots := v, slotsPend := none } }) ∧
  -- R284
  (∀ (s : State) (n : Nat) (e : HT), s.isHub = true → s.sched.tilesPend = some (n, e) → e ≤ s.htNs →
     ∃ t : State, exec .radioTilesApply s = .next t ∧ t.sched.tilesPend = none ∧ t = { s.chooseRadio n with sched := { (s.chooseRadio n).sched with tilesPend := none } }) ∧
  -- R291
  (∀ (s : State) (c : Nat), s.isHub = false → (s.shapeOf c).held = true → (s.shapeOf c).eligible = true →
     exec (.shaperEligible c) s = .next (([0, 1].filter (fun p => !s.sched.awake.contains (p * 256 + c))).foldl (fun s p => s.wakeQueue p c)
         (s.modShape c (fun x => { x with held := false }))))

/-- A due batch of a primary with keys is signed and archived. CMD_HALLMARK_READ of batches that the archive holds writes them to memory and returns their number, their bytes and the oldest SEQ. CMD_MANIFEST REGISTER of a sound manifest of a context without one and without a collective records digest and label and tells the pairs above; VERIFY of the registered digest succeeds; READ returns what is registered. -/
def Obligations.HallmarkBatchesAndManifests : Prop :=
  -- R306
  (∀ (s : State), s.isPrimary = true → s.batchDue = true → s.sec.keysValid = true → exec .hallmarkBatchClose s = .next s.signBatch) ∧
  -- R308
  (∀ (h : CmdHdr) (first count addr len : Nat) (l : List Batch) (s : State), RunsHere (.cmdHallmarkRead h first count addr len none false) s →
     l = s.hm.archive.filter (fun b => decide (first ≤ b.seq) && decide (b.seq < first + count)) → l.length = count → 1 ≤ count → count ≤ 256 → addr % 64 = 0 → (l.map batchSize).sum ≤ len →
     exec (.cmdHallmarkRead h first count addr len none false) s = .next (complete (s.fabricWrite addr (l.flatMap batchBytes) false 1) h.src 0x0502 .ok
       (layout [(2, l.length), (4, (l.map batchSize).sum), (8, s.oldestBatch)]))) ∧
  -- R311
  (∀ (h : CmdHdr) (label n : Nat) (f : List Byte) (items : List (Nat × FabRead (List Byte))) (s : State), RunsHere (.manifestRegister h label (.ok f) items) s → s.manifest h.slot = none → s.leafCollOpen h.slot = false →
     1 ≤ items.length → items.length ≤ 1024 → ascending (items.map (·.1)) = true → manifestEntries f = some n →
     (∀ i ∈ items, i.1 < n ∧ ∃ g, i.2 = .ok g ∧ entryOk f i.1 g = true) →
     exec (.manifestRegister h label (.ok f) items) s = .next (complete
       (({ s with hm := { s.hm with assaySlot := h.slot, assay := 2, manifests := s.hm.manifests.set none (h.slot * 256) (some (Config.sha384 f, label)) } } : State).sendUp (.manifest h.slot h.gen (Config.sha384 f) label))
       h.src 0x0501 .ok (manifestOut (Config.sha384 f) label items.length))) ∧
  -- R311
  (∀ (h : CmdHdr) (label n : Nat) (f : List Byte) (items : List (Nat × FabRead (List Byte))) (s : State), RunsHere (.manifestVerify h (.ok f) items) s → s.manifest h.slot = some (Config.sha384 f, label) →
     1 ≤ items.length → items.length ≤ 1024 → ascending (items.map (·.1)) = true → manifestEntries f = some n →
     (∀ i ∈ items, i.1 < n ∧ ∃ g, i.2 = .ok g ∧ entryOk f i.1 g = true) →
     exec (.manifestVerify h (.ok f) items) s = .next (complete { s with hm := { s.hm with assaySlot := h.slot, assay := 2 } } h.src 0x0501 .ok (manifestOut (Config.sha384 f) label items.length))) ∧
  -- R311
  (∀ (h : CmdHdr) (label d : Nat) (s : State), RunsHere (.manifestRead h) s → s.manifest h.slot = some (d, label) →
     exec (.manifestRead h) s = .next (complete s h.src 0x0501 .ok (manifestOut d label 0)))

/-- FENCE of a tile that is in service fences it with cause 1; UNFENCE of a fenced tile that passed a test since, or of a fenced port, returns it to service; READ returns the fenced-unit map, the spares and the events of each tile. CMD_DAYBOOK_READ of records that the ring holds writes them to memory and returns their number. A buffered record is written to flash; a fault notice of a child joins the notice queue while it holds fewer than 256. -/
def Obligations.FencesDaybookAndNotices : Prop :=
  -- R330, R331
  (∀ (h : CmdHdr) (u : UnitId) (t : Nat) (s : State), RunsHere (.fenceTileFence h u) s → s.unitTile u = some t → (s.tile t).state ≠ 3 → (s.tile t).state ≠ 4 →
     exec (.fenceTileFence h u) s = .next (complete (s.fenceTile t 1) h.src 0x0601 .ok [])) ∧
  -- R331
  (∀ (h : CmdHdr) (u : UnitId) (t : Nat) (s : State), RunsHere (.fenceTileUnfence h u) s → s.unitTile u = some t → (s.tile t).state = 3 → (s.tile t).testPassed = true →
     exec (.fenceTileUnfence h u) s = .next (complete (s.unfenceTile t) h.src 0x0601 .ok [])) ∧
  -- R331: of a port
  (∀ (h : CmdHdr) (u : UnitId) (p : Nat) (s : State), RunsHere (.fenceTileUnfence h u) s → s.unitTile u = none → s.unitPort u = some p → s.portFenced p = true →
     exec (.fenceTileUnfence h u) s = .next (complete (s.unfencePort p) h.src 0x0601 .ok [])) ∧
  -- R331: at a Leaf
  (∀ (h : CmdHdr) (s : State), RunsHere (.fenceTileRead h) s → s.isHub = false →
     exec (.fenceTileRead h) s = .next (complete s h.src 0x0601 .ok
       (mapBytes s.flt.tilesMap 0 0 ++ le 2 0 ++ (List.range s.params.tiles).flatMap (fun t => le 2 (s.eventsIn t))))) ∧
  -- R342
  (∀ (h : CmdHdr) (first count addr len : Nat) (l : List DbRec) (s : State), RunsHere (.cmdDaybookRead h first count addr len false) s →
     l = s.flash.daybook.filter (fun r => decide (first ≤ r.seq) && decide (r.seq < first + count)) → l.length = count → 1 ≤ count → count ≤ 4096 → addr % 64 = 0 → 64 * count ≤ len →
     exec (.cmdDaybookRead h first count addr len false) s = .next (complete (s.fabricWrite addr (l.flatMap recBytes) false 1) h.src 0x0602 .ok
       (layout [(2, count), (8, ((s.flash.daybook.head?).map (·.seq)).getD 0), (4, s.flt.dropped)]))) ∧
  -- R337
  (∀ (s : State) (r : DbRec) (l : List DbRec), s.flt.buf = r :: l → s.scriv.restarting = false →
     ∃ t : State, exec (.daybookRecordWrite true) s = .next t ∧ t.flt.buf = l ∧
       t.flash.daybook = (s.flash.daybook ++ [r]).drop (s.flash.daybook.length + 1 - s.boot.cfg.daybookBytes / 64) ∧
       t = { s with flash := { s.flash with daybook := t.flash.daybook }, flt := { s.flt with buf := l } }) ∧
  -- R26, R535
  (∀ (s0 s : State) (l : Link) (n : Notice), s0.takeFlit l 1 = (s, true) → s.params.isDown l.port = true → (s.port l.port).up = true → s.flt.notices.length < 256 →
     exec (.faultNoticeReceive l n) s0 = .next
       { s with flt := { s.flt with notices := s.flt.notices ++ [{ event := n.event, unit := n.unit, port := l.port, self := false, seqLo := n.seqLo }] } })

/-- At a Hub: the self-test of a powered journal ends; a read of an in-use page corrects what the code can correct; the scrubber reads the access that is next and goes on from it; a channel that stops responding fails; a refresh, an MR4 read and a ZQ calibration run when their interval has passed; a PHY update request is granted. -/
def Obligations.JournalMaintenance : Prop :=
  -- R354
  (∀ (s : State) (ok lok : Bool) (bad : List Nat), s.isHub = true → (s.dom 77).on = true → s.jm.ready = false → s.jm.fail = false →
     exec (.journalSelfTest ok bad lok) s = .next (s.selfTest ok bad lok)) ∧
  -- R347
  (∀ (s : State) (use page acc : Nat) (e : JournalErr), s.jmLive page acc = true → (s.jpage page).state = .inUse use →
     exec (.journalRead use page acc e) s = .next (s.jmAccess use page acc e).1) ∧
  -- R352: a double error of the page-state SRAM
  (∀ (s : State) (page q : Nat), q / 64 = page / 64 → q < s.pageCount → ((s.pageSram page .double).jpage q).valid = true) ∧
  -- R353: an access that is not the last of a page and reads without an error
  (∀ (s : State) (page acc : Nat), s.jmLive page acc = true → s.nextScrub (s.pageChan page) = some (page, acc) → s.scrubDue (s.pageChan page) = true → acc < 31 → (s.jmAccess 5 page acc {}).2 = false →
     exec (.scrubRead page acc {}) s = .next ((s.jmAccess 5 page acc {}).1.modChan (s.pageChan page) (fun x => { x with scrub := some (page, acc), scrubAt := some s.htNs }))) ∧
  -- R361
  (∀ (s : State) (c : Nat), s.chanLive c = true → exec (.channelFailure c) s = .next (s.failChan c)) ∧
  -- R517
  (∀ (s : State) (c : Nat), s.chanLive c = true → (s.chan c).lastRefresh + (if (s.chan c).doubled = true then 1950 else 3900) ≤ s.htNs →
     ∃ t : State, exec (.dramRefresh c) s = .next t ∧ (t.chan c).refreshes = (s.chan c).refreshes + 1 ∧ (t.chan c).lastRefresh = s.htNs ∧
       t = s.modChan c (fun x => { x with refreshes := x.refreshes + 1, lastRefresh := s.htNs })) ∧
  -- R517
  (∀ (s : State) (c : Nat) (d : Bool), s.chanLive c = true → (s.chan c).lastMr4 + 32000000 ≤ s.htNs →
     exec (.mr4Read c d) s = .next (s.modChan c (fun x => { x with doubled := d, lastMr4 := s.htNs }))) ∧
  -- R517
  (∀ (s : State) (c : Nat), s.chanLive c = true → (s.chan c).lastZq + 128000000 ≤ s.htNs →
     exec (.zqCalibration c) s = .next (s.modChan c (fun x => { x with zqs := x.zqs + 1, lastZq := s.htNs }))) ∧
  -- R516
  (∀ (s : State) (c : Nat), s.chanLive c = true → exec (.phyUpdateRequest c) s = .next (s.modChan c (fun x => { x with phyGrants := x.phyGrants + 1 })))

/-- PAGE retires a page that is free, or moves an in-use page to a free one first; BANK retires a bank, or finds it retired; MARK marks a device of a channel without a mark, UNMARK clears the mark and the channel's history; READ returns the retirement list, the banks and the marks; CMD_JOURNAL_CONFIG sets the scrub interval and returns the previous one. -/
def Obligations.JournalRetirement : Prop :=
  -- R355
  (∀ (h : CmdHdr) (page : Nat) (l : List Nat) (t s : State), RunsHere (.journalRetirePage h page l) s → page < s.pageCount → s.jm.retired.length < 65536 → s.retireOne page l (fun _ => false) = some t →
     exec (.journalRetirePage h page l) s = .next (complete t h.src 0x0506 .ok [])) ∧
  -- R355: a bank none of whose pages is in use
  (∀ (h : CmdHdr) (c b : Nat) (l : List Nat) (s : State), RunsHere (.journalRetireBank h c b l) s → c < s.params.channels → b < 32 → s.jm.banks.length < 32 → s.jm.banks.contains (c, b) = false →
     (∀ p ∈ s.jm.pages, s.pageChan p.1 ≠ c) →
     exec (.journalRetireBank h c b l) s = .next (complete
       (({ s with jm := { s.jm with banks := s.jm.banks ++ [(c, b)], retired := s.jm.retired.filter (fun p => !(s.pageChan p == c && s.pageBank p == b)) } } : State).keepList.jmRecord
         0x0605 c 0xFFFF (c + s.params.channels * b) 0 0 0xFF) h.src 0x0506 .ok [])) ∧
  -- R348
  (∀ (h : CmdHdr) (c dev : Nat) (s : State), RunsHere (.journalRetireMark h c dev) s → c < s.params.channels → dev < 20 → (s.chan c).mark = none →
     exec (.journalRetireMark h c dev) s = .next (complete (s.setMark c (some dev) dev) h.src 0x0506 .ok [])) ∧
  -- R348
  (∀ (h : CmdHdr) (c dev : Nat) (s : State), RunsHere (.journalRetireUnmark h c dev) s → c < s.params.channels → dev < 20 → (s.chan c).mark = some dev →
     exec (.journalRetireUnmark h c dev) s = .next (complete ((s.setMark c none dev).modChan c (fun x => { x with recent := [] })) h.src 0x0506 .ok [])) ∧
  -- R355
  (∀ (h : CmdHdr) (s : State), RunsHere (.journalRetireRead h) s →
     exec (.journalRetireRead h) s = .next (complete s h.src 0x0506 .ok
       (le 4 s.jm.retired.length ++ le 4 s.jm.banks.length ++ s.jm.retired.flatMap (le 4) ++ s.jm.banks.flatMap (fun b => le 1 b.1 ++ le 1 b.2) ++
         (List.range s.params.channels).flatMap (fun c => le 1 (((s.chan c).mark).getD 0xFF))))) ∧
  -- R353
  (∀ (h : CmdHdr) (n : Nat) (s : State), RunsHere (.cmdJournalConfig h n) s → 1 ≤ n → n ≤ 168 →
     exec (.cmdJournalConfig h n) s = .next (complete { s with jm := { s.jm with scrubHours := n } } h.src 0x0507 .ok (layout [(4, s.jm.scrubHours)])))

/-- SAVE of a running collective under a free SAVE_ID stops its contributors and goes on when what has begun is applied; DELETE of a saved state that nothing resumes frees its pages; RESUME of a saved state into an idle collective of the same descriptor loads its chunks and tells each contributor what it owes. STAGE OUT opens a set for the next instance, STAGE IN gives a matching set to it, STAGE DELETE frees a set that is not in use. -/
def Obligations.SavedStatesAndStagedSets : Prop :=
  -- R358
  (∀ (h : CmdHdr) (c id : Nat) (p : HPlan) (s : State), RunsHere (.ledgerSave h c id) s → s.plan h.slot c = some p → c < 512 → id < 256 → s.spans p.desc = true → s.jm.saves.get none id = none →
     s.hubRunning p = true → (∀ e ∈ s.coll.hub, ∀ q, e.2 = some q → q.saving = none) → s.jm.ready = true → p.saving = none →
     exec (.ledgerSave h c id) s = .next (((s.modPlan h.slot c (fun p => { p with saving := some (id, some h.src) })).sendKids (s.planKids p.desc)
       (.saveStop h.slot (dGen p.desc) c id false)).trySave h.slot c)) ∧
  -- R358
  (∀ (h : CmdHdr) (id : Nat) (v : Save) (s : State), RunsHere (.ledgerSaveDelete h id) s → s.jm.saves.get none id = some v → s.jm.ready = true → s.saveInUse id = false →
     exec (.ledgerSaveDelete h id) s = .next (complete
       (({ s.releasePages v.pages with jm := { (s.releasePages v.pages).jm with saves := (s.releasePages v.pages).jm.saves.set none id none } } : State).mirror (.save id none))
       h.src 0x0503 .ok (layout [(4, v.chunks.length), (4, v.pages.length)]))) ∧
  -- R359
  (∀ (h : CmdHdr) (id c : Nat) (v : Save) (p : HPlan) (s : State), RunsHere (.cmdLedgerResume h id c none true false) s → s.jm.saves.get none id = some v → v.tenantKeyed = false → (s.slot h.slot).tenantKeyed = false →
     s.plan h.slot c = some p → descBody p.desc = descBody v.desc → s.jm.ready = true → s.hubRunning p = false → p.saving = none → s.saveInUse id = false → v.pages.any s.pageBad = false → v.chunks.all (fun c => c.panes.all (·.imagesOk)) = true →
     exec (.cmdLedgerResume h id c none true false) s = .next (complete
       (((s.planKids p.desc).foldl (fun s k => s.sendKids [k] (.owed h.slot (dGen p.desc) c id v.inst (owesOf v (dChunks p.desc) k) v.committed))
         ((s.modPlan h.slot c (fun p => { p with newest := v.inst, done := v.committed, ackd := v.committed.length, resumed := some id })).loadSaved h.slot (dGen p.desc) c v)).instanceEnd h.slot c)
       h.src 0x0504 .ok (layout [(4, ((s.planKids p.desc).map (fun k => (owesOf v (dChunks p.desc) k).length)).sum)]))) ∧
  -- R360
  (∀ (h : CmdHdr) (c id : Nat) (p : HPlan) (s : State), RunsHere (.journalStageOut h c id) s → s.plan h.slot c = some p → c < 512 → id < 256 → s.spans p.desc = true → s.jm.stages.get none id = none →
     s.jm.ready = true → p.stageOut = none →
     exec (.journalStageOut h c id) s = .next (({ s with jm := { s.jm with stages := s.jm.stages.set none id (some
         { slot := h.slot, desc := p.desc, chunks := [], k := dK p.desc (s.leavesOf p.desc), m := none, pages := [], single := s.pair.solo }) } } : State).modPlan h.slot c
       (fun p => { p with stageOut := some (id, h.src), stageInst := some ((p.stageInst).getD (s.nextInst p)) }))) ∧
  -- R360: with SUM, SUM-SCALED, MAC, EXACT-DOT or EXP2-SCALED MAC
  (∀ (h : CmdHdr) (c id : Nat) (p : HPlan) (v : Stage) (s : State), RunsHere (.journalStageIn h c id) s → s.plan h.slot c = some p → s.jm.stages.get none id = some v → c < 512 → id < 256 → s.spans p.desc = true →
     (dOp p.desc = 0 ∨ dOp p.desc = 1 ∨ dOp p.desc = 4 ∨ dOp p.desc = 5 ∨ dOp p.desc = 6) → dCount p.desc = dCount v.desc → dPanes p.desc = dPanes v.desc → v.incomplete = false →
     v.k + dK p.desc (s.leavesOf p.desc) ≤ 2 ^ 31 → v.chunks.all (fun c => c.panes.all (·.imagesOk)) = true → s.jm.ready = true → p.stageIn = none → s.setInUse id = false →
     exec (.journalStageIn h c id) s = .next (s.modPlan h.slot c (fun p => { p with stageIn := some (id, h.src), stageInst := some ((p.stageInst).getD (s.nextInst p)) }))) ∧
  -- R360
  (∀ (h : CmdHdr) (id : Nat) (v : Stage) (s : State), RunsHere (.journalStageDelete h id) s → s.jm.stages.get none id = some v → s.jm.ready = true → s.setInUse id = false →
     exec (.journalStageDelete h id) s = .next (complete
       (({ s.releasePages v.pages with jm := { (s.releasePages v.pages).jm with stages := (s.releasePages v.pages).jm.stages.set none id none } } : State).mirror (.stage id none))
       h.src 0x0505 .ok (layout [(4, v.chunks.length)])))

/-- LOAD of a pack that every check accepts stores it and returns its slot; a pack from the parent is checked, stored and passed on; DELETE of an unused slot empties it; READ lists the stored packs. RUN of a unit that may be tested takes it out of mapping and starts the test; ABORT of a running test ends it; a passing test of a tile, once its patterns and march have run, returns the tile with its panes clear to the state it had and completes the command. -/
def Obligations.PatternPacksAndTests : Prop :=
  -- R366
  (∀ (h : CmdHdr) (p : Pack) (i : Nat) (s : State), RunsHere (.patternLoad h (.ok p) true false) s → s.packCheck p = .ok i → p.readBackOk = true →
     exec (.patternLoad h (.ok p) true false) s = .next (complete ((s.setPack i (some p)).record { event := 0x0803, sub := i, syn := packSyn p { mismatches := 0 } }) h.src 0x0603 .ok (layout [(2, i)]))) ∧
  -- R367: over the chord or from a parent of a Leaf
  (∀ (s0 s : State) (l : Link) (k : Pack), s0.takeFlit l 1 = (s, true) → s.params.hasPort l.port = true → (s.port l.port).up = true → s.params.isDown l.port = false → (s.params.isUp l.port && s.isHub) = false →
     exec (.packReceive l k) s0 = .next ((s.storePack k).1.passPack k)) ∧
  -- R368
  (∀ (h : CmdHdr) (i : Nat) (p : Pack) (s : State), RunsHere (.patternDelete h i) s → i < 16 → s.packBusy i = false → s.packAt i = some p →
     exec (.patternDelete h i) s = .next (complete ((s.setPack i none).record { event := 0x0805, sub := i, syn := packSyn p { mismatches := 0 } }) h.src 0x0603 .ok (layout [(2, i)]))) ∧
  -- R368
  (∀ (h : CmdHdr) (s : State), RunsHere (.patternRead h) s →
     exec (.patternRead h) s = .next (complete s h.src 0x0603 .ok ((List.range 16).flatMap (fun i => match s.packAt i with | some p => packHdr i p | none => [])))) ∧
  -- R369, R370: of a tile
  (∀ (h : CmdHdr) (u : UnitId) (id i t : Nat) (s : State), RunsHere (.testTileRun h u id) s → s.unitTile u = some t → s.packSlot id u.kind = some i → s.testRefusal u = none →
     exec (.testTileRun h u id) s = .next { s.modTile t (fun x => { x with state := 4 }) with test := { s.test with
       runs := s.test.runs ++ [{ unit := u, packSlot := i, prev := (s.tile t).state, src := h.src, started := s.htNs }] } }) ∧
  -- R373
  (∀ (h : CmdHdr) (u : UnitId) (t : Nat) (r : TestRun) (s : State), RunsHere (.testTileAbort h u) s → s.unitTile u = some t → s.testOf u = some r →
     exec (.testTileAbort h u) s = .next (complete (s.abortTest r) h.src 0x0604 .ok [])) ∧
  -- R372, Table 15.4: a tile that was in service and passes
  (∀ (s : State) (u : UnitId) (t : Nat) (r : TestRun) (k : Pack) (x : TestResult), s.testOf u = some r → s.unitTile u = some t → s.packAt r.packSlot = some k → r.started + s.testNs k ≤ s.htNs → r.prev ≠ 3 → x.mismatches = 0 →
     exec (.testComplete u x) s = .next (complete
       ((({ s with test := { s.test with runs := s.test.runs.filter (fun (y : TestRun) => y.unit != u), done := true, lastUnit := unitVal u } } : State).modTile t (fun y => { y with
           state := r.prev, panes := [], idleSince := s.htNs })).record { event := 0x0800, unit := unitVal u, sub := r.packSlot, syn := packSyn k x })
       r.src 0x0604 .ok (layout [(1, 0), (4, x.pattern), (2, x.chain), (2, x.bitPos), (4, 0)])))

/-- A monitor that fires stretches a period of its group and counts it; an interval ends with its count cleared. CMD_TALLY_CLOCK SET and SYNC in range keep a pending change and return the present points; MARGIN sets a group's margin; READ returns points and counts. At the effective time of a SET its group stops to quiesce, of a SYNC every group; a quiesced group restarts within 150 ns. -/
def Obligations.ClocksAndStretching : Prop :=
  -- R382
  (∀ (s : State) (t x : Nat), t < s.params.tiles → x < (s.grp (t / 4)).margin → (s.grp (t / 4)).stopped = false →
     exec (.monitorFire t x) s = .next (s.modGrp (t / 4) (fun g => { g with stretches := (g.stretches + 1) % 2 ^ 24, interval := g.interval + 1 }))) ∧
  -- R384: at most 25 % of the periods stretched
  (∀ (s : State) (g : Nat), s.hasGrp g = true → (s.grp g).intervalAt / 1048576 < s.htNs / 1048576 → 9 * (s.grp g).interval * 2 ^ (s.grp g).freq ≤ 4 * 1048576 →
     exec (.stretchIntervalEnd g) s = .next (s.modGrp g (fun x => { x with interval := 0, intervalAt := s.htNs }))) ∧
  -- R386, R388
  (∀ (h : CmdHdr) (g f : Nat) (e : HT) (s : State), RunsHere (.tallyClockSet h g f e) s → s.hasGrp g = true → f ≤ 3 → s.htNs + 10000 ≤ e → (s.grpPinned g = false ∨ f = 0) →
     (grpTiles g).all (fun t => (s.tile t).state != 4) = true → (s.grp g).pend = none →
     exec (.tallyClockSet h g f e) s = .next (complete (s.modGrp g (fun x => { x with pend := some (f, e) })) h.src 0x0701 .ok (layout [(1, (s.grp g).freq), (4, (s.grp g).stretches)]))) ∧
  -- R387, R385
  (∀ (h : CmdHdr) (l : List Nat) (e : HT) (s : State), RunsHere (.tallyClockSync h l e) s → l.length = s.params.groups → l.all (fun f => decide (f ≤ 3)) = true → e % 1024 = 0 → s.htNs + 10000 ≤ e →
     (List.range s.params.groups).all (fun g => !s.grpPinned g || (l[g]?).getD 0 == 0) = true → s.chunkMapped = false →
     exec (.tallyClockSync h l e) s = .next (complete { s with pwr := { s.pwr with syncPend := some (l, e) } } h.src 0x0701 .ok (clockOut s))) ∧
  -- R381
  (∀ (h : CmdHdr) (g m : Nat) (s : State), RunsHere (.tallyClockMargin h g m) s → s.hasGrp g = true → m ≤ 7 →
     exec (.tallyClockMargin h g m) s = .next (complete (s.modGrp g (fun x => { x with margin := m })) h.src 0x0701 .ok (layout [(1, (s.grp g).margin), (4, (s.grp g).stretches)]))) ∧
  -- R386
  (∀ (h : CmdHdr) (s : State), RunsHere (.tallyClockRead h) s → exec (.tallyClockRead h) s = .next (complete s h.src 0x0701 .ok (clockOut s))) ∧
  -- R386
  (∀ (s : State) (g f : Nat) (e : HT), (s.grp g).pend = some (f, e) → e ≤ s.htNs →
     exec (.tallySetEffective g) s = .next (s.modGrp g (fun x => { x with pend := none, stopping := true, target := f }))) ∧
  -- R386
  (∀ (s : State) (g : Nat), (s.grp g).stopping = true → s.coll.chunks.all (fun c => !(decide (c.state = .draining) && c.tile / 4 == g)) = true →
     exec (.groupQuiesced g) s = .next (s.modGrp g (fun x => { x with stopping := false, stopped := true, restartAt := some (s.htNs + 150) }))) ∧
  -- R387
  (∀ (s : State) (l : List Nat) (e : HT), s.pwr.syncPend = some (l, e) → e ≤ s.htNs →
     exec .tallySyncEffective s = .next ((List.range s.params.groups).foldl (fun s g =>
       s.modGrp g (fun x => { x with stopping := false, stopped := true, target := (l[g]?).getD x.freq, restartAt := some (e + 200) })) { s with pwr := { s.pwr with syncPend := none } }))

/-- CMD_POWER_SELF ON turns a domain on and returns its previous setting; an idle AUTO tenant tile in service begins to power off; a domain that has powered on or off is so, with what it lost. LOAD of a well-formed plan holds it, SCHEDULE adds an entry for a step to a firmware queue with room, READ returns the plan's header; a waiting step starts when none runs; a WAIT goes on when the acknowledgement it waits for arrives, a DELAY when its time is over, and a WAIT out of time aborts its step. -/
def Obligations.PowerDomainsAndPlans : Prop :=
  -- R390, R391
  (∀ (h : CmdHdr) (d idle : Nat) (s : State), RunsHere (.cmdPowerSelf h d .on idle) s → s.params.hasDomain d = true →
     exec (.cmdPowerSelf h d .on idle) s = .next (complete ((s.modDom d (fun x => { x with setting := .on })).turnOn d) h.src 0x0702 .ok (layout [(1, pwrVal (s.dom d).setting)]))) ∧
  -- R390
  (∀ (s : State) (t : Nat), t < s.params.tiles → (s.dom t).setting = .auto → (s.dom t).on = true → (s.dom t).turningOff = false → (s.tile t).state = 1 → (s.tile t).radio = false → (s.tile t).panes = [] → (s.tile t).idleSince + (s.dom t).idle ≤ s.htNs →
     exec (.tileAutoIdleOff t) s = .next (s.modDom t (fun x => { x with turningOff := true }))) ∧
  -- R391: not a tile
  (∀ (s : State) (d : Nat), (s.dom d).turningOn = true → 64 ≤ d →
     exec (.domainPowerOnComplete d) s = .next (s.modDom d (fun x => { x with on := true, turningOn := false }))) ∧
  -- R390: a tile; no request came meanwhile
  (∀ (s : State) (t : Nat), (s.dom t).turningOff = true → (s.dom t).wanted = false → t < 64 →
     exec (.domainPowerOffComplete t) s = .next ((s.modDom t (fun x => { x with on := false, turningOff := false, wanted := false })).modTile t (fun x => { x with panes := [] }))) ∧
  -- R394, R396
  (∀ (h : CmdHdr) (p : Plan) (s : State), RunsHere (.powerPlanLoad h (.ok p)) s → s.pwr.run = none → s.pwr.waiting = [] → planOk p = true →
     exec (.powerPlanLoad h (.ok p)) s = .next (complete { s with pwr := { s.pwr with plan := some p } } h.src 0x0703 .ok (layout [(2, p.steps.length), (2, p.actions.length)]))) ∧
  -- R396
  (∀ (h : CmdHdr) (q i : Nat) (t : HT) (p : Plan) (s : State), RunsHere (.powerPlanSchedule h q i t) s → s.pwr.plan = some p → q < 16 → (s.queue q).owner = some .firmware → (s.queue q).entries.length < 256 →
     exec (.powerPlanSchedule h q i t) s = .next (complete (s.modQueue q (fun d => { d with entries := d.entries ++ [{ bits := powerEntry i t }] })) h.src 0x0703 .ok
       (layout [(2, p.steps.length), (2, p.actions.length)]))) ∧
  -- R396
  (∀ (h : CmdHdr) (p : Plan) (s : State), RunsHere (.powerPlanRead h) s → s.pwr.plan = some p →
     exec (.powerPlanRead h) s = .next (complete s h.src 0x0703 .ok
       (layout [(2, p.steps.length), (2, p.actions.length)] ++ le 4 p.magic ++ le 4 p.version ++ le 2 p.steps.length ++ le 2 p.actions.length ++ List.replicate 52 0))) ∧
  -- R395
  (∀ (s : State) (i : Nat) (r : List Nat), s.pwr.run = none → s.pwr.waiting = i :: r →
     exec .powerStepStart s = .next { s with pwr := { s.pwr with run := some { step := i, act := 0 }, waiting := r } }) ∧
  -- R392, R395: the acknowledgement that a WAIT of level 1 waits for
  (∀ (s : State) (k : Nat) (r : StepRun) (t : HT) (a : PlanAction), s.isHub = false → k < 80 → s.pwr.pmAck.getLsbD k = false → s.pwr.pmReq.getLsbD k = true → s.pwr.run = some r → r.since = some t →
     (s.stepActions r.step)[r.act]? = some a → paOpc a = 3 → paIndex a = k →
     exec (.pmAckChange k true) s = .next (({ s with pwr := { s.pwr with pmAck := s.pwr.pmAck ||| (1#80 <<< k) } } : State).nextAct r)) ∧
  -- R395
  (∀ (s : State) (r : StepRun) (t : HT) (a : PlanAction), s.pwr.run = some r → r.since = some t → (s.stepActions r.step)[r.act]? = some a → paOpc a = 6 → t + paTime a ≤ s.htNs →
     exec .powerDelayExpiry s = .next (s.nextAct r)) ∧
  -- R395
  (∀ (s : State) (r : StepRun) (t : HT) (a : PlanAction), s.pwr.run = some r → r.since = some t → (s.stepActions r.step)[r.act]? = some a → (paOpc a = 3 ∨ paOpc a = 4) → t + paTime a ≤ s.htNs →
     exec .powerWaitTimeout s = .next (s.abortStep r true))

/-- A primary renews its lease every 10,000 ns; a Claiming Hub claims. A voter confirms a renewal of the epoch it granted and refuses another, confirms a newer claim when its grant is stale and refuses it otherwise, and keeps a release. With the confirmations of a quorum the lease of a primary runs to 20,000 ns after the flit left. A refusal of a newer epoch is learned by a claimant. A lease that has ended is released and role Primary left; a partner without a renewal for 30,000 ns claims. -/
def Obligations.LeasesAndVoters : Prop :=
  -- R404
  (∀ (s : State) (t : HT), s.isPrimary = true → s.pair.lastRenew = some t → t + 10000 ≤ s.htNs →
     ∃ u : State, u = { s with pair := { s.pair with lastRenew := some s.htNs, confs := addConf s.pair.confs s.htNs } } ∧
       exec .leaseRenewalSend s = .next ((u.sendAll u.voterPorts (.leaseRenew { epoch := s.pair.epoch, sendHt := s.htNs })).sendChord (.leaseRenew { epoch := s.pair.epoch, sendHt := s.htNs }))) ∧
  -- R406
  (∀ (s : State), s.firstClaim = false → s.pair.role = .claiming → s.isHub = true → s.time.valid = true → s.pair.lastClaim = none → newerEpoch s.pair.epoch s.pair.newest = true →
     ∃ u : State, u = { s with pair := { s.pair with lastClaim := some s.htNs, confs := addConf s.pair.confs s.htNs } } ∧
       exec .leaseClaimSend s = .next (u.sendAll u.voterPorts (.leaseClaim { epoch := s.pair.epoch, sendHt := s.htNs }))) ∧
  -- R404, R406: a renewal at a voter
  (∀ (s0 s : State) (l : Link) (f : LeaseFlit), s0.takeFlit l 1 = (s, true) → (s.port l.port).up = true → s.params.isChord l.port = false → s.params.isUp l.port = true → s.votes = true →
     ((f.epoch = s.pair.gEpoch ∧ s.hubOf l.port = s.pair.gPos) → exec (.leaseRenewalReceive l f) s0 = .next (({ s with pair := { s.pair with gLastRenew := s.htNs } } : State).send l.port (.leaseConfirm f))) ∧
     (¬ (f.epoch = s.pair.gEpoch ∧ s.hubOf l.port = s.pair.gPos) → exec (.leaseRenewalReceive l f) s0 = .next (s.send l.port (.leaseRefuse s.pair.gEpoch f)))) ∧
  -- R405: a claim at a voter
  (∀ (s0 s : State) (l : Link) (f : LeaseFlit), s0.takeFlit l 1 = (s, true) → (s.port l.port).up = true → s.params.isUp l.port = true → s.votes = true → ¬ (f.epoch = s.pair.gEpoch ∧ s.hubOf l.port = s.pair.gPos) →
     ((newerEpoch f.epoch s.pair.gEpoch && s.grantStale) = true → exec (.leaseClaimReceive l f) s0 = .next
       (({ s with pair := { s.pair with gEpoch := f.epoch, gPos := s.hubOf l.port, gReleased := false, gLastRenew := s.htNs } } : State).send l.port (.leaseConfirm f))) ∧
     ((newerEpoch f.epoch s.pair.gEpoch && s.grantStale) = false → exec (.leaseClaimReceive l f) s0 = .next (s.send l.port (.leaseRefuse s.pair.gEpoch f)))) ∧
  -- R405: a release at a voter, of the epoch it granted
  (∀ (s0 s : State) (l : Link) (f : LeaseFlit), s0.takeFlit l 1 = (s, true) → (s.port l.port).up = true → s.params.isChord l.port = false → s.params.isUp l.port = true → s.votes = true → f.epoch = s.pair.gEpoch → s.hubOf l.port = s.pair.gPos →
     exec (.leaseReleaseReceive l f) s0 = .next { s with pair := { s.pair with gReleased := true } }) ∧
  -- R404: the confirmation of a primary that completes a quorum of one flit
  (∀ (s0 s : State) (l : Link) (v : Nat) (f : LeaseFlit) (e : HT), s0.takeFlit l 1 = (s, true) → s0.params.isDown l.port = true → v = s.portChild l.port → s.isHub = true → s.pair.role = .primary → f.epoch = s.pair.epoch → f.epoch ≠ 0 → bit s.boot.cfg.roster v = true → s.pair.leaseEnd = some e →
     s.pair.confs = [(f.sendHt, [])] → s.quorum = 1 →
     exec (.leaseConfirmationReceive l f) s0 = .next { s with pair := { s.pair with confs := [(f.sendHt, addNew [] v)], leaseEnd := some (max e (f.sendHt + 20000)) } }) ∧
  -- R406: a refusal that names a newer epoch, at a Claiming Hub
  (∀ (s0 s : State) (l : Link) (g : Nat) (f : LeaseFlit), s0.takeFlit l 1 = (s, true) → s.isHub = true → (s.port l.port).up = true → s.params.isDown l.port = true → s.pair.role = .claiming → newerEpoch g s.pair.newest = true →
     exec (.leaseRefusalReceive l g f) s0 = .next ({ s with pair := { s.pair with newest := g } } : State).freshClaim) ∧
  -- R404, Table 17.4: no HANDOVER waits
  (∀ (s : State) (e : HT), s.isPrimary = true → s.pair.leaseEnd = some e → e ≤ s.htNs → s.pair.handover = none →
     exec .leaseLapse s = .next ({ s.sendRelease with pair := { s.sendRelease.pair with lapsed := true } } : State).leavePrimary) ∧
  -- R406
  (∀ (s : State), s.isHub = true → s.pair.role = .partner → s.pair.chordRenewAt + 30000 ≤ s.htNs →
     exec .chordRenewalTimeout s = .next { s with pair := { s.pair with role := .claiming, lastClaim := none, confs := [], since := s.htNs } })

/-- A primary whose chord has been down for 16,384 ns runs alone. A partner applies a mirror flit and counts it in its record. At the end of an epoch a primary closes its record and sends it to its partner. CMD_PAIR ISOLATE of a partner runs alone with the other Hub Isolated; REJOIN of an Isolated Hub of the same mirror version rebuilds its mirror; HANDOVER in range is kept until its time, at which an idle primary releases the lease; READ returns the state of the pair. -/
def Obligations.MirrorAndHandover : Prop :=
  -- R413
  (∀ (s : State) (t : HT), s.pair.chordDownAt = some t → s.isPrimary = true → s.pair.solo = false → s.chordUp = [] → t + 16384 ≤ s.htNs → exec .chordDownSolo s = .next s.goSolo) ∧
  -- R411, R414: at a partner
  (∀ (s0 s : State) (l : Link) (m : MirrorMsg), s0.takeFlit l 1 = (s, true) → s0.params.isChord l.port = true → s.chordUp ≠ [] → s.pair.role = .partner → exec (.mirrorFlitReceive l m) s0 = .next ((s.applyMirror m).logWrite m)) ∧
  -- R456: the primary at the end of an epoch
  (∀ (s : State), s.isHub = true → s.isPrimary = true → s.htNs / 1048576 ≠ s.scriv.epochAt / 1048576 → s.pair.solo = false →
     exec (.epochRecordClose none) s = .next (({ s with scriv := { s.scriv with epochLog := [], epochAt := s.htNs, epochLast := some (epochDigest s.scriv.epochLog) } } : State).sendChord
       (.epochRecord (epochDigest s.scriv.epochLog)))) ∧
  -- R415
  (∀ (h : CmdHdr) (s : State), RunsHere (.pairIsolate h) s → s.pairCheck = none → s.pair.peerRole ≠ .isolated →
     ∃ t : State, t = s.sendChord (.mirror .isolate) ∧ exec (.pairIsolate h) s = .next (complete ({ t with pair := { t.pair with peerRole := .isolated } } : State).goSolo h.src 0x0704 .ok [])) ∧
  -- R415
  (∀ (h : CmdHdr) (s : State), RunsHere (.pairRejoin h) s → s.pairCheck = none → s.pair.peerRole = .isolated → s.pair.peerMirrorVer = s.scriv.mirrorVer →
     exec (.pairRejoin h) s = .next (complete (s.sendChord (.mirror .rejoin)).rebuild h.src 0x0704 .ok [])) ∧
  -- R416
  (∀ (h : CmdHdr) (e : HT) (s : State), RunsHere (.pairHandover h e) s → s.htNs + 1000000 ≤ e → s.pairCheck = none → s.pair.peerRole = .partner →
     exec (.pairHandover h e) s = .next { s with pair := { s.pair with handover := some { eff := e, src := h.src } } }) ∧
  -- R416: with no chunk Draining, in Replay or Gated
  (∀ (s : State) (h : Handover), s.pair.handover = some h → s.isPrimary = true → h.eff ≤ s.htNs → s.coll.chunks = [] →
     exec .handoverEffective s = .next ((complete { s with pair := { s.pair with stopMapping := true } } h.src 0x0704 .ok []).sendRelease.leavePrimary)) ∧
  -- Table 17.5
  (∀ (h : CmdHdr) (s : State), RunsHere (.pairRead h) s → s.jm.saves = [] → s.jm.stages = [] →
     exec (.pairRead h) s = .next (complete s h.src 0x0704 .ok (layout [(1, s.pair.role.val), (1, s.pair.peerRole.val), (4, s.pair.epoch),
       (2, ((s.pair.confs.getLast?).map (fun e => e.2.length)).getD 0), (1, b2n s.pair.solo), (8, idMask (s.chordUp.map (fun p => p - 288))), (32, idMask []), (32, idMask [])])))

/-- ENROLL of a block without helper data and with its PUF on keeps fresh helper data in flash, forms the attestation key and returns its public key; REPORT of an enrolled block returns the report; CERT_LOAD of a chain that ends in the block's key keeps it in flash, CERT_READ returns it. CHALLENGE keeps and returns a fresh challenge; UNLOCK with a token of this device, the pinned licence root and the standing challenge unlocks the block. -/
def Obligations.AttestationAndDebug : Prop :=
  -- R422
  (∀ (h : CmdHdr) (s : State), RunsHere (.attestEnroll h) s → s.flash.helper = none → s.sec.pufOn = true →
     ∃ t : State, exec (.attestEnroll h) s = .next (complete t h.src 0x0803 .ok (be 96 t.attPub)) ∧
       t = { s with freeCtr := s.freeCtr + 1, flash := { s.flash with helper := some (Config.freeRandom s.freeCtr) }
                    sec := { s.sec with helper := Config.freeRandom s.freeCtr, enrolled := true, keysValid := true, attKey := Config.hkdf (Config.rootKey (Config.freeRandom s.freeCtr)) "DXATT" [] } }) ∧
  -- R427
  (∀ (h : CmdHdr) (n u : Nat) (s : State), RunsHere (.attestReport h n u) s → s.sec.keysValid = true → exec (.attestReport h n u) s = .next (complete s h.src 0x0803 .ok (s.report n u))) ∧
  -- R422
  (∀ (h : CmdHdr) (len c : Nat) (s : State), RunsHere (.attestCertLoad h len (.ok (c, true))) s → 1 ≤ len → len ≤ 8192 → s.sec.keysValid = true →
     exec (.attestCertLoad h len (.ok (c, true))) s = .next (complete { s with sec := { s.sec with certs := some (len, c) }, flash := { s.flash with certs := some (len, c) } } h.src 0x0803 .ok [])) ∧
  -- R422
  (∀ (h : CmdHdr) (n c : Nat) (s : State), RunsHere (.attestCertRead h) s → s.sec.certs = some (n, c) → exec (.attestCertRead h) s = .next (complete s h.src 0x0803 .ok (le n c))) ∧
  -- R447
  (∀ (h : CmdHdr) (s : State), RunsHere (.debugChallenge h) s →
     exec (.debugChallenge h) s = .next (complete { s with freeCtr := s.freeCtr + 1, sec := { s.sec with challenge := some (Config.freeRandom s.freeCtr % 2 ^ 384) } } h.src 0x0804 .ok
       (be 48 (Config.freeRandom s.freeCtr % 2 ^ 384)))) ∧
  -- R447
  (∀ (h : CmdHdr) (k : Token) (s : State), RunsHere (.debugUnlock h (.ok k)) s → k.magic = 0x54445844 → k.tver = 1 → k.licHash = s.params.licRootHash → k.sigOk = true → k.deviceId = s.deviceId →
     s.sec.challenge = some k.challenge → exec (.debugUnlock h (.ok k)) s = .next (complete (s.unlock (mbOf h.src)) h.src 0x0804 .ok []))

/-- A Leaf that accepts a distributed barrier keeps what it accepted and acknowledges on the port; an acknowledgement of a running distribution is taken; CMD_HT_STEP of a top pair in range distributes a step with the deadline 1,000,000 ns before its effective HT, and a step that has not been armed everywhere at that deadline fails with ST_BUSY. -/
def Obligations.DistributedCommands : Prop :=
  -- R546, R197: at a Leaf
  (∀ (s0 s : State) (l : Link) (id c g : Nat) (d : BarrierDef) (t : State) (u : Undo), s0.takeFlit l 1 = (s, true) → s.isHub = false → (s.port l.port).up = true → s.params.isDown l.port = false → s.distApply (s.params.isUp l.port) (.barrierDefine c g d) = .ok (t, u) →
     exec (.distributionReceive l id (.barrierDefine c g d)) s0 = .next
       (({ t with scriv := { t.scriv with seen := t.scriv.seen ++ [{ port := l.port, id := id, cmd := .barrierDefine c g d, undo := u }] } } : State).send l.port
         (.distAck id .ok (({ t with scriv := { t.scriv with seen := t.scriv.seen ++ [{ port := l.port, id := id, cmd := .barrierDefine c g d, undo := u }] } } : State).ackInfo (.barrierDefine c g d))))) ∧
  -- R546: the last acknowledgement that a distribution waits for
  (∀ (s0 s : State) (l : Link) (id : Nat) (i : AckInfo) (d : Dist), s0.takeFlit l 1 = (s, true) → (s.port l.port).up = true → s.scriv.dists = [d] → d.id = id → d.waiting = [l.port] →
     exec (.distributionAckReceive l id .ok i) s0 = .next
       (({ s with scriv := { s.scriv with dists := [{ d with waiting := [], accepted := d.accepted ++ [l.port], infos := d.infos ++ [(l.port, i)] }] } } : State).distFinish id d.ownOk)) ∧
  -- R469, R488: while no other step is being distributed from here
  (∀ (h : CmdHdr) (d : Int) (e : HT) (s : State), RunsHere (.cmdHtStep h false d e) s → s.isTop = true → s.htNs + 10000000 ≤ e → 0 ≤ (e : Int) + d → (e : Int) + d < 2 ^ 62 →
     ∃ t : State, t = s.distBegin (.htStep d e) h.src none (layout [(8, twos 64 d)]) (some (e - 1000000)) ∧
       exec (.cmdHtStep h false d e) s = .next (if t.scriv.dists.any (fun x => match x.cmd with | .htStep _ _ => x.up.isNone | _ => false) then
         { t with time := { t.time with step := t.time.step.map (fun a => { a with src := some h.src }) } } else t)) ∧
  -- R488
  (∀ (s : State) (d : Dist) (t : HT), s.scriv.dists = [d] → d.deadline = some t → t ≤ s.htNs →
     exec .htStepArmingDeadline s = .next (s.distFail { d with accepted := d.accepted ++ d.waiting } .busy d.ownOk))

/-- A write of GO to a FREE mailbox posts its command area and appends it to the order; ABORT withdraws a posted command with ST_ABORTED; a write to DONE frees a mailbox in DONE; the mailbox posted first is accepted and its SEQ counts. A forwarded command reaches the primary of its tier; a response completes the command that it answers; a forwarded command without a response for 100,000,000 ns completes with ST_TIMEOUT. -/
def Obligations.Mailboxes : Prop :=
  -- R458
  (∀ (s : State) (m : Option Nat) (a k : Nat), s.mailboxAt m a = some k → (s.mb k).state = 0 →
     ∃ t : State, exec (.mailboxGo m a) s = .next (t.answer 0 false) ∧ (t.mb k).state = 1 ∧ (t.mb k).copy = (s.mb k).cmd ∧ t.scriv.order = s.scriv.order ++ [k] ∧
       (∀ j, j ≠ k → t.mb j = s.mb j) ∧ t = { s with scriv := { s.scriv with mbs := t.scriv.mbs, order := t.scriv.order } }) ∧
  -- R458: of a host mailbox
  (∀ (s : State) (m : Option Nat) (a k : Nat), s.mailboxAt m a = some k → (s.mb k).state = 1 → k < 256 →
     ∃ t : State, exec (.mailboxAbort m a) s = .next (t.answer 0 false) ∧ (t.mb k).state = 3 ∧ (t.mb k).code = St.aborted.val ∧ t.scriv.order = s.scriv.order.filter (fun x => x != k) ∧
       (∀ j, j ≠ k → t.mb j = s.mb j) ∧ t = { s with scriv := { s.scriv with mbs := t.scriv.mbs, order := t.scriv.order } }) ∧
  -- R458
  (∀ (s : State) (m : Option Nat) (a k : Nat), s.mailboxAt m a = some k → (s.mb k).state = 3 →
     exec (.mailboxDoneClear m a) s = .next ((s.modMb k (fun b => { b with state := 0, irqDone := false })).answer 0 false)) ∧
  -- R459: a host mailbox
  (∀ (s : State) (m : Nat) (r : List Nat), s.scriv.order = m :: r → m < 256 → s.scriv.restarting = false → s.scriv.accepting = true → s.runningMbs.length < 16 → 3 ≤ s.boot.stage → headOk (copyBytes (s.mb m).copy) = true →
     ∃ t : State, exec .mailboxAccept s = .next t ∧ (t.mb m).state = 2 ∧ (t.mb m).go = false ∧ (t.mb m).seq = ((s.mb m).seq + 1) % 2 ^ 32 ∧ (t.mb m).acceptHt = s.htNs ∧ t.scriv.order = r ∧
       (∀ j, j ≠ m → t.mb j = s.mb j) ∧ t = { s with scriv := { s.scriv with mbs := t.scriv.mbs, order := r } }) ∧
  -- R460: an opcode that is not listed, or a reserved field that is not 0, at a host mailbox
  (∀ (s : State) (m : Nat) (r : List Nat), s.scriv.order = m :: r → m < 256 → s.scriv.restarting = false → s.scriv.accepting = true → s.runningMbs.length < 16 → 3 ≤ s.boot.stage → s.boot.stage ≠ 8 →
     headOk (copyBytes (s.mb m).copy) = false →
     ∃ t : State, exec .mailboxAccept s = .next t ∧ (t.mb m).state = 3 ∧ (t.mb m).code = St.range.val ∧ t.scriv.order = r) ∧
  -- R461: at the primary of the tier that executes it
  (∀ (s0 s : State) (l : Link) (b m q o : Nat) (mir : Bool) (w : BitVec 512) (again : Bool), s0.takeFlit l 1 = (s, true) → s.isHub = true → (s.port l.port).up = true → s.isPrimary = true →
     exec (.forwardedCommandReceive l b m q s.tier o mir w again) s0 = .next (s.takeFwd l.port b m q o (w.toNat / 2 ^ 64 % 256) again)) ∧
  -- R461: to a command of a host mailbox of this block
  (∀ (s0 s : State) (lk : Link) (k q : Nat) (c : St) (l : List Byte) (f : Fwd), s0.takeFlit lk 1 = (s, true) → s.scriv.fwds.find? (fun f => f.src == .host k && f.seq == q) = some f →
     exec (.forwardResponseReceive lk (.host k) q c l) s0 = .next (complete (s.dropFwd (.host k) q) (.host k) f.opcode c l)) ∧
  -- R461: of a command of a host mailbox of this block
  (∀ (s : State) (k : Nat) (f : Fwd), s.scriv.fwds = [f] → f.src = .host k → f.sentAt + 100000000 ≤ s.htNs →
     exec (.forwardTimeout (.host k)) s = .next (complete (s.dropFwd (.host k) f.seq) (.host k) f.opcode .timeout []))

/-- A watchdog expiry, a double-bit error and a bad fetch of a running Scrivener each record their event, abort what runs and begin a restart; a corrected error is counted. A restart that completes without an activation runs the active image. STAGE of a sound firmware image writes the inactive slot; ACTIVATE of a staged image waits for its effective HT; there an idle Scrivener changes slots, and 1,000,000,000 ns later with what still runs aborted. A write of CMD_JOURNAL_CONFIG that the guard unit refuses is not performed, is counted and recorded, and ends the command with ST_GUARD. -/
def Obligations.ScrivenerFaultsAndFirmware : Prop :=
  -- R453
  (∀ (s : State), s.scriv.restarting = false → 3 ≤ s.boot.stage → s.recovery = false →
     ∃ f : Nat → State, (∀ n, f n = (({ (s.record { event := n }).abortRunning none with scriv := { ((s.record { event := n }).abortRunning none).scriv with act := none, accepting := true } } : State).beginRestart).trialRestart) ∧
       exec .sramDoubleError s = .next (f 0x0920) ∧ exec .badFetch s = .next (f 0x0922) ∧ (s.scriv.watchdog + 10000000 ≤ s.htNs → exec .watchdogExpiry s = .next (f 0x0921))) ∧
  -- R453
  (∀ (s : State), exec .sramSingleBitError s = .next { s with scriv := { s.scriv with eccCorr := (s.scriv.eccCorr + 1) % 65536 } }) ∧
  -- R453, R467
  (∀ (s : State) (i : Image), s.scriv.restarting = true → s.scriv.act = none → s.imageAt 0 s.flash.boot.fwActive = some i → exec (.scrivenerRestartComplete true) s = .next (s.runFw i).restarted) ∧
  -- R466
  (∀ (h : CmdHdr) (len : Nat) (i : Image) (s : State), RunsHere (.cmdFwStage h 0 len (.ok i)) s → s.scriv.act = none → imgRange i.hdr 0 len = true → i.hdr.sigOk = true → s.scriv.minSvn ≤ i.hdr.svn → i.hdr.readBackOk = true →
     ∃ t : State, t = s.putImage 0 (1 - s.flash.boot.active 0) (some i) ∧ exec (.cmdFwStage h 0 len (.ok i)) s = .next (complete { t with scriv := { t.scriv with staged := addNew t.scriv.staged 0 } } h.src 0x0901 .ok
       (layout [(1, 1 - s.flash.boot.active 0)] ++ hdrBytes i.hdr))) ∧
  -- R467: of firmware by a Leaf at a stated time
  (∀ (h : CmdHdr) (e : HT) (i : Image) (s : State), RunsHere (.cmdFwActivate h 0 e) s → s.isHub = false → s.recovery = false → s.scriv.staged.contains 0 = true → s.imageAt 0 (1 - s.flash.boot.active 0) = some i → e ≠ 0 →
     s.htNs + 1000000 ≤ e → s.scriv.act = none → exec (.cmdFwActivate h 0 e) s = .next { s with scriv := { s.scriv with act := some { kind := 0, eff := e, src := h.src } } }) ∧
  -- R467: of firmware while no mailbox command runs
  (∀ (s : State) (a : Activation), s.scriv.act = some a → a.eff ≤ s.htNs → s.scriv.restarting = false → a.kind = 0 → s.runningMbs = [] →
     exec .fwActivateEffective s = .next (({ s with scriv := { s.scriv with accepting := false, act := some { a with effective := true } } } : State).flipFw a)) ∧
  -- R467
  (∀ (s : State) (a : Activation), s.scriv.act = some a → a.effective = true → s.scriv.restarting = false → a.eff + 1000000000 ≤ s.htNs →
     exec .activationCommandWaitExpiry s = .next ((s.abortRunning (mbOf a.src)).flipFw a)) ∧
  -- R353: of CMD_JOURNAL_CONFIG
  (∀ (h : CmdHdr) (n : Nat) (g : Nat × Nat) (inf : CmdInfo) (s : State), cmdOf (.cmdJournalConfig h n) s = some (inf, h) → gate inf h s = none → route s inf h = .here → h.param = .ok () →
     h.guard = some g → 1 ≤ n → n ≤ 168 →
     exec (.cmdJournalConfig h n) s = .next (complete (({ s with scriv := { s.scriv with guardTrips := (s.scriv.guardTrips + 1) % 65536 } } : State).record
       { event := 0x0923, code := St.guard.val, syn := le 2 g.1 ++ [0, 0] ++ le 4 g.2 }) h.src 0x0507 .guard []))

/-- A block reset gives every register its reset value and keeps flash, a power-on reset also enables the PUF and clears UNLOCKED. Start-up of a Leaf with firmware and configuration that verify runs to the start of port bring-up. A Hub of the top pair at position 0 that hears no primary loads HT from the checkpoint after 2,000,000,000 ns, and with the first valid HT the tile histories are rebuilt. Firmware that ran 600 s without a restart is no longer on trial. An update of the boot record writes the copy that is not in force with GEN + 1, which then is in force, and leaves the other copy as it was. -/
def Obligations.ResetsAndStartUp : Prop :=
  -- R474
  (∀ (s : State), exec .blockReset s = .next s.afterReset ∧ exec .powerOnReset s = .next { s.afterReset with sec := { s.afterReset.sec with unlocked := false, pufOn := true } } ∧
     s.afterReset.params = s.params ∧ s.afterReset.flash = s.flash ∧ s.afterReset.ctx = [] ∧ s.afterReset.sync = {} ∧ s.afterReset.boot.stage = 0) ∧
  -- R482: a Leaf
  (∀ (s s1 s2 s3 s4 : State) (p j : Bool) (l : List Nat) (c : Image), s.boot.stage = 0 → s.scriv.restarting = false → s1 = s.resumeSeq.formKeys p → s1.imageAt 1 s1.flash.boot.cfgActive = some c → cfgOk (some c) = true →
     s1.loadFw c.hdr.svn = some s2 → s2.loadCfg = some s3 → s4 = (({ s3 with boot := { s3.boot with stage := 3, stage3At := s.htNs } } : State).restore).settleUnits → s4.sec.ownerValid = true → s4.isHub = false →
     exec (.startUp p j l) s = .next { s4 with boot := { s4.boot with stage := 5 }, scriv := { s4.scriv with watchdog := s.htNs, restartAt := s.htNs } }) ∧
  -- R40, R484
  (∀ (s : State), s.isTop = true → s.boot.cfg.pos = 0 → s.boot.stage = 5 → s.time.valid = false → s.boot.stage3At + 2000000000 ≤ s.htNs → coldHt s.flash.checkpoint < 2 ^ 62 → s.chordTime = [] →
     ∃ t : State, t = s.moveTime ((coldHt s.flash.checkpoint : Int) - s.htNs) ∧ exec .soloStartTimeout s = .next
       (({ t with time := { t.time with ht48 := coldHt s.flash.checkpoint * 2 ^ 48, valid := true }, boot := { t.boot with stage := 6, soloLoad := true } } : State).rebuildHistories.completeWaiting.refreshWord)) ∧
  -- R478
  (∀ (s : State), s.flash.boot.trial = true → s.scriv.restarting = false → s.scriv.restartAt + 600000000000 ≤ s.htNs → 3 ≤ s.boot.stage → s.boot.stage ≠ 8 →
     exec .fwTrialClear s = .next { s with flash := s.flash.putBoot { s.flash.boot with trial := false, trialRestarts := 0 } }) ∧
  -- R476
  (∀ (f : Flash) (b : BootRec), (f.putBoot b).boot = { b with gen := f.boot.gen + 1 } ∧ (f.putBoot b).boots.get none f.bootAt.1 = f.boots.get none f.bootAt.1 ∧
     f.putBoot b = { f with boots := (f.putBoot b).boots })

/-- A read of the low word of a long value returns it and latches its high part in the shadow; a read of DX_TDC_STAMP_LOn removes the oldest raw stamp, of DX_NOTICE0 the oldest notice, each latching the rest. A write to a register that the access has the right to and that does not act by itself takes its effect with a normal response; one to no register, or without the right, changes nothing and is answered with an error. A rising edge of ht_ev[c] is stamped unless one was stamped less than 64 ns before. -/
def Obligations.RegisterPort : Prop :=
  -- R43
  (∀ (s : State), exec .htLoRead s = .next (({ s with time := { s.time with
       shHi := BitVec.ofNat 32 (s.htNs / 2 ^ 32)
       shFrac := fields [(s.time.ht48 / 2 ^ 32 % 65536, 0), (b2n s.time.valid, 16), (b2n s.time.slew, 17), (s.time.stepCnt % 256, 24)] } } : State).answer (BitVec.ofNat 32 s.htNs) false)) ∧
  -- Table 2.2
  (∀ (s : State), exec .taiOfsLoRead s = .next (({ s with time := { s.time with
       shTaiHi := BitVec.ofInt 32 (s.time.ofs / 2 ^ 32)
       shTaiCtl := fields [(s.time.utc, 0), (s.time.leap, 8), (b2n s.time.taiValid, 10), (b2n s.time.pend.isSome, 11), (s.time.seq % 65536, 16)] } } : State).answer (BitVec.ofInt 32 s.time.ofs) false)) ∧
  -- Table 3.9
  (∀ (s : State), s.isHub = true → exec (.fcwLoRead 0) s = .next (({ s with dpll := { s.dpll with shFcwHi := BitVec.ofInt 32 (s.dpll.fcw / 2 ^ 32) } } : State).answer (BitVec.ofInt 32 s.dpll.fcw) false)) ∧
  -- Table 4.5
  (∀ (s : State) (c st w : Nat) (r : List (Nat × Nat)), c < 8 → (s.tdcCh c).fifo = (st, w) :: r →
     exec (.tdcStampLoRead c 0) s = .next ((s.modTdc c (fun t => { t with fifo := r, shHi := fields [(st % 8, 0), (w, 3), (r.length, 8)] })).answer (BitVec.ofNat 32 (st / 8)) false)) ∧
  -- Table 12.9
  (∀ (s : State), s.isHub = true → exec (.hmSeqLoRead 0) s = .next (({ s with hm := { s.hm with shSeqHi := BitVec.ofNat 32 ((s.hm.nextSeq - 1) / 2 ^ 32) } } : State).answer (BitVec.ofNat 32 (s.hm.nextSeq - 1)) false)) ∧
  -- Table 13.11
  (∀ (s : State), exec (.dbSeqLoRead 0) s = .next (({ s with flt := { s.flt with shDbHi := BitVec.ofNat 32 (s.lastDbSeq / 2 ^ 32) } } : State).answer (BitVec.ofNat 32 s.lastDbSeq) false)) ∧
  -- R535
  (∀ (s : State) (e : NoticeEntry) (r : List NoticeEntry), s.flt.notices = e :: r →
     exec (.noticeRead 0) s = .next (({ s with flt := { s.flt with
         notices := r, shN1 := fields [(if e.self then 0 else e.port, 0), (b2n e.self, 9), (r.length, 11)], shN2 := BitVec.ofNat 32 e.seqLo } } : State).answer (fields [(e.event, 0), (e.unit, 16)]) false)) ∧
  -- R507, R444, R530
  (∀ (s : State) (a : Nat) (v : Word) (k : Nat),
     (∀ r, regAt s.params a = some r → s.regRight r k = true → s.putOwn r v k = none → exec (.registerWrite a v k) s = .next ((((s.putA r v).putB r v).putC r v).answer 0 false)) ∧
     (∀ r, regAt s.params a = some r → s.regRight r k = false → exec (.registerWrite a v k) s = .next (s.answer 0 true)) ∧
     (regAt s.params a = none → exec (.registerWrite a v k) s = .next (s.answer 0 true))) ∧
  -- R511
  (∀ (s : State) (c : Nat), c < 4 → (∀ t, (s.time.ev.get {} c).last = some t → t + 64 ≤ s.htNs) →
     exec (.htEvEdge c) s = .next { s with time := { s.time with ev := s.time.ev.set {} c { stamp := BitVec.ofNat 32 s.htNs, tgl := !(s.time.ev.get {} c).tgl, last := some s.htNs } } })

/-- With any command at the front of the queue of waiting commands, a step is that command's effect on the state with the queue's rest. On an empty queue a step is one tick of the hall time domain, which is the model's choice (log 3). The order of the queue is the model's own form (log 1). -/
def Obligations.StepTakesTheFrontCommand : Prop :=
  (∀ (s : State) (c : Instr) (r : List Instr), step (s.withPending (c :: r)) = exec c (s.withPending r)) ∧
  -- log 3
  (∀ (s : State), s.pending = [] → step s = tick s)

/-- After reset an operator's read of each register of a Hub-64, of the first of each group of registers, returns the reset values that the manual's register tables give to its fields, with a normal response. DX_TDC_STAMP_HIn reads its table's value before its first trigger (log 67); DX_CONFIG and DX_IDCODE, which report integration parameters, are left out. -/
def Obligations.RegistersAtReset : Prop :=
  -- DX_IDENT to DX_NOTICE1
  (∀ x ∈ ([
       (0x0, 0x594b5844), (0x4, 0x30002), (0x10, 0), (0x14, 0), (0x100, 0), (0x104, 0), (0x108, 0), (0x110, 0), (0x114, 0),
       (0x118, 0), (0x11C, 0), (0x1000, 0), (0x1040, 0), (0x1080, 0), (0x1084, 0), (0x1900, 0), (0x1904, 0), (0x1908, 0),
       (0x1A00, 0), (0x20000, 0), (0x20004, 0), (0x20008, 0), (0x2000C, 0), (0x20010, 0), (0x20040, 0), (0x20044, 0)] : List (Nat × Nat)), State.reset.regRead x.1 0 = (BitVec.ofNat 32 x.2, false)) ∧
  -- DX_NOTICE2 to DX_LINK_ASYMp
  (∀ x ∈ ([
       (0x20048, 0), (0x20100, 0), (0x40000, 0), (0x40004, 0), (0x40008, 0), (0x4000C, 0), (0x40010, 0xf), (0x40020, 0),
       (0x40030, 0), (0x40034, 0), (0x40038, 0), (0x4003C, 0), (0x40040, 0), (0x50000, 0x1412), (0x50004, 0), (0x50008, 0x3e8),
       (0x5000C, 0), (0x50010, 0), (0x50014, 0), (0x50018, 0), (0x5001C, 0x80), (0x50100, 0), (0x50104, 0), (0x60000, 0),
       (0x60004, 0), (0x60008, 0)] : List (Nat × Nat)), State.reset.regRead x.1 0 = (BitVec.ofNat 32 x.2, false)) ∧
  -- DX_LINK_PHASEp to DX_SPARE_TILES_HI
  (∀ x ∈ ([
       (0x6000C, 0), (0x60010, 0), (0x60014, 0), (0x78000, 0), (0x78004, 0), (0x78008, 0), (0x7800C, 0), (0x88000, 0),
       (0x90000, 0), (0x90100, 0), (0x90200, 0), (0xA8000, 0), (0xA8004, 0), (0xA8008, 0), (0xB0000, 8), (0xB1000, 0x10),
       (0xB8000, 8), (0xC8000, 0), (0xC8004, 0), (0xC8008, 0), (0xC800C, 0), (0xD0000, 0), (0xD0004, 0), (0xD0008, 0),
       (0xD000C, 0), (0xD0010, 0)] : List (Nat × Nat)), State.reset.regRead x.1 0 = (BitVec.ofNat 32 x.2, false)) ∧
  -- DX_DB_SEQ_LO to DX_INTEG_STAT
  (∀ x ∈ ([
       (0xD0014, 0), (0xD0018, 0), (0xD001C, 0), (0xD0020, 0), (0xE8000, 0), (0xE8004, 0), (0xE8008, 0), (0xE800C, 0x18),
       (0xE8100, 0), (0xE8104, 0), (0xF0000, 0), (0xF0004, 0), (0x100000, 0x33), (0x100100, 0), (0x100104, 0), (0x118000, 0),
       (0x118004, 0), (0x118008, 0), (0x11800C, 0), (0x120000, 8), (0x120004, 0), (0x121000, 0), (0x130000, 0), (0x140000, 0)] : List (Nat × Nat)), State.reset.regRead x.1 0 = (BitVec.ofNat 32 x.2, false))

/-- In every state of every role and configuration, a read of the register at offset 0x00_0004 by any access returns 0x0003_0002, whose bits [31:16] are the major version 3 and whose bits [15:0] are the minor version 2. -/
def Obligations.VersionRegister : Prop :=
  -- R1
  (∀ (s : State) (access : Nat), s.regRead 4 access = (0x00030002, false)) ∧
  -- R1
  (∀ (s : State) (access : Nat), (s.regRead 4 access).1.extractLsb 31 16 = 3 ∧ (s.regRead 4 access).1.extractLsb 15 0 = 2)

/-- For every state, if a step answers a next state, that state has the same integration parameters, whatever the command was; and a read of DX_CONFIG by any access returns, before and after, the same word: CONFIG, HUB, TILES, HT_PORTS, FB_ADDR_W and FLASH_SIZE of those parameters. -/
def Obligations.ConfigurationIsFixed : Prop :=
  -- R3
  (∀ (s s' : State), step s = .next s' → s'.params = s.params) ∧
  -- R3
  (∀ (s s' : State) (access : Nat), step s = .next s' → s.regRead 8 access = (BitVec.ofNat 32 s.params.dxConfig, false) ∧ s'.regRead 8 access = s.regRead 8 access)

/-- For every command and every state there is a next state: no command of the block ends in a fault or a refusal. That state has the parameters and the queue of waiting commands of the state before. -/
def Obligations.EveryCommandCompletes : Prop :=
  ∀ (i : Instr) (s : State), ∃ t, exec i s = .next t ∧ t.params = s.params ∧ t.pending = s.pending

/-- In every state whose last response of the register interface carries the data 0 when it is an error response, every step that answers a next state leaves one that does too, whatever the command and the state. -/
def Obligations.ErrorResponsesCarryZero : Prop :=
  -- R507
  ∀ (s s' : State), s.RgOk → step s = .next s' → s'.RgOk

/-- In every state in which an unlocked block has its PUF disabled, KEYS_VALID 0 and no attestation key, every step that answers a next state leaves a state of that kind. While the command at the front of the queue is not a power-on reset, a block that is unlocked is still unlocked after the step: no start-up, enrolment, block reset, restart or command gives it a key. -/
def Obligations.UnlockedBlocksHoldNoKey : Prop :=
  -- R447
  (∀ (s s' : State), s.KeyOk → step s = .next s' → s'.KeyOk) ∧
  -- R447, R474
  (∀ (s s' : State), s.pending.head? ≠ some .powerOnReset → s.KeyOk → s.sec.unlocked = true → step s = .next s' →
     s'.sec.unlocked = true ∧ s'.sec.pufOn = false ∧ s'.sec.keysValid = false ∧ s'.sec.attKey = 0)

/-- State.reset meets both invariants: its last response is none that breaks R507, and it is not unlocked; its queue of commands is empty, HT is 0 ns and not VALID, and the block is at the start of start-up with its test port locked. -/
def Obligations.InvariantsAtReset : Prop :=
  State.reset.RgOk ∧ State.reset.KeyOk ∧ State.reset.pending = [] ∧ State.reset.htNs = 0 ∧ State.reset.time.valid = false ∧ State.reset.sec.unlocked = false ∧
    State.reset.sec.keysValid = false ∧ State.reset.sec.tapLocked = true ∧ State.reset.boot.stage = 0

/-- For each of the commands that come through a mailbox: the first check of R460 that fails completes it with that check's code and no results, and nothing else of the command happens. One that passes the checks and whose route goes up is forwarded up; one that the primary of the pair must run is forwarded over the chord; and when a read that it makes over the fabric fails, nothing is forwarded and it completes with ST_RANGE or ST_POISON. The order in which the checks are read here and the codes of a failing route are the model's reading (log 7). -/
def Obligations.CommandsFailTheirChecks : Prop :=
  -- R460
  (∀ (i : Instr) (s : State) (inf : CmdInfo) (h : CmdHdr) (c : St), cmdOf i s = some (inf, h) → gate inf h s = some c →
     exec i s = .next (complete s h.src inf.opcode c [])) ∧
  -- R461, R401
  (∀ (i : Instr) (s : State) (inf : CmdInfo) (h : CmdHdr), cmdOf i s = some (inf, h) → gate inf h s = none → bothReads h.param (ownRead i) = .ok () →
     (route s inf h = .up → exec i s = .next (forwardCmd s inf h false)) ∧ (route s inf h = .chord → exec i s = .next (forwardCmd s inf h true))) ∧
  -- R545, R461
  (∀ (i : Instr) (s t : State) (inf : CmdInfo) (h : CmdHdr) (c : St), cmdOf i s = some (inf, h) → gate inf h s = none → (route s inf h).forwards = true →
     readFailed s (bothReads h.param (ownRead i)) = some (t, c) → exec i s = .next (complete t h.src inf.opcode c []))

/-- A read of an address at which no register lies, and a read by an access that has no right to the register, returns 0 with the error response; any other read of a register whose own rule does not refuse it returns its value with a normal response. A tenant access never has the right to an operator's register, nor to a per-context register of another slot. -/
def Obligations.RegisterReadsAndRights : Prop :=
  -- R507, R530
  (∀ (s : State) (a k : Nat), (regAt s.params a = none → s.regRead a k = (0, true)) ∧
     (∀ r, regAt s.params a = some r → s.regRight r k = false → s.regRead a k = (0, true)) ∧
     (∀ r, regAt s.params a = some r → s.regRight r k = true → s.readFails r k = false → s.regRead a k = (s.regVal r k, false)) ∧
     ((s.regRead a k).2 = true → (s.regRead a k).1 = 0)) ∧
  -- R444
  (∀ (s : State) (r : Reg) (k c : Nat), k ≠ 0 → (s.regClass r = .op → s.regRight r k = false) ∧ (s.regClass r = .slot c → k ≠ c → s.regRight r k = false))

/-- For every Ledger element of ten limbs whose GUARDs lie within -126 to +125 and every finite term that is a multiple of 2^-149 of magnitude below 2^128 (R208): the element after the addition, with the carry step that follows it, has N plus the term's value, its flag word is unchanged, and its GUARDs rise or fall by at most 2. A carry step by itself leaves N unchanged for GUARDs within -127 to +126. A term that is not finite changes only the two copies of the flag word. A finite product of two terms whose product of significands has at most 64 bits is such an addend. -/
def Obligations.LedgerAddsExactly : Prop :=
  -- R215, R216
  (∀ (e : Elem) (t : Term), t.addend = true → e.limbs.length = 10 → limbsWithin 126 e.limbs = true →
     (e.add t).n = e.n + t.units ∧ (e.add t).flag = e.flag ∧ (e.add t).flag2 = e.flag2 ∧ (e.add t).limbs.length = 10 ∧
       ∀ g, 1 ≤ g → g ≤ 126 → limbsWithin g e.limbs = true → limbsWithin (g + 2) (e.add t).limbs = true) ∧
  -- R216
  (∀ (l : List (BitVec 40)), limbsWithin 127 l = true → limbsN (carryStep l) = limbsN l) ∧
  -- R212
  (∀ (e : Elem) (t : Term), t.kind ≠ .fin → e.add t = e.setFlag (fwNote e.flag t.kind)) ∧
  -- R211, R208
  (∀ (a b : Term), a.m * b.m < 2 ^ 64 → (mulTerm a b).1.kind = .fin → (mulTerm a b).1.addend = true)

/-- For every list of ten limbs whose GUARDs lie within -127 to +126, resolve gives the nine 32-bit digits of N and a last limb with the rest, so two elements of one N have the same canonical limbs. For any limbs, resolved or not, the sum of the limbs' residues modulo 65535 is the residue of N. -/
def Obligations.LedgerCanonicalForm : Prop :=
  -- R217
  (∀ (l : List (BitVec 40)), l.length = 10 → limbsWithin 127 l = true → resolve l = limbsOf 10 (limbsN l)) ∧
  -- R220
  (∀ (l : List (BitVec 40)), resElement l = res (limbsN l))

/-- For every N of magnitude below 2^308 (R208) and every flag word without reserved bits: the 44-byte image reads back as that N and flag word, and the packed element, in whichever of its forms the sender chooses, reads back as that N and flag word with the bytes that follow it left over. -/
def Obligations.LedgerPackedRoundTrip : Prop :=
  -- R218, R219
  (∀ (n : Int) (f : BitVec 40), -(2 : Int) ^ 308 < n → n < 2 ^ 308 → f = mkFw (fwPinf f) (fwNinf f) (fwNan f) (fwPoison f) → readImage (imageBytes n f) = some (n, f)) ∧
  -- R226, R227, R228
  (∀ (n : Int) (f : BitVec 40) (r : List Byte), -(2 : Int) ^ 308 < n → n < 2 ^ 308 → f = mkFw (fwPinf f) (fwNinf f) (fwNan f) (fwPoison f) →
     unpackElem (packElem n f ++ r) = some ((n, f), r))

/-- For every Ledger element of ten limbs with every GUARD 0 or -1, as after a clear or in canonical form, and every two lists of finite terms, each a multiple of 2^-149 of magnitude below 2^128 (R208), of which one is a permutation of the other, of up to 60 terms: adding the terms of the one list and of the other gives the same canonical limbs, those of N plus the sum of the terms' values. For 60 terms no GUARD can leave its range even if no stall of R216 ever came, which the model does not show. -/
def Obligations.LedgerOrderDoesNotMatter : Prop :=
  -- R213
  (∀ (e : Elem) (ts : List Term), e.limbs.length = 10 → limbsWithin 1 e.limbs = true → ts.length ≤ 60 →
     (∀ t ∈ ts, t.addend = true) →
     (ts.foldl Elem.add e).n = e.n + (ts.map Term.units).sum ∧ resolve (ts.foldl Elem.add e).limbs = limbsOf 10 (e.n + (ts.map Term.units).sum)) ∧
  -- R213
  (∀ (e : Elem) (ts us : List Term), ts.Perm us → e.limbs.length = 10 → limbsWithin 1 e.limbs = true → ts.length ≤ 60 →
     (∀ t ∈ ts, t.addend = true) →
     resolve (ts.foldl Elem.add e).limbs = resolve (us.foldl Elem.add e).limbs)

/-- The device of a symbol position and the position of a device are inverse on the 20 of Table 14.1. The codeword of any data has the syndromes 0. When every wrong symbol of an access lies in one device, in any bits of any of its eight codewords, a channel without a mark corrects the access and its corrections name that device alone; so does a channel whose mark is that device. -/
def Obligations.SymbolCode : Prop :=
  -- R346, Table 14.1
  (∀ p, p < 20 → devPos (symDev p) = p ∧ symDev (devPos p) = p ∧ symDev p < 20 ∧ devPos p < 20) ∧
  -- R346
  (∀ (data : List Sym) (i : Nat), i < 4 → rsSyn (rsEncode data) i = 0#8) ∧
  -- R347: a channel without a mark
  (∀ (e : JournalErr) (d : Nat), d < 20 → (∀ x ∈ e.errs, x.dev = d) → ∃ l, decodeAcc none e = some l ∧ ∀ x ∈ l, x = d) ∧
  -- R348: the marked device
  (∀ (e : JournalErr) (d : Nat), d < 20 → (∀ x ∈ e.errs, x.dev = d) → ∃ l, decodeAcc (some d) e = some l ∧ ∀ x ∈ l, x = d)

/-- For every address and every list of bytes: the requests carry the bytes in order, each request starts where those before it end, and the first and last byte of a request lie in the same 4 KiB. -/
def Obligations.TransfersAreCut : Prop :=
  -- R509
  (∀ (a : Nat) (l : List Byte), ((fabricPieces (l.length + 1) a l).map (fun e => e.2)).flatten = l) ∧
  -- R509
  (∀ (a : Nat) (l : List Byte) (ps qs : List (Nat × List Byte)) (e : Nat × List Byte), fabricPieces (l.length + 1) a l = ps ++ e :: qs → e.1 = a + ((ps.map (fun x => x.2)).flatten).length) ∧
  -- R509
  (∀ (a : Nat) (l : List Byte), ∀ e ∈ fabricPieces (l.length + 1) a l, 0 < e.2.length → e.1 / 4096 = (e.1 + e.2.length - 1) / 4096)

/-- A port that the block has reads the whole nanoseconds of HT, its 16 fraction bits, VALID and STEP_CNT of the moment; a port that it does not have reads nothing. The advance of a tick, with whatever correction the servo applies, never makes HT fall and leaves VALID and STEP_CNT. -/
def Obligations.TimeReadPort : Prop :=
  -- R46
  (∀ (s : State) (r : Nat), (r < s.params.htPorts → s.htPort r = some (s.htNs, s.time.ht48 / 2 ^ 32 % 65536, s.time.valid, s.time.stepCnt)) ∧ (s.params.htPorts ≤ r → s.htPort r = none)) ∧
  -- R35, R47
  (∀ (s : State), s.time.ht48 ≤ s.advance.time.ht48 ∧ s.advance.time.valid = s.time.valid ∧ s.advance.time.stepCnt = s.time.stepCnt)

/-- A flit that carries payload of a context with ENC is authenticated and encrypted under the key that the context's key gives for the nonces of the parent and of the child and the direction; the two directions of a port take the nonces in the same order. A flit of a context without ENC is not encrypted. -/
def Obligations.PayloadKeys : Prop :=
  -- R435: at the parent's end, and at the child's end
  (∀ (s : State) (p c : Nat),
     (s.childEnd p = false → s.payloadKey p c = Config.hkdf (s.slot c).key "DXLNK" [(s.port p).nonce, (s.port p).peerNonce, 0]) ∧
     (s.childEnd p = true → s.payloadKey p c = Config.hkdf (s.slot c).key "DXLNK" [(s.port p).peerNonce, (s.port p).nonce, 1])) ∧
  -- R132
  (∀ (s : State) (p : Nat) (m : TxMsg), m.payload = true →
     ((s.slot m.slotGen.1).enc = true → (s.mkFlit p (some m)).enc = true ∧ (s.mkFlit p (some m)).auth = true ∧ (s.mkFlit p (some m)).key = s.payloadKey p m.slotGen.1) ∧
     ((s.slot m.slotGen.1).enc = false → (s.mkFlit p (some m)).enc = false))
end

