-- ==== Sys2Proof/Laws/Cmd.lean ====
section
/-! SUPPORT. Everything that running a mailbox command can do: it fails a check, is forwarded, or runs its body. -/

set_option linter.all false

namespace Sys2Proof.Machine
open Sys2Proof

/-- A command that fails a check of R460 completes with its code. -/
theorem runCmd_fails {i : CmdInfo} {h : CmdHdr} {s : State} {c : St} (body : State → CmdRes) (g : gate i h s = some c) :
    runCmd i h s body = .next (complete s h.src i.opcode c []) := by
  simp [runCmd, g]

/-- A command whose parameter block cannot be read completes with the code of the read. -/
theorem runCmd_unread {i : CmdInfo} {h : CmdHdr} {s t : State} {c : St} (body : State → CmdRes) (g : gate i h s = none)
    (p : readFailed s h.param = some (t, c)) : runCmd i h s body = .next (complete t h.src i.opcode c []) := by
  simp [runCmd, g, p]

/-- A command whose route goes up is forwarded up. -/
theorem runCmd_up {i : CmdInfo} {h : CmdHdr} {s : State} (body : State → CmdRes) (g : gate i h s = none) (p : h.param = .ok ())
    (r : route s i h = .up) : runCmd i h s body = .next (forwardCmd s i h false) := by
  simp [runCmd, readFailed, g, p, r]

/-- A command whose route goes over the chord is forwarded there. -/
theorem runCmd_chord {i : CmdInfo} {h : CmdHdr} {s : State} (body : State → CmdRes) (g : gate i h s = none) (p : h.param = .ok ())
    (r : route s i h = .chord) : runCmd i h s body = .next (forwardCmd s i h true) := by
  simp [runCmd, readFailed, g, p, r]

/-- What a command that completes here is left as, when no guard, no flash and no fabric write of results stops it. -/
theorem settled_done {i : CmdInfo} {h : CmdHdr} {s t : State} {c : St} {out : List Byte} (f : Untroubled i h) :
    ((CmdRes.done t c out).guarded s h.guard).settled i h s = .done t c out := by
  obtain ⟨f, _, gd, w⟩ := f
  simp only [gd, CmdRes.guarded, CmdRes.settled, w]
  split
  · rename_i x
    simp only [Bool.and_eq_true, Bool.not_eq_true'] at x
    rw [f x.1.1] at x
    simp at x
  · simp

/-- A command that runs here and completes. -/
theorem runCmd_done {i : CmdInfo} {h : CmdHdr} {s t : State} {c : St} {out : List Byte} {body : State → CmdRes} (g : gate i h s = none)
    (r : route s i h = .here) (f : Untroubled i h)
    (b : body s = .done t c out) : runCmd i h s body = .next (complete t h.src i.opcode c out) := by
  simp only [runCmd, g, f.2.1, readFailed, r, b, settled_done f]

/-- A command that runs here and goes on. -/
theorem runCmd_wait {i : CmdInfo} {h : CmdHdr} {s t : State} {body : State → CmdRes} (g : gate i h s = none)
    (r : route s i h = .here) (f : Untroubled i h) (b : body s = .wait t) : runCmd i h s body = .next t := by
  simp only [runCmd, g, f.2.1, readFailed, r, b, f.2.2.1, CmdRes.guarded, CmdRes.settled]

/-- A write that the guard unit refuses ends a command that its own checks let through (R455). -/
theorem runCmd_guard {i : CmdInfo} {h : CmdHdr} {s t : State} {out : List Byte} {x : Nat × Nat} {body : State → CmdRes} (g : gate i h s = none)
    (r : route s i h = .here) (p : h.param = .ok ()) (gd : h.guard = some x) (b : body s = .done t .ok out ∨ body s = .wait t) :
    ∃ u, guardTrip s x = .done u .guard [] ∧ runCmd i h s body = .next (complete u h.src i.opcode .guard []) := by
  refine ⟨_, rfl, ?_⟩
  rcases b with b | b <;> simp [runCmd, g, p, readFailed, r, b, gd, CmdRes.guarded, CmdRes.settled, guardTrip]

/-- The reads of a command together succeed when each does. -/
theorem bothReads_ok {α : Type} {p : FabRead Unit} {r : FabRead α} (e : bothReads p r = .ok ()) : p = .ok () ∧ ∃ v, r = .ok v := by
  cases p <;> cases r <;> simp_all [bothReads]
@[simp] theorem bothReads_unit {α : Type} (p : FabRead Unit) (r : FabRead α) : bothReads p (bothReads (.ok ()) r) = bothReads p r := by
  cases p <;> cases r <;> rfl
@[simp] theorem bothReads_ok_right (p : FabRead Unit) : bothReads p (FabRead.ok ()) = p := by cases p <;> rfl

/-- A command that reads data over the fabric and fails a check of R460. -/
theorem runRead_fails {α : Type} {i : CmdInfo} {h : CmdHdr} {s : State} {c : St} {a : FabRead α} (body : State → CmdRes) (g : gate i h s = some c) :
    runRead i h s a body = .next (complete s h.src i.opcode c []) := by
  unfold runRead
  split
  · exact runCmd_fails (h := { h with param := bothReads h.param a }) body g
  · exact runCmd_fails body g

/-- A command that reads data over the fabric and is forwarded: what it reads is there (R461). -/
theorem runRead_up {α : Type} {i : CmdInfo} {h : CmdHdr} {s : State} {a : FabRead α} (body : State → CmdRes) (g : gate i h s = none)
    (p : bothReads h.param a = .ok ()) (r : route s i h = .up) : runRead i h s a body = .next (forwardCmd s i h false) := by
  unfold runRead
  rw [r]
  exact runCmd_up (h := { h with param := bothReads h.param a }) body g p r
theorem runRead_chord {α : Type} {i : CmdInfo} {h : CmdHdr} {s : State} {a : FabRead α} (body : State → CmdRes) (g : gate i h s = none)
    (p : bothReads h.param a = .ok ()) (r : route s i h = .chord) : runRead i h s a body = .next (forwardCmd s i h true) := by
  unfold runRead
  rw [r]
  exact runCmd_chord (h := { h with param := bothReads h.param a }) body g p r

/-- A block that would forward a command forwards nothing when one of its reads fails (R545). -/
theorem runRead_unread {α : Type} {i : CmdInfo} {h : CmdHdr} {s t : State} {c : St} {a : FabRead α} (body : State → CmdRes) (g : gate i h s = none)
    (r : (route s i h).forwards = true) (p : readFailed s (bothReads h.param a) = some (t, c)) :
    runRead i h s a body = .next (complete t h.src i.opcode c []) := by
  unfold runRead
  rw [if_pos r]
  exact runCmd_unread (h := { h with param := bothReads h.param a }) body g p

/-- A command that reads data over the fabric and runs here. -/
theorem runRead_here {α : Type} {i : CmdInfo} {h : CmdHdr} {s : State} {a : FabRead α} {body : State → CmdRes} (r : route s i h = .here) :
    runRead i h s a body = runCmd i h s body := by
  simp [runRead, r, Route.forwards]

/-- A mailbox command always answers a next state. -/
theorem runCmd_next (i : CmdInfo) (h : CmdHdr) (s : State) (body : State → CmdRes) : ∃ t, runCmd i h s body = .next t := by
  unfold runCmd
  split
  · exact ⟨_, rfl⟩
  · split
    · exact ⟨_, rfl⟩
    · split
      · exact ⟨_, rfl⟩
      · exact ⟨_, rfl⟩
      · exact ⟨_, rfl⟩
      · split <;> exact ⟨_, rfl⟩

/-- The Assay engine goes on when every mapped segment is the one that its entry describes (R311). -/
theorem State.hashItems_ok {s : State} {f : List Byte} {k : CmdRes} {l : List (Nat × FabRead (List Byte))}
    (h : ∀ i ∈ l, ∃ g, i.2 = .ok g ∧ entryOk f i.1 g = true) : s.hashItems f k l = k := by
  induction l with
  | nil => rfl
  | cons i l ih =>
    obtain ⟨j, r⟩ := i
    obtain ⟨g, rfl, hg⟩ := h (j, r) (List.mem_cons_self ..)
    simp only [State.hashItems, withRead, hg, if_true]
    exact ih fun x hx => h x (List.mem_cons_of_mem _ hx)

end Sys2Proof.Machine
end

