-- ==== Sys2Proof/Laws/Tbl.lean ====
section
/-! SUPPORT. Sparse tables: what reading after writing gives, and that every write keeps the canonical form. -/

namespace Sys2Proof

variable {α : Type}

@[simp] theorem Tbl.get_nil (d : α) (k : Nat) : Tbl.get [] d k = d := rfl

theorem Tbl.get_erase (t : Tbl α) (d : α) (k j : Nat) : (Tbl.erase t k).get d j = if j = k then d else t.get d j := by
  induction t with
  | nil => simp [Tbl.erase, Tbl.get]
  | cons e r ih => obtain ⟨a, v⟩ := e; grind [Tbl.erase, Tbl.get]

/-- What an index that is not listed reads as. -/
theorem Tbl.get_of_not_mem (t : Tbl α) (d : α) (k : Nat) (h : ∀ e ∈ t, e.1 ≠ k) : t.get d k = d := by
  induction t with
  | nil => rfl
  | cons e r ih =>
    obtain ⟨a, v⟩ := e
    simp only [List.mem_cons, forall_eq_or_imp] at h
    grind [Tbl.get]

theorem Tbl.not_mem_erase (t : Tbl α) (k : Nat) : ∀ e ∈ Tbl.erase t k, e.1 ≠ k := by
  induction t with
  | nil => simp [Tbl.erase]
  | cons e r ih => obtain ⟨a, v⟩ := e; grind [Tbl.erase]

theorem Tbl.get_insert (t : Tbl α) (d : α) (k j : Nat) (v : α) (h : ∀ e ∈ t, e.1 ≠ k) :
    (Tbl.insert t k v).get d j = if j = k then v else t.get d j := by
  induction t with
  | nil => simp only [Tbl.insert, Tbl.get]; grind
  | cons e r ih =>
    obtain ⟨a, w⟩ := e
    simp only [List.mem_cons, forall_eq_or_imp] at h
    grind [Tbl.insert, Tbl.get]

/-- Reading after a write: the value written at the index written, and the old value elsewhere. -/
@[simp] theorem Tbl.get_set [DecidableEq α] (t : Tbl α) (d : α) (k j : Nat) (v : α) :
    (t.set d k v).get d j = if j = k then v else t.get d j := by
  unfold Tbl.set
  split
  · rw [Tbl.get_erase]; grind
  · rw [Tbl.get_insert _ _ _ _ _ (Tbl.not_mem_erase t k), Tbl.get_erase]; grind

/-- The canonical form, entry by entry. -/
theorem Tbl.wf_cons [DecidableEq α] (d : α) (a : Nat) (v : α) (r : Tbl α) :
    Tbl.wf ((a, v) :: r) d = true ↔ v ≠ d ∧ (∀ e ∈ r, a < e.1) ∧ Tbl.wf r d = true := by
  induction r generalizing a v with
  | nil => simp [Tbl.wf]
  | cons e r ih =>
    obtain ⟨b, w⟩ := e
    have := ih b w
    simp only [Tbl.wf, List.mem_cons, forall_eq_or_imp, Bool.and_eq_true, decide_eq_true_eq] at this ⊢
    constructor
    · rintro ⟨⟨h1, h2⟩, h3⟩
      exact ⟨h2, ⟨h1, fun e he => Nat.lt_trans h1 ((this.1 h3).2.1 e he)⟩, h3⟩
    · rintro ⟨h2, ⟨h1, _⟩, h3⟩
      exact ⟨⟨h1, h2⟩, h3⟩

theorem Tbl.mem_erase (t : Tbl α) (k : Nat) (e : Nat × α) (h : e ∈ Tbl.erase t k) : e ∈ t := by
  induction t with
  | nil => simp [Tbl.erase] at h
  | cons x r ih => obtain ⟨a, v⟩ := x; grind [Tbl.erase]

theorem Tbl.mem_insert (t : Tbl α) (k : Nat) (v : α) (e : Nat × α) (h : e ∈ Tbl.insert t k v) : e = (k, v) ∨ e ∈ t := by
  induction t with
  | nil => simp [Tbl.insert] at h; exact .inl h
  | cons x r ih => obtain ⟨a, w⟩ := x; grind [Tbl.insert]

theorem Tbl.wf_erase [DecidableEq α] (t : Tbl α) (d : α) (k : Nat) (h : t.wf d = true) : (Tbl.erase t k).wf d = true := by
  induction t with
  | nil => rfl
  | cons x r ih =>
    obtain ⟨a, v⟩ := x
    rw [Tbl.wf_cons] at h
    have := ih h.2.2
    have hm : ∀ e ∈ Tbl.erase r k, a < e.1 := fun e he => h.2.1 e (Tbl.mem_erase r k e he)
    unfold Tbl.erase
    split
    · exact this
    · exact (Tbl.wf_cons d a v _).2 ⟨h.1, hm, this⟩

theorem Tbl.wf_insert [DecidableEq α] (t : Tbl α) (d : α) (k : Nat) (v : α) (h : t.wf d = true) (hv : v ≠ d)
    (hk : ∀ e ∈ t, e.1 ≠ k) : (Tbl.insert t k v).wf d = true := by
  induction t with
  | nil => simp [Tbl.insert, Tbl.wf, hv]
  | cons x r ih =>
    obtain ⟨a, w⟩ := x
    simp only [List.mem_cons, forall_eq_or_imp] at hk
    rw [Tbl.wf_cons] at h
    have := ih h.2.2 hk.2
    unfold Tbl.insert
    split
    · rename_i hlt
      refine (Tbl.wf_cons d k v _).2 ⟨hv, fun e he => ?_, (Tbl.wf_cons d a w r).2 h⟩
      rcases List.mem_cons.1 he with rfl | he
      · exact hlt
      · exact Nat.lt_trans hlt (h.2.1 e he)
    · rename_i hlt
      refine (Tbl.wf_cons d a w _).2 ⟨h.1, fun e he => ?_, this⟩
      rcases Tbl.mem_insert r k v e he with rfl | he
      · exact Nat.lt_of_le_of_ne (Nat.not_lt.1 hlt) hk.1
      · exact h.2.1 e he

/-- Every write keeps the canonical form. -/
theorem Tbl.wf_set [DecidableEq α] (t : Tbl α) (d : α) (k : Nat) (v : α) (h : t.wf d = true) : (t.set d k v).wf d = true := by
  unfold Tbl.set
  split
  · exact Tbl.wf_erase t d k h
  · rename_i hv
    exact Tbl.wf_insert _ d k v (Tbl.wf_erase t d k h) hv (Tbl.not_mem_erase t k)

end Sys2Proof
end

