-- ==== Sys2Proof/Laws/Coll.lean ====
section
/-! SUPPORT. Collectives at a Leaf: what a running instance is, and how a change of one chunk reads. -/

set_option linter.all false

namespace Sys2Proof.Machine

/-- A running instance is planned here, in an open context. -/
theorem lrun_some {s : State} {k : ChunkKey} {x : LColl} (h : s.lrun k = some x) :
    s.lcoll k.slot k.handle = some x ∧ s.openCtx k.slot k.gen = true := by
  simp only [State.lrun] at h
  split at h
  · split at h <;> simp_all
  · simp at h

@[simp] theorem lcoll_setLcoll (s : State) (c h : Nat) (x : Option LColl) : (s.setLcoll c h x).lcoll c h = x := by
  simp [State.lcoll, State.setLcoll]

@[simp] theorem openCtx_setLcoll (s : State) (c h c' g : Nat) (x : Option LColl) : (s.setLcoll c h x).openCtx c' g = s.openCtx c' g := rfl

theorem modLchunk_some {s : State} {c h : Nat} {x : LColl} (e : s.lcoll c h = some x) (n : Nat) (f : LChunk → LChunk) :
    s.modLchunk c h n f = s.setLcoll c h (some { x with chunks := x.chunks.set {} n (f (x.chunk n)) }) := by
  simp [State.modLchunk, State.modLcoll, e, LColl.chunk]

theorem modLcoll_some {s : State} {c h : Nat} {x : LColl} (e : s.lcoll c h = some x) (f : LColl → LColl) :
    s.modLcoll c h f = s.setLcoll c h (some (f x)) := by
  simp [State.modLcoll, e]

/-- Handing messages over changes only what waits for a slot. -/
theorem send_only (s : State) (p : Nat) (m : TxMsg) : s.send p m = { s with tx := (s.send p m).tx } := by
  unfold State.send; split <;> rfl

theorem sendTurn_only (s : State) (ps : List Nat) (l : List TxMsg) : s.sendTurn ps l = { s with tx := (s.sendTurn ps l).tx } := by
  unfold State.sendTurn
  suffices h : ∀ (z : List (TxMsg × Nat)) (s t : State), t = { s with tx := t.tx } →
      z.foldl (fun s m => match ps[m.2 % max 1 ps.length]? with | some p => s.send p m.1 | none => s) t =
        { s with tx := (z.foldl (fun s m => match ps[m.2 % max 1 ps.length]? with | some p => s.send p m.1 | none => s) t).tx } from h _ s s rfl
  intro z s
  induction z with
  | nil => exact fun t h => h
  | cons a z ih =>
    intro t h
    refine ih _ ?_
    dsimp only
    cases ps[a.2 % max 1 ps.length]? with
    | none => exact h
    | some p => exact (send_only t p a.1).trans (congrArg (fun u : State => { u with tx := (t.send p a.1).tx }) h)

@[simp] theorem lcoll_sendTurn (s : State) (ps : List Nat) (l : List TxMsg) (c h : Nat) : (s.sendTurn ps l).lcoll c h = s.lcoll c h := by
  rw [sendTurn_only]; rfl

@[simp] theorem chunk_set (x : LColl) (t : Tbl LChunk) (n : Nat) (v : LChunk) (src : Option Nat) (st : Nat) (ru en fa ns sp : Bool) (se co : Word) (cd fl : Nat)
    (ac re : List (Nat × Nat)) (ow : Option (List Nat)) (d : BitVec 512) (w : Nat) :
    LColl.chunk { desc := d, w := w, src := src, started := st, running := ru, ended := en, failed := fa, chunks := t.set { aux := 0#32 } n v, sent := se
                  committed := co, code := cd, flags := fl, acc := ac, ret := re, noSignal := ns, stopped := sp, owed := ow } n = v := by
  simp [LColl.chunk]

end Sys2Proof.Machine
end

