-- ==== Sys2Proof/Laws/Frame.lean ====
section
/-! SUPPORT. What no operation below the register accesses changes: the parameters of the block, the queue of waiting commands
and the last response of the register interface. One lemma for each operation on `State`, in the order of the definitions. -/

set_option linter.all false

namespace Sys2Proof.Machine
open Sys2Proof

/-- What no operation below the register accesses changes. -/
def State.kept (s : State) : Params × List Instr × RgResp × Bool × Bool × Bool × Nat :=
  (s.params, s.pending, s.rg, s.sec.unlocked, s.sec.pufOn, s.sec.keysValid, s.sec.attKey)
@[simp] theorem kept_ite (c : Prop) [Decidable c] (a b : State) : (if c then a else b).kept = if c then a.kept else b.kept := by split <;> rfl
theorem kept_mk (s : State) (a b c d e f g h i j k l m n o p q t u v w x y) : ({ params := s.params, time := a, dpll := b, tdc := c, ports := d, tsrc := e, docket := f, sync := g, tiles := h, coll := i, sched := j, hm := k, flt := l, jm := m, test := n, pwr := o, pair := p, ctx := q, sec := s.sec, scriv := t, boot := u, flash := v, irq := w, rg := s.rg, tx := x, freeCtr := y, pending := s.pending } : State).kept = s.kept := rfl
theorem kept_sec (s : State) (a b c d e f g h i j k l m n o p q t u v w x y k1 k2 k3 k4 k5 k6 k7 k8 k9 k10) : ({ params := s.params, time := a, dpll := b, tdc := c, ports := d, tsrc := e, docket := f, sync := g, tiles := h, coll := i, sched := j, hm := k, flt := l, jm := m, test := n, pwr := o, pair := p, ctx := q, sec := { keysValid := s.sec.keysValid, enrolled := k1, ownerValid := k2, tapLocked := k3, unlocked := s.sec.unlocked, pufOn := s.sec.pufOn, peerFail := k4, stale := k5, challenge := k6, attKey := s.sec.attKey, certs := k7, helper := k8, kJnl := k9, jnlCount := k10 }, scriv := t, boot := u, flash := v, irq := w, rg := s.rg, tx := x, freeCtr := y, pending := s.pending } : State).kept = s.kept := rfl
theorem foldl_kept {α : Type} (f : State → α → State) (l : List α) (s : State) (h : ∀ s a, (f s a).kept = s.kept) : (l.foldl f s).kept = s.kept := by
  induction l generalizing s with
  | nil => rfl
  | cons a r ih => simp [List.foldl, ih, h]
theorem foldlP_kept {α β : Type} (f : State × β → α → State × β) (l : List α) (a : State × β) (h : ∀ a x, (f a x).1.kept = a.1.kept) : (l.foldl f a).1.kept = a.1.kept := by
  induction l generalizing a with
  | nil => rfl
  | cons x r ih => simp [List.foldl, ih, h]

/-! ## Machine/Ops.lean -/

@[simp] theorem State.modPort_kept (s : State) (p : Nat) (f : PortSt → PortSt) : (State.modPort s p f).kept = s.kept := by
  rfl
@[simp] theorem State.modTile_kept (s : State) (t : Nat) (f : Tile → Tile) : (State.modTile s t f).kept = s.kept := by
  rfl
@[simp] theorem State.modSlot_kept (s : State) (c : Nat) (f : Ctx → Ctx) : (State.modSlot s c f).kept = s.kept := by
  rfl
@[simp] theorem State.modQueue_kept (s : State) (q : Nat) (f : DkQueue → DkQueue) : (State.modQueue s q f).kept = s.kept := by
  rfl
@[simp] theorem State.setComp_kept (s : State) (c : Nat) (u : CmpUser) : (State.setComp s c u).kept = s.kept := by
  rfl
@[simp] theorem State.modFrame_kept (s : State) (c : Nat) (f : FrameCh → FrameCh) : (State.modFrame s c f).kept = s.kept := by
  rfl
@[simp] theorem State.modPo_kept (s : State) (n : Nat) (f : PoSt → PoSt) : (State.modPo s n f).kept = s.kept := by
  rfl
@[simp] theorem State.modTdc_kept (s : State) (c : Nat) (f : TdcCh → TdcCh) : (State.modTdc s c f).kept = s.kept := by
  rfl
@[simp] theorem State.modRef_kept (s : State) (n : Nat) (f : RefSt → RefSt) : (State.modRef s n f).kept = s.kept := by
  rfl
@[simp] theorem State.modWaiter_kept (s : State) (w : Nat) (f : Waiter → Waiter) : (State.modWaiter s w f).kept = s.kept := by
  rfl
@[simp] theorem State.modMb_kept (s : State) (m : Nat) (f : Mailbox → Mailbox) : (State.modMb s m f).kept = s.kept := by
  rfl
@[simp] theorem State.modChan_kept (s : State) (c : Nat) (f : Chan → Chan) : (State.modChan s c f).kept = s.kept := by
  rfl
@[simp] theorem State.modPage_kept (s : State) (p : Nat) (f : Page → Page) : (State.modPage s p f).kept = s.kept := by
  rfl
@[simp] theorem State.modGrp_kept (s : State) (g : Nat) (f : Grp → Grp) : (State.modGrp s g f).kept = s.kept := by
  rfl
@[simp] theorem State.modDom_kept (s : State) (d : Nat) (f : Dom → Dom) : (State.modDom s d f).kept = s.kept := by
  rfl
@[simp] theorem State.send_kept (s : State) (p : Nat) (m : TxMsg) : (State.send s p m).kept = s.kept := by
  simp [State.send, kept_mk, kept_sec, foldl_kept]
@[simp] theorem State.hold_kept (s : State) (p : Option Nat) (m : TxMsg) : (State.hold s p m).kept = s.kept := by
  simp [State.hold, kept_mk, kept_sec, foldl_kept]
@[simp] theorem State.sendOrHold_kept (s : State) (p : Nat) (m : TxMsg) : (State.sendOrHold s p m).kept = s.kept := by
  simp [State.sendOrHold, kept_mk, kept_sec, foldl_kept]
@[simp] theorem State.sendAll_kept (s : State) (ps : List Nat) (m : TxMsg) : (State.sendAll s ps m).kept = s.kept := by
  simp [State.sendAll, kept_mk, kept_sec, foldl_kept]
@[simp] theorem State.fabricWrite_kept (s : State) (addr : Nat) (l : List Byte) (poison : Bool) (qos : Nat) : (State.fabricWrite s addr l poison qos).kept = s.kept := by
  simp only [State.fabricWrite]; grind [kept_mk, kept_sec, foldl_kept, State.send_kept]
@[simp] theorem State.drawn_kept (s : State) : (State.drawn s).kept = s.kept := by
  rfl
@[simp] theorem State.sendChord_kept (s : State) (m : TxMsg) : (State.sendChord s m).kept = s.kept := by
  simp only [State.sendChord]; grind [kept_mk, kept_sec, foldl_kept, State.send_kept]
@[simp] theorem State.sendUp_kept (s : State) (m : TxMsg) : (State.sendUp s m).kept = s.kept := by
  simp only [State.sendUp]; grind [kept_mk, kept_sec, foldl_kept, State.hold_kept, State.send_kept]
@[simp] theorem State.flushUp_kept (s : State) : (State.flushUp s).kept = s.kept := by
  simp only [State.flushUp]; grind [kept_mk, kept_sec, foldl_kept, State.sendOrHold_kept, State.sendUp_kept]
@[simp] theorem State.logWrite_kept (s : State) (m : MirrorMsg) : (State.logWrite s m).kept = s.kept := by
  simp only [State.logWrite]; grind [kept_mk, kept_sec, foldl_kept]
@[simp] theorem State.mirror_kept (s : State) (m : MirrorMsg) : (State.mirror s m).kept = s.kept := by
  simp [State.mirror, kept_mk, kept_sec, foldl_kept]
@[simp] theorem State.mirrorBoth_kept (s : State) (m : MirrorMsg) : (State.mirrorBoth s m).kept = s.kept := by
  simp [State.mirrorBoth, kept_mk, kept_sec, foldl_kept]
@[simp] theorem State.pushNotice_kept (s : State) (e : NoticeEntry) : (State.pushNotice s e).kept = s.kept := by
  simp [State.pushNotice, kept_mk, kept_sec, foldl_kept]
@[simp] theorem State.record_kept (s : State) (r : RecArgs) : (State.record s r).kept = s.kept := by
  simp [State.record, kept_mk, kept_sec, foldl_kept]
@[simp] theorem State.storeRecords_kept (s : State) (n : Nat) : (State.storeRecords s n).kept = s.kept := by
  rfl
@[simp] theorem State.ctxIrq_kept (s : State) (c b : Nat) : (State.ctxIrq s c b).kept = s.kept := by
  simp [State.ctxIrq, kept_mk, kept_sec, foldl_kept]

/-! ## Machine/Stamps.lean -/

@[simp] theorem State.calStamp_kept (s : State) (ch stamp : Nat) : (State.calStamp s ch stamp).kept = s.kept := by
  simp [State.calStamp, kept_mk, kept_sec, foldl_kept]
@[simp] theorem State.takeLevel_kept (s : State) (ch : Nat) (rising : Bool) (stamp : Nat) : (State.takeLevel s ch rising stamp).kept = s.kept := by
  simp [State.takeLevel, kept_mk, kept_sec, foldl_kept]
@[simp] theorem State.setPo_kept (s : State) (n : Nat) (level : Bool) (t : HT) : (State.setPo s n level t).kept = s.kept := by
  simp [State.setPo, kept_mk, kept_sec, foldl_kept]

/-! ## Machine/Strike.lean -/

@[simp] theorem State.alloc_kept (s : State) (n : Nat) (u : CmpUser) : (State.alloc s n u).kept = s.kept := by
  simp [State.alloc, kept_mk, kept_sec, foldl_kept]
@[simp] theorem State.release_kept (s : State) (u : CmpUser) : (State.release s u).kept = s.kept := by
  simp [State.release, kept_mk, kept_sec, foldl_kept]
@[simp] theorem State.launch_kept (s : State) (mask : Nat) : (State.launch s mask).kept = s.kept := by
  rfl
@[simp] theorem State.fireFrame_kept (s : State) (c tag strike : Nat) : (State.fireFrame s c tag strike).kept = s.kept := by
  rfl
@[simp] theorem State.raise_kept (s : State) (n : Nat) (until_ : HT) : (State.raise s n until_).kept = s.kept := by
  simp [State.raise, kept_mk, kept_sec, foldl_kept]
@[simp] theorem State.realign_kept (s : State) : (State.realign s).kept = s.kept := by
  simp [State.realign, kept_mk, kept_sec, foldl_kept]

/-! ## Machine/Cmd.lean -/

@[simp] theorem completeMb_kept (s : State) (m opcode : Nat) (c : St) (out : List Byte) : (completeMb s m opcode c out).kept = s.kept := by
  simp [completeMb, kept_mk, kept_sec, foldl_kept]
@[simp] theorem completeFwd_kept (s : State) (block m seq : Nat) (c : St) (out : List Byte) : (completeFwd s block m seq c out).kept = s.kept := by
  simp only [completeFwd]; grind [kept_mk, kept_sec, foldl_kept, State.mirror_kept, State.send_kept]
@[simp] theorem complete_kept (s : State) (src : CmdSrc) (opcode : Nat) (c : St) (out : List Byte) : (complete s src opcode c out).kept = s.kept := by
  unfold complete; (repeat' split) <;> (first | rfl | (simp [kept_mk, kept_sec, foldl_kept]; done) | grind [kept_mk, kept_sec, foldl_kept, State.fabricWrite_kept, completeFwd_kept, completeMb_kept])
@[simp] theorem forwardCmd_kept (s : State) (i : CmdInfo) (h : CmdHdr) (overChord : Bool) : (forwardCmd s i h overChord).kept = s.kept := by
  simp [forwardCmd, kept_mk, kept_sec, foldl_kept]
@[simp] theorem State.resendForwards_kept (s : State) : (State.resendForwards s).kept = s.kept := by
  simp [State.resendForwards, kept_mk, kept_sec, foldl_kept]

/-! ## Machine/Sync.lean -/

@[simp] theorem State.setTr_kept (s : State) (c vid : Nat) (e : TrEntry) : (State.setTr s c vid e).kept = s.kept := by
  rfl
@[simp] theorem State.setWord_kept (s : State) (p : Nat) (v : Word) : (State.setWord s p v).kept = s.kept := by
  rfl
@[simp] theorem State.syncFail_kept (s : State) (c vid source : Nat) (code : St) : (State.syncFail s c vid source code).kept = s.kept := by
  simp [State.syncFail, kept_mk, kept_sec, foldl_kept]
@[simp] theorem State.wake_kept (s : State) (p : Nat) : (State.wake s p).kept = s.kept := by
  simp [State.wake, kept_mk, kept_sec, foldl_kept]
@[simp] theorem State.setLbar_kept (s : State) (c id : Nat) (b : Option LBar) : (State.setLbar s c id b).kept = s.kept := by
  rfl
@[simp] theorem State.arrive_kept (s : State) (c id : Nat) : (State.arrive s c id).kept = s.kept := by
  simp only [State.arrive]; grind [kept_mk, kept_sec, foldl_kept, State.sendOrHold_kept, State.setLbar_kept]
@[simp] theorem State.arrivals_kept (s : State) (c p : Nat) : (State.arrivals s c p).kept = s.kept := by
  simp only [State.arrivals]; grind [kept_mk, kept_sec, foldl_kept, State.arrive_kept]
@[simp] theorem State.markWord_kept (s : State) (p : Nat) : (State.markWord s p).kept = s.kept := by
  simp [State.markWord, kept_mk, kept_sec, foldl_kept]
@[simp] theorem State.store_kept (s : State) (c p : Nat) (v : Word) : (State.store s c p v).kept = s.kept := by
  simp [State.store, kept_mk, kept_sec, foldl_kept]
@[simp] theorem State.addWord_kept (s : State) (c vid : Nat) (v : Word) (source : Nat) : (State.addWord s c vid v source).1.kept = s.kept := by
  simp only [State.addWord]; grind [kept_mk, kept_sec, foldl_kept, State.ctxIrq_kept, State.setTr_kept, State.store_kept, State.syncFail_kept]
@[simp] theorem State.subWord_kept (s : State) (c vid : Nat) (v : Word) (source : Nat) : (State.subWord s c vid v source).1.kept = s.kept := by
  simp only [State.subWord]; grind [kept_mk, kept_sec, foldl_kept, State.ctxIrq_kept, State.setTr_kept, State.store_kept, State.syncFail_kept]
@[simp] theorem State.signalAt_kept (s : State) (t : HT) (c vid : Nat) (v : Word) (source : Nat) : (State.signalAt s t c vid v source).kept = s.kept := by
  simp [State.signalAt, kept_mk, kept_sec, foldl_kept]
@[simp] theorem State.signal_kept (s : State) (c vid : Nat) (v : Word) (source : Nat) : (State.signal s c vid v source).kept = s.kept := by
  simp [State.signal, kept_mk, kept_sec, foldl_kept]
@[simp] theorem State.endWait_kept (s : State) (w reason : Nat) : (State.endWait s w reason).kept = s.kept := by
  simp [State.endWait, kept_mk, kept_sec, foldl_kept]

/-! ## Machine/Dpll.lean -/

@[simp] theorem State.hist_kept (s : State) (n : Nat) : (State.hist s n).kept = s.kept := by
  simp [State.hist, kept_mk, kept_sec, foldl_kept]
@[simp] theorem State.refreshWord_kept (s : State) : (State.refreshWord s).kept = s.kept := by
  simp [State.refreshWord, kept_mk, kept_sec, foldl_kept]
@[simp] theorem State.refreshModel_kept (s : State) : (State.refreshModel s).kept = s.kept := by
  simp [State.refreshModel, kept_mk, kept_sec, foldl_kept]
@[simp] theorem State.fcwTo_kept (s : State) (v : Int) : (State.fcwTo s v).kept = s.kept := by
  simp [State.fcwTo, kept_mk, kept_sec, foldl_kept]
@[simp] theorem State.aim_kept (s : State) (e : Int) : (State.aim s e).kept = s.kept := by
  simp [State.aim, kept_mk, kept_sec, foldl_kept]
@[simp] theorem State.stopPull_kept (s : State) : (State.stopPull s).kept = s.kept := by
  simp [State.stopPull, kept_mk, kept_sec, foldl_kept]
@[simp] theorem State.holdFcw_kept (s : State) : (State.holdFcw s).kept = s.kept := by
  simp [State.holdFcw, kept_mk, kept_sec, foldl_kept]
@[simp] theorem State.enterNow_kept (s : State) (w : StatusWord) : (State.enterNow s w).kept = s.kept := by
  unfold State.enterNow; (repeat' split) <;> (first | rfl | (simp [kept_mk, kept_sec, foldl_kept]; done) | grind [kept_mk, kept_sec, foldl_kept, State.hist_kept, State.mirror_kept, State.refreshWord_kept, State.stopPull_kept])
@[simp] theorem State.enter_kept (s : State) (w : StatusWord) : (State.enter s w).kept = s.kept := by
  simp only [State.enter]; grind [kept_mk, kept_sec, foldl_kept, State.enterNow_kept]
@[simp] theorem State.loseInput_kept (s : State) : (State.loseInput s).kept = s.kept := by
  simp [State.loseInput, kept_mk, kept_sec, foldl_kept]
@[simp] theorem State.refreshDisq_kept (s : State) : (State.refreshDisq s).kept = s.kept := by
  simp [State.refreshDisq, kept_mk, kept_sec, foldl_kept]
@[simp] theorem State.clearDisputes_kept (s : State) (n : Nat) : (State.clearDisputes s n).kept = s.kept := by
  simp [State.clearDisputes, kept_mk, kept_sec, foldl_kept]
@[simp] theorem State.dropQual_kept (s : State) (n : Nat) : (State.dropQual s n).kept = s.kept := by
  simp [State.dropQual, kept_mk, kept_sec, foldl_kept]
@[simp] theorem State.updCond_kept (s : State) (n : Nat) : (State.updCond s n).kept = s.kept := by
  simp [State.updCond, kept_mk, kept_sec, foldl_kept]
@[simp] theorem State.qualify_kept (s : State) (n : Nat) : (State.qualify s n).kept = s.kept := by
  simp [State.qualify, kept_mk, kept_sec, foldl_kept]
@[simp] theorem State.setRank_kept (s : State) (n rank : Nat) : (State.setRank s n rank).kept = s.kept := by
  simp [State.setRank, kept_mk, kept_sec, foldl_kept]
@[simp] theorem State.resolvePair_kept (s : State) (k : Nat) : (State.resolvePair s k).kept = s.kept := by
  simp [State.resolvePair, kept_mk, kept_sec, foldl_kept]
@[simp] theorem State.resolveDisputes_kept (s : State) : (State.resolveDisputes s).kept = s.kept := by
  simp [State.resolveDisputes, kept_mk, kept_sec, foldl_kept]
@[simp] theorem State.gatePair_kept (s : State) (k : Nat) : (State.gatePair s k).kept = s.kept := by
  simp [State.gatePair, kept_mk, kept_sec, foldl_kept]
@[simp] theorem State.pullTo_kept (s : State) (e : Int) : (State.pullTo s e).kept = s.kept := by
  simp [State.pullTo, kept_mk, kept_sec, foldl_kept]
@[simp] theorem State.applySel_kept (s : State) (sel : Option Nat) : (State.applySel s sel).kept = s.kept := by
  simp only [State.applySel]; grind [kept_mk, kept_sec, foldl_kept, State.enter_kept, State.fcwTo_kept, State.hist_kept, State.loseInput_kept, State.mirror_kept, State.pullTo_kept, State.refreshWord_kept, State.stopPull_kept]
@[simp] theorem State.forced_kept (s : State) : (State.forced s).1.kept = s.kept := by
  simp only [State.forced]; grind [kept_mk, kept_sec, foldl_kept, State.hist_kept, State.modRef_kept]
@[simp] theorem State.pickOk_kept (s : State) (n : Nat) : (s.pickOk n).1.kept = s.kept := by
  induction n generalizing s with
  | zero => rfl
  | succ n ih => unfold State.pickOk; (repeat' split) <;> simp [ih]
@[simp] theorem State.selectNow_kept (s : State) : (State.selectNow s).kept = s.kept := by
  unfold State.selectNow
  split
  · rfl
  · split
    · rw [State.applySel_kept, State.pickOk_kept]
    · rw [State.applySel_kept, State.forced_kept]
    · rfl
@[simp] theorem State.reselect_kept (s : State) : (State.reselect s).kept = s.kept := by
  simp [State.reselect, kept_mk, kept_sec, foldl_kept]
@[simp] theorem State.newPhase_kept (s : State) (n : Nat) (e : Int) : (State.newPhase s n e).kept = s.kept := by
  simp [State.newPhase, kept_mk, kept_sec, foldl_kept]
@[simp] theorem State.movePhase_kept (s : State) (n : Nat) (d : Int) : (State.movePhase s n d).kept = s.kept := by
  simp [State.movePhase, kept_mk, kept_sec, foldl_kept]
@[simp] theorem State.fitModel_kept (s : State) : (State.fitModel s).kept = s.kept := by
  simp only [State.fitModel]; grind [kept_mk, kept_sec, foldl_kept]
@[simp] theorem State.endTrust_kept (s : State) : (State.endTrust s).kept = s.kept := by
  simp [State.endTrust, kept_mk, kept_sec, foldl_kept]
@[simp] theorem State.giveCfg_kept (s : State) (ch : Nat) (c : TdcCfg) : (State.giveCfg s ch c).kept = s.kept := by
  simp [State.giveCfg, kept_mk, kept_sec, foldl_kept]
@[simp] theorem State.applyRefCfg_kept (s : State) (c : RefCfg) : (State.applyRefCfg s c).kept = s.kept := by
  simp [State.applyRefCfg, kept_mk, kept_sec, foldl_kept]
@[simp] theorem State.reportQl_kept (s : State) (n : Nat) (q : Option QlReport) : (State.reportQl s n q).kept = s.kept := by
  simp only [State.reportQl]; grind [kept_mk, kept_sec, foldl_kept, State.modRef_kept, State.setRank_kept]
@[simp] theorem State.setMode_kept (s : State) (mode ref : Nat) : (State.setMode s mode ref).kept = s.kept := by
  simp [State.setMode, kept_mk, kept_sec, foldl_kept]
@[simp] theorem State.modeNow_kept (s : State) (prev : Nat) : (State.modeNow s prev).kept = s.kept := by
  simp only [State.modeNow]; grind [kept_mk, kept_sec, foldl_kept, State.enterNow_kept, State.reselect_kept, State.stopPull_kept]

/-! ## Machine/Port.lean -/

@[simp] theorem State.chooseSource_kept (s : State) : (State.chooseSource s).kept = s.kept := by
  simp only [State.chooseSource]; grind [kept_mk, kept_sec, foldl_kept]
@[simp] theorem State.dropTraffic_kept (s : State) (p : Nat) : (State.dropTraffic s p).kept = s.kept := by
  simp [State.dropTraffic, kept_mk, kept_sec, foldl_kept]
@[simp] theorem State.chordLoss_kept (s : State) : (State.chordLoss s).kept = s.kept := by
  simp [State.chordLoss, kept_mk, kept_sec, foldl_kept]
@[simp] theorem State.chordGone_kept (s : State) (p : Nat) : (State.chordGone s p).kept = s.kept := by
  simp [State.chordGone, kept_mk, kept_sec, foldl_kept]
@[simp] theorem State.portDown_kept (s : State) (p : Nat) (retry : Bool) (code : St) : (State.portDown s p retry code).kept = s.kept := by
  simp [State.portDown, kept_mk, kept_sec, foldl_kept]
@[simp] theorem State.holdPort_kept (s : State) (p : Nat) : (State.holdPort s p).kept = s.kept := by
  rfl
@[simp] theorem State.countReplay_kept (s : State) (p : Nat) : (State.countReplay s p).kept = s.kept := by
  simp [State.countReplay, kept_mk, kept_sec, foldl_kept]
@[simp] theorem State.requestReplay_kept (s : State) (p : Nat) : (State.requestReplay s p).kept = s.kept := by
  simp [State.requestReplay, kept_mk, kept_sec, foldl_kept]
@[simp] theorem State.replayFrom_kept (s : State) (p : Nat) : (State.replayFrom s p).kept = s.kept := by
  simp [State.replayFrom, kept_mk, kept_sec, foldl_kept]
@[simp] theorem State.takeHeader_kept (s : State) (l : Link) : (State.takeHeader s l).kept = s.kept := by
  simp [State.takeHeader, kept_mk, kept_sec, foldl_kept]
@[simp] theorem State.takeFlit_kept (s : State) (l : Link) (cls : Nat) : (State.takeFlit s l cls).1.kept = s.kept := by
  simp only [State.takeFlit]; grind [kept_mk, kept_sec, foldl_kept, State.modPort_kept, State.requestReplay_kept, State.takeHeader_kept]
@[simp] theorem State.withhold_kept (s : State) (p cls : Nat) (k : ChunkKey) : (State.withhold s p cls k).kept = s.kept := by
  simp [State.withhold, kept_mk, kept_sec, foldl_kept]
@[simp] theorem State.creditTick_kept (s : State) : (State.creditTick s).kept = s.kept := by
  simp [State.creditTick, kept_mk, kept_sec, foldl_kept]
@[simp] theorem State.countStale_kept (s : State) : (State.countStale s).kept = s.kept := by
  rfl

/-! ## Machine/Tdc.lean -/

@[simp] theorem State.refEdge_kept (s : State) (ch stamp : Nat) : (State.refEdge s ch stamp).kept = s.kept := by
  simp only [State.refEdge]; grind [kept_mk, kept_sec, foldl_kept, State.modRef_kept, State.newPhase_kept, State.updCond_kept]
@[simp] theorem State.newY_kept (s : State) (n : Nat) (y : Rat) : (State.newY s n y).kept = s.kept := by
  simp [State.newY, kept_mk, kept_sec, foldl_kept]
@[simp] theorem State.refGate_kept (s : State) (ch : Nat) (valid : Bool) (y : Rat) (from_ : HT) : (State.refGate s ch valid y from_).kept = s.kept := by
  simp only [State.refGate]; grind [kept_mk, kept_sec, foldl_kept, State.gatePair_kept, State.modRef_kept, State.newY_kept, State.reselect_kept]
@[simp] theorem State.takeCal_kept (s : State) (po ch : Nat) : (State.takeCal s po ch).kept = s.kept := by
  simp [State.takeCal, kept_mk, kept_sec, foldl_kept]
@[simp] theorem State.freeCal_kept (s : State) (po ch : Nat) : (State.freeCal s po ch).kept = s.kept := by
  simp [State.freeCal, kept_mk, kept_sec, foldl_kept]
@[simp] theorem State.endCal_kept (s : State) (c : CalRun) : (State.endCal s c).kept = s.kept := by
  simp [State.endCal, kept_mk, kept_sec, foldl_kept]

/-! ## Machine/Coll.lean -/

@[simp] theorem State.modPane_kept (s : State) (t p : Nat) (f : Pane → Pane) : (State.modPane s t p f).kept = s.kept := by
  rfl
@[simp] theorem State.takePanes_kept (s : State) (d : BitVec 512) (k : ChunkKey) (t : Nat) (ps : List Nat) : (State.takePanes s d k t ps).kept = s.kept := by
  simp [State.takePanes, kept_mk, kept_sec, foldl_kept]
@[simp] theorem State.dropPanes_kept (s : State) (t : Nat) (ps : List Nat) (dirty : Bool) : (State.dropPanes s t ps dirty).kept = s.kept := by
  simp [State.dropPanes, kept_mk, kept_sec, foldl_kept]
@[simp] theorem State.countWaits_kept (s : State) (t : Nat) : (State.countWaits s t).kept = s.kept := by
  simp [State.countWaits, kept_mk, kept_sec, foldl_kept]
@[simp] theorem State.applyPanes_kept (s : State) (t : Nat) (ps : List Nat) (ne : Nat) (bad : Nat → Bool) (u : Nat → Elem → Upd) : (State.applyPanes s t ps ne bad u).1.kept = s.kept := by
  unfold State.applyPanes
  exact (foldlP_kept _ _ _ (fun a p => by simp)).trans (by simp)
@[simp] theorem State.sendList_kept (s : State) (p : Nat) (l : List TxMsg) : (State.sendList s p l).kept = s.kept := by
  simp [State.sendList, kept_mk, kept_sec, foldl_kept]
@[simp] theorem State.tileEvent_kept (s : State) (t : Nat) (k : ChunkKey) (d : BitVec 512) (attempt : Nat) (c : TileCheck) : (State.tileEvent s t k d attempt c).1.kept = s.kept := by
  simp [State.tileEvent, kept_mk, kept_sec, foldl_kept]
@[simp] theorem State.laterFence_kept (s : State) (t : Nat) : (State.laterFence s t).kept = s.kept := by
  simp [State.laterFence, kept_mk, kept_sec, foldl_kept]
@[simp] theorem State.poisonEntered_kept (s : State) (t : Nat) (k : ChunkKey) : (State.poisonEntered s t k).kept = s.kept := by
  simp [State.poisonEntered, kept_mk, kept_sec, foldl_kept]
@[simp] theorem State.sendKids_kept (s : State) (cs : List Nat) (m : TxMsg) : (State.sendKids s cs m).kept = s.kept := by
  simp [State.sendKids, kept_mk, kept_sec, foldl_kept]
@[simp] theorem State.orderClose_kept (s : State) (c g code : Nat) : (State.orderClose s c g code).kept = s.kept := by
  simp [State.orderClose, kept_mk, kept_sec, foldl_kept]
@[simp] theorem State.terminate_kept (s : State) (c : Nat) (code : St) : (State.terminate s c code).kept = s.kept := by
  simp [State.terminate, kept_mk, kept_sec, foldl_kept]

/-! ## Machine/CollLeaf.lean -/

@[simp] theorem State.setLcoll_kept (s : State) (c h : Nat) (x : Option LColl) : (State.setLcoll s c h x).kept = s.kept := by
  rfl
@[simp] theorem State.modLcoll_kept (s : State) (c h : Nat) (f : LColl → LColl) : (State.modLcoll s c h f).kept = s.kept := by
  simp only [State.modLcoll]; grind [kept_mk, kept_sec, foldl_kept, State.setLcoll_kept]
@[simp] theorem State.modLchunk_kept (s : State) (c h n : Nat) (f : LChunk → LChunk) : (State.modLchunk s c h n f).kept = s.kept := by
  simp [State.modLchunk, kept_mk, kept_sec, foldl_kept]
@[simp] theorem State.startColl_kept (s : State) (c h : Nat) : (State.startColl s c h).kept = s.kept := by
  simp only [State.startColl]; grind [kept_mk, kept_sec, foldl_kept, State.ctxIrq_kept, State.setLcoll_kept, State.signalAt_kept]
@[simp] theorem State.finishColl_kept (s : State) (k : ChunkKey) : (State.finishColl s k).kept = s.kept := by
  simp only [State.finishColl]; grind [kept_mk, kept_sec, foldl_kept, State.ctxIrq_kept, State.sendUp_kept, State.setLcoll_kept, State.signal_kept]
@[simp] theorem State.dropAcc_kept (s : State) (l : List (Nat × Nat)) : (State.dropAcc s l).kept = s.kept := by
  simp [State.dropAcc, kept_mk, kept_sec, foldl_kept]
@[simp] theorem State.chunkDone_kept (s : State) (k : ChunkKey) (code : St) (fl : Nat) : (State.chunkDone s k code fl).kept = s.kept := by
  simp only [State.chunkDone]; grind [kept_mk, kept_sec, foldl_kept, State.dropAcc_kept, State.finishColl_kept, State.modLchunk_kept]
@[simp] theorem State.sendNotice_kept (s : State) (k : ChunkKey) (x : LColl) : (State.sendNotice s k x).kept = s.kept := by
  simp [State.sendNotice, kept_mk, kept_sec, foldl_kept]
@[simp] theorem State.sendStuck_kept (s : State) (c h : Nat) : (State.sendStuck s c h).kept = s.kept := by
  simp only [State.sendStuck]; grind [kept_mk, kept_sec, foldl_kept, State.sendNotice_kept]
@[simp] theorem State.cannot_kept (s : State) (k : ChunkKey) (code : St) : (State.cannot s k code).kept = s.kept := by
  simp only [State.cannot]; grind [kept_mk, kept_sec, foldl_kept, State.chunkDone_kept, State.dropAcc_kept, State.record_kept, State.sendNotice_kept, State.setLcoll_kept]
@[simp] theorem State.accumulateOn_kept (s : State) (k : ChunkKey) (x : LColl) (n j t : Nat) : (State.accumulateOn s k x n j t).1.kept = s.kept := by
  simp [State.accumulateOn, kept_mk, kept_sec, foldl_kept]
@[simp] theorem State.leafFail_kept (s : State) (k : ChunkKey) (c : TileCheck) : (State.leafFail s k c).1.kept = s.kept := by
  simp only [State.leafFail]; grind [kept_mk, kept_sec, foldl_kept, State.cannot_kept, State.dropAcc_kept, State.modLchunk_kept, State.tileEvent_kept]
@[simp] theorem State.reserve_kept (s : State) (l : List (Nat × Nat)) (b : Bool) : (State.reserve s l b).kept = s.kept := by
  simp [State.reserve, kept_mk, kept_sec, foldl_kept]
@[simp] theorem State.refit_kept (s : State) (t c h : Nat) : (State.refit s t c h).kept = s.kept := by
  simp only [State.refit]; grind [kept_mk, kept_sec, foldl_kept, State.cannot_kept, State.record_kept, State.reserve_kept, State.setLcoll_kept]
@[simp] theorem State.leafFence_kept (s : State) (t cause : Nat) : (State.leafFence s t cause).kept = s.kept := by
  simp [State.leafFence, kept_mk, kept_sec, foldl_kept]
@[simp] theorem State.leafAuto_kept (s : State) (t : Nat) : (State.leafAuto s t).kept = s.kept := by
  simp [State.leafAuto, kept_mk, kept_sec, foldl_kept]
@[simp] theorem State.leafFenceOpt_kept (r : State × Option Nat) : (State.leafFenceOpt r).kept = r.1.kept := by
  unfold State.leafFenceOpt; split <;> simp
@[simp] theorem State.accumulate_kept (s : State) (k : ChunkKey) : (State.accumulate s k).kept = s.kept := by
  unfold State.accumulate
  split
  · rfl
  · dsimp only
    split
    · rfl
    · split
      · simp
      · split
        · simp only [State.leafFenceOpt_kept, State.leafFail_kept, State.modLchunk_kept]
          exact foldlP_kept _ _ _ (fun a e => by simp)
        · rw [State.modLchunk_kept]
          exact foldlP_kept _ _ _ (fun a e => by simp)
@[simp] theorem State.rawReady_kept (s : State) (k : ChunkKey) (x : LColl) : (State.rawReady s k x).kept = s.kept := by
  simp [State.rawReady, kept_mk, kept_sec, foldl_kept]
@[simp] theorem State.leafRead_kept (s : State) (k : ChunkKey) (addr : Nat) (beat : Option (List Byte × Bool)) (fail : Option TileCheck) : (State.leafRead s k addr beat fail).kept = s.kept := by
  unfold State.leafRead; (repeat' split) <;> (first | rfl | (simp [kept_mk, kept_sec, foldl_kept]; done) | grind [kept_mk, kept_sec, foldl_kept, State.accumulate_kept, State.cannot_kept, State.leafFail_kept, State.modLchunk_kept, State.rawReady_kept, State.leafFenceOpt_kept])
@[simp] theorem State.leafDrain_kept (s0 : State) (k : ChunkKey) (fail : Option TileCheck) : (State.leafDrain s0 k fail).kept = s0.kept := by
  unfold State.leafDrain; (repeat' split) <;> (first | rfl | (simp [kept_mk, kept_sec, foldl_kept]; done) | grind [kept_mk, kept_sec, foldl_kept, State.accumulate_kept, State.dropAcc_kept, State.fabricWrite_kept, State.leafFail_kept, State.modLchunk_kept, State.leafFenceOpt_kept])
@[simp] theorem State.leafResult_kept (s : State) (k : ChunkKey) (d : CollData) : (State.leafResult s k d).kept = s.kept := by
  simp only [State.leafResult]; grind [kept_mk, kept_sec, foldl_kept, State.modLchunk_kept]
@[simp] theorem State.leafCommit_kept (s : State) (m : CommitMsg) : (State.leafCommit s m).kept = s.kept := by
  simp only [State.leafCommit]; grind [kept_mk, kept_sec, foldl_kept, State.chunkDone_kept, State.fabricWrite_kept, State.modLchunk_kept, State.modLcoll_kept, State.sendStuck_kept, State.sendUp_kept]
@[simp] theorem State.leafWritten_kept (s : State) (k : ChunkKey) (err : Bool) : (State.leafWritten s k err).kept = s.kept := by
  simp only [State.leafWritten]; grind [kept_mk, kept_sec, foldl_kept, State.chunkDone_kept, State.modLchunk_kept, State.modLcoll_kept, State.sendUp_kept, State.syncFail_kept]
@[simp] theorem State.leafReplay_kept (s : State) (port : Nat) (k : ChunkKey) (attempt : Nat) (crcOk : Bool) : (State.leafReplay s port k attempt crcOk).kept = s.kept := by
  simp only [State.leafReplay]; grind [kept_mk, kept_sec, foldl_kept, State.leafAuto_kept, State.modLcoll_kept, State.send_kept, State.sendList_kept, State.tileEvent_kept]
@[simp] theorem State.leafOpen_kept (s : State) (d : BitVec 512) (w : Nat) (p : List (Nat × Nat) × List (Nat × Nat)) : (State.leafOpen s d w p).kept = s.kept := by
  simp [State.leafOpen, kept_mk, kept_sec, foldl_kept]
@[simp] theorem State.leafClose_kept (s : State) (c h : Nat) : (State.leafClose s c h).kept = s.kept := by
  simp only [State.leafClose]; grind [kept_mk, kept_sec, foldl_kept, State.reserve_kept, State.setLcoll_kept]

/-! ## Machine/Power.lean -/

@[simp] theorem State.restartGroups_kept (s : State) : (State.restartGroups s).kept = s.kept := by
  simp only [State.restartGroups]; grind [kept_mk, kept_sec, foldl_kept, State.modGrp_kept]
@[simp] theorem State.turnOn_kept (s : State) (d : Nat) : (State.turnOn s d).kept = s.kept := by
  simp [State.turnOn, kept_mk, kept_sec, foldl_kept]
@[simp] theorem State.turnWaiting_kept (s : State) : (State.turnWaiting s).kept = s.kept := by
  simp [State.turnWaiting, kept_mk, kept_sec, foldl_kept]
@[simp] theorem State.queueStep_kept (s : State) (i : Nat) : (State.queueStep s i).kept = s.kept := by
  simp [State.queueStep, kept_mk, kept_sec, foldl_kept]
@[simp] theorem State.endStep_kept (s : State) (i : Nat) : (State.endStep s i).kept = s.kept := by
  rfl
@[simp] theorem State.abortStep_kept (s : State) (r : StepRun) (timeout : Bool) : (State.abortStep s r timeout).kept = s.kept := by
  simp [State.abortStep, kept_mk, kept_sec, foldl_kept]
@[simp] theorem State.nextAct_kept (s : State) (r : StepRun) : (State.nextAct s r).kept = s.kept := by
  simp [State.nextAct, kept_mk, kept_sec, foldl_kept]
@[simp] theorem State.stepTick_kept (s : State) : (State.stepTick s).kept = s.kept := by
  unfold State.stepTick; (repeat' split) <;> (first | rfl | (simp [kept_mk, kept_sec, foldl_kept]; done) | grind [kept_mk, kept_sec, foldl_kept, State.abortStep_kept, State.act_kept, State.endStep_kept, State.hold_kept, State.nextAct_kept])

/-! ## Machine/Docket.lean -/

@[simp] theorem State.dkReport_kept (s : State) (q tag : Nat) (code : St) : (State.dkReport s q tag code).kept = s.kept := by
  simp [State.dkReport, kept_mk, kept_sec, foldl_kept]
@[simp] theorem State.dkFail_kept (s : State) (q i : Nat) (code : St) : (State.dkFail s q i code).kept = s.kept := by
  simp only [State.dkFail]; grind [kept_mk, kept_sec, foldl_kept, State.dkReport_kept, State.modQueue_kept]
@[simp] theorem State.dkHead_kept (s : State) (q : Nat) : (State.dkHead s q).kept = s.kept := by
  simp only [State.dkHead]; grind [kept_mk, kept_sec, foldl_kept, State.dkFail_kept]
@[simp] theorem State.dkRecheck_kept (s : State) (q : Nat) : (State.dkRecheck s q).kept = s.kept := by
  simp [State.dkRecheck, kept_mk, kept_sec, foldl_kept]
@[simp] theorem State.dkArm_kept (s : State) (q i : Nat) (e : DkEntry) (rel : Option HT) : (State.dkArm s q i e rel).kept = s.kept := by
  simp only [State.dkArm]; grind [kept_mk, kept_sec, foldl_kept, State.dkFail_kept, State.modQueue_kept]
@[simp] theorem State.act_kept (s : State) (c : Nat) (e : BitVec 256) (t : HT) : (State.act s c e t).kept = s.kept := by
  simp only [State.act]; grind [kept_mk, kept_sec, foldl_kept, State.fireFrame_kept, State.launch_kept, State.queueStep_kept, State.raise_kept, State.startColl_kept]
@[simp] theorem State.clearQueues_kept (s : State) (c : Nat) : (State.clearQueues s c).kept = s.kept := by
  simp only [State.clearQueues]; grind [kept_mk, kept_sec, foldl_kept, State.modQueue_kept, State.release_kept]
@[simp] theorem State.recheckQueue_kept (s : State) (q : Nat) : (State.recheckQueue s q).kept = s.kept := by
  simp only [State.recheckQueue]; grind [kept_mk, kept_sec, foldl_kept, State.dkArm_kept, State.modQueue_kept]
@[simp] theorem State.recheckStrikes_kept (s : State) : (State.recheckStrikes s).kept = s.kept := by
  simp only [State.recheckStrikes]; grind [kept_mk, kept_sec, foldl_kept, State.modFrame_kept, State.recheckQueue_kept]

/-! ## Machine/SyncCmd.lean -/

@[simp] theorem State.recheckQueues_kept (s : State) (c : Nat) : (State.recheckQueues s c).kept = s.kept := by
  simp [State.recheckQueues, kept_mk, kept_sec, foldl_kept]

/-! ## Machine/Barrier.lean -/

@[simp] theorem State.setHbar_kept (s : State) (c id : Nat) (b : Option HBar) : (State.setHbar s c id b).kept = s.kept := by
  rfl
@[simp] theorem State.releaseDown_kept (s : State) (c : Nat) (b : HBar) (n : Nat) (strike : HT) : (State.releaseDown s c b n strike).kept = s.kept := by
  simp [State.releaseDown, kept_mk, kept_sec, foldl_kept]
@[simp] theorem State.completeInst_kept (s : State) (c id n : Nat) : (State.completeInst s c id n).kept = s.kept := by
  simp only [State.completeInst]; grind [kept_mk, kept_sec, foldl_kept, State.mirror_kept, State.release_kept, State.releaseDown_kept, State.sendChord_kept, State.sendUp_kept, State.setHbar_kept]
@[simp] theorem State.lateRelease_kept (s : State) (c g id n : Nat) (strike : HT) (port : Nat) : (State.lateRelease s c g id n strike port).kept = s.kept := by
  simp [State.lateRelease, kept_mk, kept_sec, foldl_kept]
@[simp] theorem State.leafRelease_kept (s : State) (port c g id n : Nat) (strike : HT) : (State.leafRelease s port c g id n strike).kept = s.kept := by
  simp only [State.leafRelease]; grind [kept_mk, kept_sec, foldl_kept, State.ctxIrq_kept, State.lateRelease_kept, State.launch_kept, State.record_kept, State.setLbar_kept]
@[simp] theorem State.lateRels_kept (s : State) : (State.lateRels s).kept = s.kept := by
  simp [State.lateRels, kept_mk, kept_sec, foldl_kept]
@[simp] theorem State.hubRelease_kept (s : State) (c id n : Nat) (strike : HT) : (State.hubRelease s c id n strike).kept = s.kept := by
  simp only [State.hubRelease]; grind [kept_mk, kept_sec, foldl_kept, State.releaseDown_kept, State.setHbar_kept]
@[simp] theorem State.markHeads_kept (s : State) (c rid : Nat) (strike : HT) : (State.markHeads s c rid strike).kept = s.kept := by
  simp only [State.markHeads]; grind [kept_mk, kept_sec, foldl_kept, State.modQueue_kept]
@[simp] theorem State.fireRelease_kept (s : State) (r : Rel) : (State.fireRelease s r).kept = s.kept := by
  simp only [State.fireRelease]; grind [kept_mk, kept_sec, foldl_kept, State.arrive_kept, State.launch_kept, State.markHeads_kept, State.setLbar_kept, State.signal_kept, State.syncFail_kept]
@[simp] theorem State.hubDelBar_kept (s : State) (c id : Nat) : (State.hubDelBar s c id).kept = s.kept := by
  unfold State.hubDelBar; (repeat' split) <;> (first | rfl | (simp [kept_mk, kept_sec, foldl_kept]; done) | grind [kept_mk, kept_sec, foldl_kept, State.distribute_kept, State.mirror_kept, State.sendKids_kept, State.setHbar_kept])

/-! ## Machine/JournalOps.lean -/

@[simp] theorem State.checkQuota_kept (s : State) : (State.checkQuota s).kept = s.kept := by
  simp [State.checkQuota, kept_mk, kept_sec, foldl_kept]
@[simp] theorem State.sealPage_kept (s : State) (p : Nat) : (State.sealPage s p).kept = s.kept := by
  rfl
@[simp] theorem State.pageSram_kept (s : State) (page : Nat) (x : SecDed) : (State.pageSram s page x).kept = s.kept := by
  simp only [State.pageSram]; grind [kept_mk, kept_sec, foldl_kept, State.modPage_kept, State.record_kept]
@[simp] theorem State.releasePages_kept (s : State) (ps : List Nat) : (State.releasePages s ps).kept = s.kept := by
  simp only [State.releasePages]; grind [kept_mk, kept_sec, foldl_kept, State.modPage_kept]

/-! ## Machine/Sched.lean -/

@[simp] theorem State.setTag_kept (s : State) (pl c : Nat) (t : WfqTag) : (State.setTag s pl c t).kept = s.kept := by
  rfl
@[simp] theorem State.modShape_kept (s : State) (c : Nat) (f : ShapeSt → ShapeSt) : (State.modShape s c f).kept = s.kept := by
  rfl
@[simp] theorem State.wakeQueue_kept (s : State) (pl c : Nat) : (State.wakeQueue s pl c).kept = s.kept := by
  rfl
@[simp] theorem State.awaken_kept (s : State) (pl : Nat) (bl : List Nat) : (State.awaken s pl bl).kept = s.kept := by
  simp [State.awaken, kept_mk, kept_sec, foldl_kept]
@[simp] theorem State.served_kept (s : State) (pl c : Nat) (still : Bool) : (State.served s pl c still).kept = s.kept := by
  rfl
@[simp] theorem State.dropTags_kept (s : State) (c : Nat) : (State.dropTags s c).kept = s.kept := by
  rfl
@[simp] theorem State.sendTurn_kept (s : State) (ports : List Nat) (l : List TxMsg) : (State.sendTurn s ports l).kept = s.kept := by
  simp only [State.sendTurn]; grind [kept_mk, kept_sec, foldl_kept, State.send_kept]
@[simp] theorem State.leafChunkSend_kept (s : State) (c h n : Nat) : (State.leafChunkSend s c h n).kept = s.kept := by
  simp only [State.leafChunkSend]; grind [kept_mk, kept_sec, foldl_kept, State.modLcoll_kept, State.sendTurn_kept]

/-! ## Machine/Slots.lean -/

@[simp] theorem State.putFlit_kept (s : State) (p : Nat) (f : Flit) (numbered : Bool) : (State.putFlit s p f numbered).kept = s.kept := by
  simp [State.putFlit, kept_mk, kept_sec, foldl_kept]
@[simp] theorem State.emit_kept (s : State) (p : Nat) (m : TxMsg) : (State.emit s p m).kept = s.kept := by
  simp [State.emit, kept_mk, kept_sec, foldl_kept]
@[simp] theorem State.markHeld_kept (s : State) (c : Nat) : (State.markHeld s c).kept = s.kept := by
  rfl
@[simp] theorem State.pickTenant_kept (s : State) (p : Nat) : (State.pickTenant s p).1.kept = s.kept := by
  simp only [State.pickTenant]; grind [kept_mk, kept_sec, foldl_kept, State.awaken_kept, State.markHeld_kept, State.modShape_kept, State.served_kept]
@[simp] theorem State.pickMsg_kept (s : State) (p : Nat) (l : List Nat) : (s.pickMsg p l).1.kept = s.kept := by
  induction l generalizing s with
  | nil => rfl
  | cons c r ih =>
    unfold State.pickMsg
    have h := State.pickTenant_kept s p
    (repeat' split) <;> grind
@[simp] theorem State.fillSlot_kept (s : State) (p n : Nat) : (State.fillSlot s p n).kept = s.kept := by
  unfold State.fillSlot
  split
  · simp
  · have h := State.pickMsg_kept s p (s.slotOrder p n)
    split <;> rename_i e <;> rw [e] at h <;> simpa using h
@[simp] theorem State.lineTick_kept (s : State) (p : Nat) : (State.lineTick s p).kept = s.kept := by
  simp only [State.lineTick]; grind [kept_mk, kept_sec, foldl_kept, State.emit_kept, State.fillSlot_kept, State.modPort_kept, State.putFlit_kept]
@[simp] theorem State.linesTick_kept (s : State) : (State.linesTick s).kept = s.kept := by
  simp [State.linesTick, kept_mk, kept_sec, foldl_kept]

/-! ## Machine/CollHub.lean -/

@[simp] theorem State.setPlan_kept (s : State) (c h : Nat) (p : Option HPlan) : (State.setPlan s c h p).kept = s.kept := by
  rfl
@[simp] theorem State.modPlan_kept (s : State) (c h : Nat) (f : HPlan → HPlan) : (State.modPlan s c h f).kept = s.kept := by
  simp only [State.modPlan]; grind [kept_mk, kept_sec, foldl_kept, State.setPlan_kept]
@[simp] theorem State.setChunk_kept (s : State) (c : HChunk) : (State.setChunk s c).kept = s.kept := by
  rfl
@[simp] theorem State.delChunk_kept (s : State) (k : ChunkKey) : (State.delChunk s k).kept = s.kept := by
  rfl
@[simp] theorem State.mirrorCounts_kept (s : State) (c h : Nat) : (State.mirrorCounts s c h).kept = s.kept := by
  simp only [State.mirrorCounts]; grind [kept_mk, kept_sec, foldl_kept, State.mirror_kept]
@[simp] theorem State.seeInst_kept (s : State) (k : ChunkKey) : (State.seeInst s k).kept = s.kept := by
  simp [State.seeInst, kept_mk, kept_sec, foldl_kept]
@[simp] theorem State.addHm_kept (s : State) (r : HmRec) : (State.addHm s r).kept = s.kept := by
  rfl
@[simp] theorem State.chunkFree_kept (s : State) (k : ChunkKey) (dirty : Bool) : (State.chunkFree s k dirty).kept = s.kept := by
  simp only [State.chunkFree]; grind [kept_mk, kept_sec, foldl_kept, State.dropPanes_kept, State.modTile_kept, State.releasePages_kept, State.setChunk_kept]
@[simp] theorem State.loadImage_kept (s : State) (c : HChunk) (poison : Bool) : (State.loadImage s c poison).kept = s.kept := by
  simp [State.loadImage, kept_mk, kept_sec, foldl_kept]
@[simp] theorem State.addStage_kept (s : State) (k : ChunkKey) (p : HPlan) : (State.addStage s k p).kept = s.kept := by
  simp only [State.addStage]; grind [kept_mk, kept_sec, foldl_kept, State.applyPanes_kept]
@[simp] theorem State.applyRx_kept (s : State) (k : ChunkKey) : (State.applyRx s k).1.kept = s.kept := by
  unfold State.applyRx
  split
  · split
    · rfl
    · dsimp only
      rw [State.setChunk_kept]
      exact foldlP_kept _ _ _ (fun a r => by simp)
  · rfl
@[simp] theorem State.sendCommit_kept (s : State) (kids : List Nat) (m : CommitMsg) (result : List Byte) : (State.sendCommit s kids m result).kept = s.kept := by
  simp [State.sendCommit, kept_mk, kept_sec, foldl_kept]
@[simp] theorem State.noteDone_kept (s : State) (k : ChunkKey) : (State.noteDone s k).kept = s.kept := by
  simp [State.noteDone, kept_mk, kept_sec, foldl_kept]
@[simp] theorem State.commitChunk_kept (s : State) (k : ChunkKey) : (State.commitChunk s k).kept = s.kept := by
  simp only [State.commitChunk]; grind [kept_mk, kept_sec, foldl_kept, State.addHm_kept, State.noteDone_kept, State.sendCommit_kept, State.setChunk_kept]
@[simp] theorem State.instanceEnd_kept (s : State) (c h : Nat) : (State.instanceEnd s c h).kept = s.kept := by
  unfold State.instanceEnd; (repeat' split) <;> (first | rfl | (simp [kept_mk, kept_sec, foldl_kept]; done) | grind [kept_mk, kept_sec, foldl_kept, State.mirror_kept, State.modPlan_kept, State.releasePages_kept, complete_kept])
@[simp] theorem State.retire_kept (s : State) (k : ChunkKey) : (State.retire s k).kept = s.kept := by
  simp [State.retire, kept_mk, kept_sec, foldl_kept]
@[simp] theorem State.hubNoticeUp_kept (s : State) (k : ChunkKey) (code : St) : (State.hubNoticeUp s k code).kept = s.kept := by
  simp only [State.hubNoticeUp]; grind [kept_mk, kept_sec, foldl_kept, State.modPlan_kept, State.sendUp_kept, State.setChunk_kept]
@[simp] theorem State.failChunk_kept (s : State) (k : ChunkKey) (code : St) : (State.failChunk s k code).kept = s.kept := by
  simp only [State.failChunk]; grind [kept_mk, kept_sec, foldl_kept, State.chunkFree_kept, State.hubNoticeUp_kept, State.noteDone_kept, State.retire_kept, State.sendCommit_kept, State.setChunk_kept, State.terminate_kept]
@[simp] theorem State.hubStuck_kept (s : State) (c h : Nat) : (State.hubStuck s c h).kept = s.kept := by
  simp only [State.hubStuck]; grind [kept_mk, kept_sec, foldl_kept, State.hubNoticeUp_kept]
@[simp] theorem State.checkFailed_kept (s : State) (k : ChunkKey) : (State.checkFailed s k).kept = s.kept := by
  simp only [State.checkFailed]; grind [kept_mk, kept_sec, foldl_kept, State.failChunk_kept]
@[simp] theorem State.lostCommit_kept (s : State) (k : ChunkKey) : (State.lostCommit s k).kept = s.kept := by
  simp only [State.lostCommit]; grind [kept_mk, kept_sec, foldl_kept, State.chunkFree_kept, State.delChunk_kept, State.failChunk_kept, State.noteDone_kept, State.seeInst_kept, State.sendUp_kept, State.setChunk_kept]
@[simp] theorem State.childReleased_kept (s : State) (child : Nat) (k : ChunkKey) : (State.childReleased s child k).kept = s.kept := by
  simp only [State.childReleased]; grind [kept_mk, kept_sec, foldl_kept, State.lostCommit_kept, State.modPlan_kept, State.seeInst_kept]
@[simp] theorem State.markFailed_kept (s : State) (k : ChunkKey) (code : St) : (State.markFailed s k code).kept = s.kept := by
  simp only [State.markFailed]; grind [kept_mk, kept_sec, foldl_kept, State.checkFailed_kept, State.chunkFree_kept, State.setChunk_kept]
@[simp] theorem State.endTest_kept (s : State) (r : TestRun) : (State.endTest s r).kept = s.kept := by
  simp [State.endTest, kept_mk, kept_sec, foldl_kept]
@[simp] theorem State.abortTest_kept (s : State) (r : TestRun) : (State.abortTest s r).kept = s.kept := by
  simp [State.abortTest, kept_mk, kept_sec, foldl_kept]
@[simp] theorem State.freeTestedSpare_kept (s : State) (c : HChunk) : (State.freeTestedSpare s c).kept = s.kept := by
  simp only [State.freeTestedSpare]; grind [kept_mk, kept_sec, foldl_kept, State.abortTest_kept]
@[simp] theorem State.mapReplay_kept (s : State) (k : ChunkKey) : (State.mapReplay s k).kept = s.kept := by
  simp only [State.mapReplay]; grind [kept_mk, kept_sec, foldl_kept, State.addStage_kept, State.setChunk_kept, State.takePanes_kept]
@[simp] theorem State.replayChunk_kept (s : State) (k : ChunkKey) : (State.replayChunk s k).kept = s.kept := by
  simp only [State.replayChunk]; grind [kept_mk, kept_sec, foldl_kept, State.chunkFree_kept, State.failChunk_kept, State.freeTestedSpare_kept, State.mapReplay_kept, State.record_kept, State.sendKids_kept, State.setChunk_kept]
@[simp] theorem State.putMap_kept (s : State) (tiles ports chord : Nat) : (State.putMap s tiles ports chord).kept = s.kept := by
  simp [State.putMap, kept_mk, kept_sec, foldl_kept]
@[simp] theorem State.mirrorTile_kept (s : State) (t : Nat) : (State.mirrorTile s t).kept = s.kept := by
  simp [State.mirrorTile, kept_mk, kept_sec, foldl_kept]
@[simp] theorem State.hubFence_kept (s : State) (t cause : Nat) : (State.hubFence s t cause).kept = s.kept := by
  simp only [State.hubFence]; grind [kept_mk, kept_sec, foldl_kept, State.mirrorTile_kept, State.modTile_kept, State.putMap_kept, State.record_kept, State.replayChunk_kept]
@[simp] theorem State.fenceTile_kept (s : State) (t cause : Nat) : (State.fenceTile s t cause).kept = s.kept := by
  simp [State.fenceTile, kept_mk, kept_sec, foldl_kept]
@[simp] theorem State.hubFail_kept (s : State) (k : ChunkKey) (f : TileCheck) : (State.hubFail s k f).kept = s.kept := by
  simp only [State.hubFail]; grind [kept_mk, kept_sec, foldl_kept, State.hubFence_kept, State.laterFence_kept, State.mirrorTile_kept, State.replayChunk_kept, State.setChunk_kept, State.tileEvent_kept]
@[simp] theorem State.corruptRx_kept (s : State) (k : ChunkKey) (child : Nat) : (State.corruptRx s k child).kept = s.kept := by
  simp only [State.corruptRx]; grind [kept_mk, kept_sec, foldl_kept, State.record_kept, State.send_kept, State.setChunk_kept]
@[simp] theorem State.takeRx_kept (s : State) (k : ChunkKey) : (State.takeRx s k).kept = s.kept := by
  simp only [State.takeRx]; grind [kept_mk, kept_sec, foldl_kept, State.applyRx_kept, State.hubFail_kept]
@[simp] theorem State.hubRx_kept (s0 : State) (child : Nat) (k : ChunkKey) (d : CollData) (fail : Option TileCheck) : (State.hubRx s0 child k d fail).kept = s0.kept := by
  unfold State.hubRx; (repeat' split) <;> (first | rfl | (simp [kept_mk, kept_sec, foldl_kept]; done) | grind [kept_mk, kept_sec, foldl_kept, State.checkFailed_kept, State.corruptRx_kept, State.hubFail_kept, State.lostCommit_kept, State.markFailed_kept, State.modPlan_kept, State.seeInst_kept, State.setChunk_kept, State.takeRx_kept])
@[simp] theorem State.hubNotice_kept (s0 : State) (child : Nat) (k : ChunkKey) (code : St) : (State.hubNotice s0 child k code).kept = s0.kept := by
  simp only [State.hubNotice]; grind [kept_mk, kept_sec, foldl_kept, State.lostCommit_kept, State.markFailed_kept, State.seeInst_kept, State.sendUp_kept, State.setChunk_kept, State.terminate_kept]
theorem State.takePages_kept {s t : State} {u n : Nat} {b : Bool} {l : List Nat} (h : s.takePages u n b = some (t, l)) : t.kept = s.kept := by
  grind [State.takePages, foldl_kept, State.modPage_kept, State.sealPage_kept]
theorem State.spillPagesFor_kept {s t : State} {c : HChunk} (h : s.spillPagesFor c = some t) : t.kept = s.kept := by
  grind [State.spillPagesFor, kept_mk, kept_sec, State.takePages_kept]
@[simp] theorem State.spillUntil_kept (s : State) (n : Nat) (l : List HChunk) : (s.spillUntil n l).kept = s.kept := by
  induction l generalizing s n <;> grind [State.spillUntil, kept_mk, kept_sec, State.spillPagesFor_kept, State.setChunk_kept]
@[simp] theorem State.spillTile_kept (s : State) (t : Nat) : (State.spillTile s t).kept = s.kept := by
  simp [State.spillTile, kept_mk, kept_sec, foldl_kept]
@[simp] theorem State.mapChunk_kept (s : State) (k : ChunkKey) : (State.mapChunk s k).kept = s.kept := by
  simp only [State.mapChunk]; grind [kept_mk, kept_sec, foldl_kept, State.addStage_kept, State.setChunk_kept, State.spillTile_kept, State.takePanes_kept, State.takeRx_kept, State.turnOn_kept]
@[simp] theorem State.hubMap_kept (s : State) (k : ChunkKey) : (State.hubMap s k).kept = s.kept := by
  simp only [State.hubMap]; grind [kept_mk, kept_sec, foldl_kept, State.awaken_kept, State.mapChunk_kept, State.mapReplay_kept, State.served_kept, State.takeRx_kept]

/-! ## Machine/Collective.lean -/

@[simp] theorem State.dropInst_kept (s : State) (c h : Nat) : (State.dropInst s c h).kept = s.kept := by
  simp [State.dropInst, kept_mk, kept_sec, foldl_kept]
theorem State.writeSave_kept {s t : State} {c h i : Nat} {p : HPlan} (e : s.writeSave c h i p = some t) : t.kept = s.kept := by
  grind [State.writeSave, kept_mk, kept_sec, State.takePages_kept, State.mirror_kept]
@[simp] theorem State.trySave_kept (s : State) (c h : Nat) : (State.trySave s c h).kept = s.kept := by
  simp only [State.trySave]; grind [kept_mk, kept_sec, foldl_kept, State.dropInst_kept, State.modPlan_kept, State.sendKids_kept, complete_kept, State.writeSave_kept]
@[simp] theorem State.stageChunk_kept (s : State) (k : ChunkKey) (p : HPlan) (ps : List Pane) : (State.stageChunk s k p ps).kept = s.kept := by
  simp only [State.stageChunk]; grind [kept_mk, kept_sec, foldl_kept, State.takePages_kept]
@[simp] theorem State.consumeStage_kept (s : State) (k : ChunkKey) (p : HPlan) : (State.consumeStage s k p).kept = s.kept := by
  simp only [State.consumeStage]; grind [kept_mk, kept_sec, foldl_kept]
@[simp] theorem State.gateSpan_kept (s : State) (k : ChunkKey) (c : HChunk) (p : HPlan) (ps : List Pane) : (State.gateSpan s k c p ps).kept = s.kept := by
  simp [State.gateSpan, kept_mk, kept_sec, foldl_kept]
@[simp] theorem State.gateLower_kept (s : State) (k : ChunkKey) (c : HChunk) (p : HPlan) (ps : List Pane) : (State.gateLower s k c p ps).kept = s.kept := by
  rfl
@[simp] theorem State.hubDrain_kept (s : State) (k : ChunkKey) (fail : Option TileCheck) : (State.hubDrain s k fail).kept = s.kept := by
  simp only [State.hubDrain]; grind [kept_mk, kept_sec, foldl_kept, State.chunkFree_kept, State.gateLower_kept, State.gateSpan_kept, State.hubFail_kept, State.record_kept]
@[simp] theorem State.hubChunkSend_kept (s : State) (c h n : Nat) : (State.hubChunkSend s c h n).kept = s.kept := by
  simp only [State.hubChunkSend]; grind [kept_mk, kept_sec, foldl_kept, State.mirrorCounts_kept, State.modPlan_kept, State.sendTurn_kept, State.setChunk_kept]
@[simp] theorem State.commitGated_kept (s : State) : (State.commitGated s).kept = s.kept := by
  simp [State.commitGated, kept_mk, kept_sec, foldl_kept]
@[simp] theorem State.takeCopies_kept (s : State) : (State.takeCopies s).kept = s.kept := by
  simp only [State.takeCopies]; grind [kept_mk, kept_sec, foldl_kept, State.noteDone_kept, State.seeInst_kept, State.sendCommit_kept, State.setChunk_kept]
@[simp] theorem State.resendPart_kept (s : State) (k : ChunkKey) (p : HPlan) (c : HChunk) (attempt : Nat) : (State.resendPart s k p c attempt).kept = s.kept := by
  simp [State.resendPart, kept_mk, kept_sec, foldl_kept]
@[simp] theorem State.hubReplayRequest_kept (s : State) (k : ChunkKey) (attempt : Nat) (crcOk : Bool) : (State.hubReplayRequest s k attempt crcOk).kept = s.kept := by
  simp only [State.hubReplayRequest]; grind [kept_mk, kept_sec, foldl_kept, State.hubFence_kept, State.laterFence_kept, State.mirrorTile_kept, State.modPlan_kept, State.replayChunk_kept, State.resendPart_kept, State.sendAll_kept, State.setChunk_kept, State.tileEvent_kept]
@[simp] theorem State.tellReleased_kept (s : State) (d : BitVec 512) (inst : Nat) (l : List Nat) : (State.tellReleased s d inst l).kept = s.kept := by
  simp [State.tellReleased, kept_mk, kept_sec, foldl_kept]
@[simp] theorem State.resendAll_kept (s0 : State) : (State.resendAll s0).kept = s0.kept := by
  simp only [State.resendAll]; grind [kept_mk, kept_sec, foldl_kept, State.leafReplay_kept, State.resendPart_kept, State.setChunk_kept, State.tellReleased_kept]
@[simp] theorem State.hubCommit_kept (s : State) (m : CommitMsg) : (State.hubCommit s m).kept = s.kept := by
  simp only [State.hubCommit]; grind [kept_mk, kept_sec, foldl_kept, State.chunkFree_kept, State.hubStuck_kept, State.mirrorCounts_kept, State.modPlan_kept, State.noteDone_kept, State.retire_kept, State.sendCommit_kept, State.sendUp_kept, State.setChunk_kept]

/-! ## Machine/Links.lean -/

@[simp] theorem State.moveTime_kept (s : State) (d : Int) : (State.moveTime s d).kept = s.kept := by
  rfl
@[simp] theorem State.setAsym_kept (s : State) (p : Nat) (a : Int) (cal : Bool) : (State.setAsym s p a cal).kept = s.kept := by
  rfl
@[simp] theorem State.discardMirror_kept (s : State) : (State.discardMirror s).kept = s.kept := by
  simp only [State.discardMirror]; grind [kept_mk, kept_sec, foldl_kept, State.reserve_kept]
@[simp] theorem State.toSyncing_kept (s : State) : (State.toSyncing s).kept = s.kept := by
  simp [State.toSyncing, kept_mk, kept_sec, foldl_kept]
@[simp] theorem State.sendPairEx_kept (s : State) : (State.sendPairEx s).kept = s.kept := by
  simp only [State.sendPairEx]; grind [kept_mk, kept_sec, foldl_kept, State.send_kept]
@[simp] theorem State.pairExchange_kept (s : State) : (State.pairExchange s).kept = s.kept := by
  rfl
@[simp] theorem State.enterSyncing_kept (s : State) : (State.enterSyncing s).kept = s.kept := by
  simp [State.enterSyncing, kept_mk, kept_sec, foldl_kept]
@[simp] theorem State.rebuild_kept (s : State) : (State.rebuild s).kept = s.kept := by
  rfl
@[simp] theorem State.sendMirror_kept (s : State) : (State.sendMirror s).kept = s.kept := by
  simp [State.sendMirror, kept_mk, kept_sec, foldl_kept]
@[simp] theorem State.chordUpNow_kept (s : State) : (State.chordUpNow s).kept = s.kept := by
  simp only [State.chordUpNow]; grind [kept_mk, kept_sec, foldl_kept, State.enterSyncing_kept, State.pairExchange_kept, State.rebuild_kept]
@[simp] theorem State.portComplete_kept (s : State) (p : Nat) : (State.portComplete s p).kept = s.kept := by
  simp [State.portComplete, kept_mk, kept_sec, foldl_kept]
@[simp] theorem State.completeWaiting_kept (s : State) : (State.completeWaiting s).kept = s.kept := by
  simp [State.completeWaiting, kept_mk, kept_sec, foldl_kept]
@[simp] theorem State.exchangeFailed_kept (s : State) (p n : Nat) : (State.exchangeFailed s p n).kept = s.kept := by
  grind [State.exchangeFailed, kept_mk, kept_sec, foldl_kept, State.kept, State.holdPort_kept, State.modPort_kept, State.record_kept]
@[simp] theorem State.pairExReceive_kept (s : State) (x : Exchange) (peerPassed : Bool) : (State.pairExReceive s x peerPassed).kept = s.kept := by
  simp only [State.pairExReceive]; grind [kept_mk, kept_sec, foldl_kept, State.exchangeFailed_kept, State.pairExchange_kept, State.portDown_kept, State.rebuild_kept, State.sendMirror_kept]
@[simp] theorem State.setRtt_kept (s : State) (p : Nat) (r : Int) : (State.setRtt s p r).kept = s.kept := by
  simp [State.setRtt, kept_mk, kept_sec, foldl_kept]
@[simp] theorem State.rttSample_kept (s : State) (p : Nat) (r : Int) : (State.rttSample s p r).kept = s.kept := by
  simp [State.rttSample, kept_mk, kept_sec, foldl_kept]
@[simp] theorem State.rebuildHistories_kept (s : State) : (State.rebuildHistories s).kept = s.kept := by
  simp [State.rebuildHistories, kept_mk, kept_sec, foldl_kept]
@[simp] theorem State.firstLoad_kept (s : State) (p : Nat) (b : TimingBody) (rxStamp : Nat) : (State.firstLoad s p b rxStamp).kept = s.kept := by
  simp [State.firstLoad, kept_mk, kept_sec, foldl_kept]
@[simp] theorem State.plumbTake_kept (s : State) (r : PlumbRun) (po ch : Nat) : (State.plumbTake s r po ch).kept = s.kept := by
  simp [State.plumbTake, kept_mk, kept_sec, foldl_kept]
@[simp] theorem State.plumbDrop_kept (s : State) : (State.plumbDrop s).kept = s.kept := by
  simp only [State.plumbDrop]; grind [kept_mk, kept_sec, foldl_kept, State.freeCal_kept]
@[simp] theorem State.plumbFails_kept (s : State) (code : St) : (State.plumbFails s code).kept = s.kept := by
  simp only [State.plumbFails]; grind [kept_mk, kept_sec, foldl_kept, State.plumbDrop_kept, State.send_kept, complete_kept]
@[simp] theorem State.storeAsym_kept (s : State) (p : Nat) (a : Int) : (State.storeAsym s p a).kept = s.kept := by
  simp only [State.storeAsym]; grind [kept_mk, kept_sec, foldl_kept, State.modPort_kept, State.setAsym_kept]
@[simp] theorem State.seeEpoch_kept (s : State) (p : Nat) (b : TimingBody) : (State.seeEpoch s p b).kept = s.kept := by
  simp [State.seeEpoch, kept_mk, kept_sec, foldl_kept]
@[simp] theorem State.formE_kept (s : State) : (State.formE s).kept = s.kept := by
  rfl
@[simp] theorem State.servoCounts_kept (s : State) (e : Int) (tracking recovery : Bool) : (State.servoCounts s e tracking recovery).kept = s.kept := by
  rfl
@[simp] theorem State.leafServo_kept (s : State) : (State.leafServo s).kept = s.kept := by
  simp only [State.leafServo]; grind [kept_mk, kept_sec, foldl_kept, State.servoCounts_kept]
@[simp] theorem State.hubServo_kept (s : State) : (State.hubServo s).kept = s.kept := by
  simp [State.hubServo, kept_mk, kept_sec, foldl_kept]
@[simp] theorem State.plumbMismatch_kept (s : State) : (State.plumbMismatch s).kept = s.kept := by
  simp [State.plumbMismatch, kept_mk, kept_sec, foldl_kept]
@[simp] theorem State.inServiceNow_kept (s : State) : (State.inServiceNow s).kept = s.kept := by
  simp [State.inServiceNow, kept_mk, kept_sec, foldl_kept]
@[simp] theorem State.tryPartner_kept (s : State) : (State.tryPartner s).kept = s.kept := by
  simp [State.tryPartner, kept_mk, kept_sec, foldl_kept]
@[simp] theorem State.saveStopped_kept (s : State) (c h id : Nat) (final : Bool) : (State.saveStopped s c h id final).kept = s.kept := by
  simp only [State.saveStopped]; grind [kept_mk, kept_sec, foldl_kept, State.dropAcc_kept, State.dropInst_kept, State.modPlan_kept, State.sendKids_kept, State.setLcoll_kept, State.writeSave_kept]
@[simp] theorem State.owedNow_kept (s : State) (c h id inst : Nat) (chunks committed : List Nat) : (State.owedNow s c h id inst chunks committed).kept = s.kept := by
  simp only [State.owedNow]; grind [kept_mk, kept_sec, foldl_kept, State.sendKids_kept, State.setChunk_kept, State.setLcoll_kept, State.setPlan_kept]
@[simp] theorem State.discardFlit_kept (s : State) (p : Nat) (numbered : Bool) : (State.discardFlit s p numbered).kept = s.kept := by
  simp [State.discardFlit, kept_mk, kept_sec, foldl_kept]

/-! ## Machine/Faults.lean -/

@[simp] theorem State.fencePort_kept (s : State) (p cause : Nat) : (State.fencePort s p cause).kept = s.kept := by
  simp [State.fencePort, kept_mk, kept_sec, foldl_kept]
@[simp] theorem State.unfencePort_kept (s : State) (p : Nat) : (State.unfencePort s p).kept = s.kept := by
  simp [State.unfencePort, kept_mk, kept_sec, foldl_kept]
@[simp] theorem State.unfenceTile_kept (s : State) (t : Nat) : (State.unfenceTile s t).kept = s.kept := by
  simp [State.unfenceTile, kept_mk, kept_sec, foldl_kept]

/-! ## Machine/Test.lean -/

@[simp] theorem State.setPack_kept (s : State) (i : Nat) (p : Option Pack) : (State.setPack s i p).kept = s.kept := by
  rfl
@[simp] theorem State.storePack_kept (s : State) (p : Pack) : (State.storePack s p).1.kept = s.kept := by
  simp only [State.storePack]; grind [kept_mk, kept_sec, foldl_kept, State.record_kept, State.setPack_kept]
@[simp] theorem State.passPack_kept (s : State) (p : Pack) : (State.passPack s p).kept = s.kept := by
  simp [State.passPack, kept_mk, kept_sec, foldl_kept]

/-! ## Machine/Classes.lean -/

@[simp] theorem State.spillAll_kept (s : State) (t : Nat) : (State.spillAll s t).kept = s.kept := by
  simp only [State.spillAll]; grind [kept_mk, kept_sec, foldl_kept, State.setChunk_kept, State.spillPagesFor_kept]
@[simp] theorem State.chooseRadio_kept (s : State) (n : Nat) : (State.chooseRadio s n).kept = s.kept := by
  simp only [State.chooseRadio]; grind [kept_mk, kept_sec, foldl_kept, State.abortTest_kept, State.modTile_kept, State.spillAll_kept]
@[simp] theorem State.setShape_kept (s : State) (c weight rate burst : Nat) (full : Bool) : (State.setShape s c weight rate burst full).kept = s.kept := by
  simp [State.setShape, kept_mk, kept_sec, foldl_kept]

/-! ## Machine/Hallmarks.lean -/

@[simp] theorem State.archive_kept (s : State) (b : Batch) : (State.archive s b).kept = s.kept := by
  simp only [State.archive]; grind [kept_mk, kept_sec, foldl_kept, State.takePages_kept]
@[simp] theorem State.signBatch_kept (s : State) : (State.signBatch s).kept = s.kept := by
  simp only [State.signBatch]; grind [kept_mk, kept_sec, foldl_kept, State.archive_kept, State.mirror_kept]
@[simp] theorem State.assayDone_kept (s : State) : (State.assayDone s).kept = s.kept := by
  rfl

/-! ## Machine/Journal.lean -/

@[simp] theorem State.jmRecord_kept (s : State) (event c sub page acc mask use : Nat) : (State.jmRecord s event c sub page acc mask use).kept = s.kept := by
  simp [State.jmRecord, kept_mk, kept_sec, foldl_kept]
@[simp] theorem State.setMark_kept (s : State) (c : Nat) (m : Option Nat) (dev : Nat) : (State.setMark s c m dev).kept = s.kept := by
  simp [State.setMark, kept_mk, kept_sec, foldl_kept]
@[simp] theorem State.autoMark_kept (s : State) (c dev page : Nat) : (State.autoMark s c dev page).kept = s.kept := by
  simp [State.autoMark, kept_mk, kept_sec, foldl_kept]
@[simp] theorem State.jmBad_kept (s : State) (page acc mask use : Nat) : (State.jmBad s page acc mask use).kept = s.kept := by
  simp [State.jmBad, kept_mk, kept_sec, foldl_kept]
@[simp] theorem State.jmCorr_kept (s : State) (page acc use : Nat) (devs : List Nat) (e : JournalErr) : (State.jmCorr s page acc use devs e).kept = s.kept := by
  simp [State.jmCorr, kept_mk, kept_sec, foldl_kept]
@[simp] theorem State.issueWb_kept (s : State) (page : Nat) : (State.issueWb s page).kept = s.kept := by
  rfl
@[simp] theorem State.jmAccess_kept (s : State) (use page acc : Nat) (e : JournalErr) : (State.jmAccess s use page acc e).1.kept = s.kept := by
  simp only [State.jmAccess]; grind [kept_mk, kept_sec, foldl_kept, State.issueWb_kept, State.jmBad_kept, State.jmCorr_kept, State.pageSram_kept]
@[simp] theorem State.failChan_kept (s : State) (c : Nat) : (State.failChan s c).kept = s.kept := by
  simp [State.failChan, kept_mk, kept_sec, foldl_kept]
@[simp] theorem State.testRecord_kept (s : State) (c step : Nat) : (State.testRecord s c step).kept = s.kept := by
  simp [State.testRecord, kept_mk, kept_sec, foldl_kept]
@[simp] theorem State.flushRing_kept (s : State) : (State.flushRing s).kept = s.kept := by
  simp [State.flushRing, kept_mk, kept_sec, foldl_kept]
@[simp] theorem State.selfTest_kept (s : State) (step1Ok : Bool) (bad : List Nat) (listOk : Bool) : (State.selfTest s step1Ok bad listOk).kept = s.kept := by
  simp [State.selfTest, kept_mk, kept_sec, foldl_kept]
@[simp] theorem State.movePage_kept (s : State) (p q : Nat) : (State.movePage s p q).kept = s.kept := by
  rfl
@[simp] theorem State.keepList_kept (s : State) : (State.keepList s).kept = s.kept := by
  simp [State.keepList, kept_mk, kept_sec, foldl_kept]
@[simp] theorem State.loadSaved_kept (s : State) (c gen h : Nat) (v : Save) : (State.loadSaved s c gen h v).kept = s.kept := by
  simp [State.loadSaved, kept_mk, kept_sec, foldl_kept]

/-! ## Machine/TimeCmd.lean -/

@[simp] theorem State.mapDown_kept (s : State) (m : TaiMap) : (State.mapDown s m).kept = s.kept := by
  simp [State.mapDown, kept_mk, kept_sec, foldl_kept]
@[simp] theorem State.ofsMoved_kept (s : State) (d : Int) : (State.ofsMoved s d).kept = s.kept := by
  simp only [State.ofsMoved]; grind [kept_mk, kept_sec, foldl_kept, State.movePhase_kept]
@[simp] theorem State.applyMap_kept (s : State) (m : TaiMap) : (State.applyMap s m).kept = s.kept := by
  simp [State.applyMap, kept_mk, kept_sec, foldl_kept]
@[simp] theorem State.takeMap_kept (s : State) (m : TaiMap) : (State.takeMap s m).kept = s.kept := by
  simp [State.takeMap, kept_mk, kept_sec, foldl_kept]
@[simp] theorem State.firstMap_kept (s : State) (ofs : Int) : (State.firstMap s ofs).kept = s.kept := by
  simp [State.firstMap, kept_mk, kept_sec, foldl_kept]
@[simp] theorem State.checkpoint_kept (s : State) : (State.checkpoint s).kept = s.kept := by
  rfl
@[simp] theorem State.stepHt_kept (s : State) (d : Int) : (State.stepHt s d).kept = s.kept := by
  simp [State.stepHt, kept_mk, kept_sec, foldl_kept]

/-! ## Machine/Dist.lean -/

@[simp] theorem State.install_kept (s : State) (m : CtxMsg) (kids : List Nat) : (State.install s m kids).kept = s.kept := by
  rfl
@[simp] theorem State.noteLeaves_kept (s : State) (c g : Nat) (l : List (Nat × Nat)) : (State.noteLeaves s c g l).kept = s.kept := by
  simp [State.noteLeaves, kept_mk, kept_sec, foldl_kept]
@[simp] theorem State.askClear_kept (s : State) (c g code : Nat) : (State.askClear s c g code).kept = s.kept := by
  simp [State.askClear, kept_mk, kept_sec, foldl_kept]
@[simp] theorem State.hubClose_kept (s : State) (c h : Nat) : (State.hubClose s c h).kept = s.kept := by
  simp only [State.hubClose]; grind [kept_mk, kept_sec, foldl_kept, State.reserve_kept, State.setPlan_kept]
@[simp] theorem State.distUndo_kept (s : State) (above : Bool) (c : DistCmd) (u : Undo) : (State.distUndo s above c u).kept = s.kept := by
  simp only [State.distUndo]; grind [kept_mk, kept_sec, foldl_kept, State.hubClose_kept, State.leafClose_kept, State.modShape_kept, State.modSlot_kept, State.setHbar_kept, State.setLbar_kept]
@[simp] theorem State.distConfirm_kept (s : State) (c : DistCmd) : (State.distConfirm s c).kept = s.kept := by
  simp only [State.distConfirm]; grind [kept_mk, kept_sec, foldl_kept, State.hubClose_kept, State.leafClose_kept]
@[simp] theorem State.distribute_kept (s : State) (id : Nat) (c : DistCmd) (ports : List Nat) (d : Dist) : (State.distribute s id c ports d).kept = s.kept := by
  simp only [State.distribute]; grind [kept_mk, kept_sec, foldl_kept, State.logWrite_kept, State.mirror_kept, State.send_kept, State.sendAll_kept]
@[simp] theorem State.newDist_kept (s : State) (c : DistCmd) : (State.newDist s c).1.kept = s.kept := by
  simp only [State.newDist]; grind [kept_mk, kept_sec, foldl_kept]
@[simp] theorem State.distTell_kept (s : State) (d : Dist) (c : DistCmd) : (State.distTell s d c).kept = s.kept := by
  simp [State.distTell, kept_mk, kept_sec, foldl_kept]
@[simp] theorem State.distDrop_kept (s : State) (id : Nat) : (State.distDrop s id).kept = s.kept := by
  rfl
@[simp] theorem State.distFail_kept (s : State) (d : Dist) (code : St) (ownOk : Bool) : (State.distFail s d code ownOk).kept = s.kept := by
  simp only [State.distFail]; grind [kept_mk, kept_sec, foldl_kept, State.distDrop_kept, State.distTell_kept, State.distUndo_kept, State.send_kept, complete_kept]
@[simp] theorem State.takeManifests_kept (s : State) (d : Dist) : (State.takeManifests s d).kept = s.kept := by
  simp only [State.takeManifests]; grind [kept_mk, kept_sec, foldl_kept]
@[simp] theorem State.takeLeaves_kept (s : State) (d : Dist) : (State.takeLeaves s d).kept = s.kept := by
  simp only [State.takeLeaves]; grind [kept_mk, kept_sec, foldl_kept, State.mirror_kept, State.noteLeaves_kept]
@[simp] theorem State.distDone_kept (s : State) (d : Dist) : (State.distDone s d).kept = s.kept := by
  simp only [State.distDone]; grind [kept_mk, kept_sec, foldl_kept, State.distConfirm_kept, State.distDrop_kept, State.distTell_kept, State.modSlot_kept, State.send_kept, State.takeLeaves_kept, State.takeManifests_kept, complete_kept]
@[simp] theorem State.distFinish_kept (s : State) (id : Nat) (ownOk : Bool) : (State.distFinish s id ownOk).kept = s.kept := by
  simp only [State.distFinish]; grind [kept_mk, kept_sec, foldl_kept, State.distDone_kept, State.distFail_kept]
@[simp] theorem State.distHeard_kept (s : State) (p id : Nat) (code : St) (info : AckInfo) : (State.distHeard s p id code info).kept = s.kept := by
  simp only [State.distHeard]; grind [kept_mk, kept_sec, foldl_kept, State.distFinish_kept]
theorem State.hubDefBar_kept {s t : State} {c g : Nat} {d : BarrierDef} (h : s.hubDefBar c g d = .ok t) : t.kept = s.kept := by
  grind [State.hubDefBar, State.setHbar_kept]
theorem State.leafDefBar_kept {s t : State} {c g : Nat} {d : BarrierDef} (h : s.leafDefBar c g d = .ok t) : t.kept = s.kept := by
  grind [State.leafDefBar, State.setLbar_kept]
theorem State.acceptCtx_kept {s t : State} {m : CtxMsg} (h : s.acceptCtx m = .ok t) : t.kept = s.kept := by
  grind [State.acceptCtx, State.install_kept]
theorem State.hubOpen_kept {s t : State} {d : BitVec 512} {w : Nat} (h : s.hubOpen d w = .ok t) : t.kept = s.kept := by
  grind [State.hubOpen, State.reserve_kept, State.setPlan_kept]
theorem State.leafTake_kept {s t : State} {d : BitVec 512} {w : Nat} (h : s.leafTake d w = .ok t) : t.kept = s.kept := by
  grind [State.leafTake, State.leafOpen_kept]
theorem except_map_ok {α β : Type} {x : Except St α} {f : α → β} {b : β} (h : x.map f = .ok b) : ∃ a, x = .ok a ∧ f a = b := by
  cases x with
  | error e => simp [Except.map] at h
  | ok a => exact ⟨a, rfl, by simpa [Except.map] using h⟩
theorem State.distApply_kept {s t : State} {above : Bool} {c : DistCmd} {u : Undo} (h : s.distApply above c = .ok (t, u)) : t.kept = s.kept := by
  unfold State.distApply at h
  split at h
  · obtain ⟨a, ha, hb⟩ := except_map_ok h
    simp at hb; obtain ⟨rfl, rfl⟩ := hb
    split at ha
    · exact State.hubDefBar_kept ha
    · exact State.leafDefBar_kept ha
  · obtain ⟨a, ha, hb⟩ := except_map_ok h
    simp at hb; obtain ⟨rfl, rfl⟩ := hb
    split at ha
    · exact State.hubOpen_kept ha
    · exact State.leafTake_kept ha
  · grind
  · obtain ⟨a, ha, hb⟩ := except_map_ok h
    simp at hb; obtain ⟨rfl, rfl⟩ := hb
    exact State.acceptCtx_kept ha
  · simp at h; rw [← h.1]; simp
  · grind [State.setShape_kept]
  · grind [kept_mk, kept_sec]
  · grind [kept_mk, kept_sec]
  all_goals (simp at h; rw [← h.1])
@[simp] theorem State.distBegin_kept (s : State) (c : DistCmd) (src : CmdSrc) (up : Option (Nat × Nat)) (results : List Byte) (deadline : Option HT) : (State.distBegin s c src up results deadline).kept = s.kept := by
  simp only [State.distBegin]; grind [kept_mk, kept_sec, foldl_kept, State.distFinish_kept, State.distribute_kept, State.newDist_kept, State.send_kept, complete_kept, State.distApply_kept]
@[simp] theorem State.distLeaf_kept (s : State) (p id : Nat) (c : DistCmd) : (State.distLeaf s p id c).kept = s.kept := by
  simp only [State.distLeaf]; grind [kept_mk, kept_sec, foldl_kept, State.logWrite_kept, State.modSlot_kept, State.send_kept, State.distApply_kept]
@[simp] theorem State.distEnd_kept (s : State) (p id : Nat) (keep : Bool) : (State.distEnd s p id keep).kept = s.kept := by
  simp only [State.distEnd]; grind [kept_mk, kept_sec, foldl_kept, State.distConfirm_kept, State.distDrop_kept, State.distTell_kept, State.distUndo_kept]
@[simp] theorem State.startSlotReset_kept (s : State) (c : Nat) : (State.startSlotReset s c).kept = s.kept := by
  simp [State.startSlotReset, kept_mk, kept_sec, foldl_kept]
@[simp] theorem State.dropBarrier_kept (s : State) (c id : Nat) : (State.dropBarrier s c id).kept = s.kept := by
  simp [State.dropBarrier, kept_mk, kept_sec, foldl_kept]
@[simp] theorem State.distTake_kept (s : State) (p id : Nat) (c : DistCmd) : (State.distTake s p id c).kept = s.kept := by
  simp only [State.distTake]; grind [kept_mk, kept_sec, foldl_kept, State.distBegin_kept, State.distEnd_kept, State.distLeaf_kept, State.dropBarrier_kept, State.startSlotReset_kept]

/-! ## Machine/Contexts.lean -/

@[simp] theorem State.dropWaiting_kept (s : State) (c : Nat) : (State.dropWaiting s c).kept = s.kept := by
  rfl
@[simp] theorem State.soilPanes_kept (s : State) (l : List (Nat × Nat)) : (State.soilPanes s l).kept = s.kept := by
  simp [State.soilPanes, kept_mk, kept_sec, foldl_kept]
@[simp] theorem State.clearSync_kept (s : State) (c : Nat) : (State.clearSync s c).kept = s.kept := by
  simp [State.clearSync, kept_mk, kept_sec, foldl_kept]
@[simp] theorem State.clearLeafColls_kept (s : State) (c : Nat) : (State.clearLeafColls s c).kept = s.kept := by
  simp only [State.clearLeafColls]; grind [kept_mk, kept_sec, foldl_kept, State.soilPanes_kept]
@[simp] theorem State.clearJournalRuns_kept (s : State) (c : Nat) : (State.clearJournalRuns s c).kept = s.kept := by
  unfold State.clearJournalRuns
  refine foldl_kept _ _ _ (fun s d => ?_)
  split
  · rfl
  · dsimp only; grind [kept_mk, kept_sec, complete_kept]
@[simp] theorem State.clearHub_kept (s : State) (c : Nat) : (State.clearHub s c).kept = s.kept := by
  simp only [State.clearHub]; grind [kept_mk, kept_sec, foldl_kept, State.chunkFree_kept, State.clearJournalRuns_kept, State.delChunk_kept, State.soilPanes_kept]
@[simp] theorem State.abortDists_kept (s : State) (c : Nat) : (State.abortDists s c).kept = s.kept := by
  unfold State.abortDists
  refine foldl_kept _ _ _ (fun s d => ?_)
  dsimp only
  split
  · simp
  · simp
@[simp] theorem State.clearMailboxes_kept (s : State) (c : Nat) : (State.clearMailboxes s c).kept = s.kept := by
  simp [State.clearMailboxes, kept_mk, kept_sec, foldl_kept]
@[simp] theorem State.clearTick_kept (s : State) (c : Nat) : (State.clearTick s c).kept = s.kept := by
  simp [State.clearTick, kept_mk, kept_sec, foldl_kept]
@[simp] theorem State.clearDone_kept (s : State) (c : Nat) : (State.clearDone s c).kept = s.kept := by
  unfold State.clearDone
  have h : ∀ (s : State), ((s.sync.freeing.get [] c).foldl (fun s p => s.setWord p 0) s).kept = s.kept := fun s => foldl_kept _ _ _ (by simp)
  have h2 : ∀ (l : List Dist) (s : State), (l.foldl (fun s d => s.distHeard ownClear d.id .ok {}) s).kept = s.kept := fun l s => foldl_kept _ _ _ (by simp)
  dsimp only
  rw [h2]
  split
  · rw [State.send_kept, State.modSlot_kept, kept_mk, kept_sec]; exact h s
  · rw [State.modSlot_kept, kept_mk, kept_sec]; exact h s
@[simp] theorem State.goSolo_kept (s : State) : (State.goSolo s).kept = s.kept := by
  unfold State.goSolo
  dsimp only
  refine (foldl_kept _ _ _ (fun s i => ?_)).trans (by simp [kept_mk, kept_sec])
  split
  · rfl
  · split
    · exact State.distHeard_kept ..
    · rfl
@[simp] theorem State.endContexts_kept (s : State) : (State.endContexts s).kept = s.kept := by
  simp [State.endContexts, kept_mk, kept_sec, foldl_kept]
@[simp] theorem State.wipeJournal_kept (s : State) : (State.wipeJournal s).kept = s.kept := by
  rfl

/-! ## Machine/Pair.lean -/

@[simp] theorem State.onLeaseFlit_kept (s : State) (port : Nat) (kind : LeaseKind) (f : LeaseFlit) : (State.onLeaseFlit s port kind f).kept = s.kept := by
  simp only [State.onLeaseFlit]; grind [kept_mk, kept_sec, foldl_kept, State.release_kept, State.send_kept]
@[simp] theorem State.vote_kept (s : State) (port : Nat) (kind : LeaseKind) (f : LeaseFlit) : (State.vote s port kind f).kept = s.kept := by
  simp [State.vote, kept_mk, kept_sec, foldl_kept]
@[simp] theorem State.freshClaim_kept (s : State) : (State.freshClaim s).kept = s.kept := by
  simp [State.freshClaim, kept_mk, kept_sec, foldl_kept]
@[simp] theorem State.startClaim_kept (s : State) : (State.startClaim s).kept = s.kept := by
  rfl
@[simp] theorem State.knowEpoch_kept (s : State) (e : Nat) : (State.knowEpoch s e).kept = s.kept := by
  simp [State.knowEpoch, kept_mk, kept_sec, foldl_kept]
@[simp] theorem State.chordRenewal_kept (s : State) (f : LeaseFlit) : (State.chordRenewal s f).kept = s.kept := by
  simp [State.chordRenewal, kept_mk, kept_sec, foldl_kept]
@[simp] theorem State.mergeRefs_kept (s : State) : (State.mergeRefs s).kept = s.kept := by
  simp only [State.mergeRefs]; grind [kept_mk, kept_sec, foldl_kept, State.clearDisputes_kept, State.hist_kept, State.modRef_kept]
@[simp] theorem State.mergeDisq_kept (s : State) : (State.mergeDisq s).kept = s.kept := by
  simp [State.mergeDisq, kept_mk, kept_sec, foldl_kept]
@[simp] theorem State.ownInput_kept (s : State) (target : Int) : (State.ownInput s target).kept = s.kept := by
  simp [State.ownInput, kept_mk, kept_sec, foldl_kept]
@[simp] theorem State.topMode_kept (s : State) (mode : Nat) : (State.topMode s mode).kept = s.kept := by
  simp only [State.topMode]; grind [kept_mk, kept_sec, foldl_kept, State.enterNow_kept, State.loseInput_kept, State.selectNow_kept]
@[simp] theorem State.takeTop_kept (s : State) : (State.takeTop s).kept = s.kept := by
  simp [State.takeTop, kept_mk, kept_sec, foldl_kept]
@[simp] theorem State.takeLower_kept (s : State) : (State.takeLower s).kept = s.kept := by
  simp only [State.takeLower]; grind [kept_mk, kept_sec, foldl_kept, State.enter_kept, State.hist_kept, State.loseInput_kept, State.pullTo_kept, State.refreshWord_kept, State.stopPull_kept]
@[simp] theorem State.takeBarriers_kept (s : State) : (State.takeBarriers s).kept = s.kept := by
  simp only [State.takeBarriers]; grind [kept_mk, kept_sec, foldl_kept, State.completeInst_kept, State.releaseDown_kept]
@[simp] theorem State.dropSeen_kept (s : State) (e : DistSeen) : (State.dropSeen s e).kept = s.kept := by
  unfold State.dropSeen
  dsimp only
  split
  · rw [State.askClear_kept]; exact State.sendAll_kept ..
  · simp
  · rw [State.hubClose_kept, State.sendAll_kept]; exact State.sendAll_kept ..
  · rfl
@[simp] theorem State.takeOwnForwards_kept (s : State) : (State.takeOwnForwards s).kept = s.kept := by
  simp only [State.takeOwnForwards]; grind [kept_mk, kept_sec, foldl_kept, complete_kept]
@[simp] theorem State.becomePrimary_kept (s : State) : (State.becomePrimary s).kept = s.kept := by
  simp [State.becomePrimary, kept_mk, kept_sec, foldl_kept]
@[simp] theorem State.endDists_kept (s : State) : (State.endDists s).kept = s.kept := by
  simp only [State.endDists]; grind [kept_mk, kept_sec, foldl_kept, complete_kept]
@[simp] theorem State.abortOwn_kept (s : State) (src : CmdSrc) (opcode : Nat) : (State.abortOwn s src opcode).kept = s.kept := by
  simp only [State.abortOwn]; grind [kept_mk, kept_sec, foldl_kept, complete_kept]
@[simp] theorem State.endJournalRuns_kept (s : State) : (State.endJournalRuns s).kept = s.kept := by
  unfold State.endJournalRuns
  refine foldl_kept _ _ _ (fun s d => ?_)
  split
  · rfl
  · dsimp only; grind [kept_mk, kept_sec, State.abortOwn_kept, State.setPlan_kept]
@[simp] theorem State.dropChunks_kept (s : State) : (State.dropChunks s).kept = s.kept := by
  simp [State.dropChunks, kept_mk, kept_sec, foldl_kept]
@[simp] theorem State.leavePrimary_kept (s : State) : (State.leavePrimary s).kept = s.kept := by
  simp [State.leavePrimary, kept_mk, kept_sec, foldl_kept]
@[simp] theorem State.sendRelease_kept (s : State) : (State.sendRelease s).kept = s.kept := by
  simp [State.sendRelease, kept_mk, kept_sec, foldl_kept]
@[simp] theorem State.keepSave_kept (s : State) (id : Nat) (v : Option Save) : (State.keepSave s id v).kept = s.kept := by
  simp only [State.keepSave]; grind [kept_mk, kept_sec, foldl_kept, State.releasePages_kept, State.takePages_kept]
@[simp] theorem State.keepStage_kept (s : State) (id : Nat) (v : Option Stage) : (State.keepStage s id v).kept = s.kept := by
  simp only [State.keepStage]; grind [kept_mk, kept_sec, foldl_kept, State.releasePages_kept, State.takePages_kept]
@[simp] theorem State.sendCopies_kept (s : State) : (State.sendCopies s).kept = s.kept := by
  simp only [State.sendCopies]; grind [kept_mk, kept_sec, foldl_kept, State.mirror_kept, State.sendChord_kept]
@[simp] theorem State.mirInst_kept (s : State) (c id n : Nat) (f : HInst → HInst) : (State.mirInst s c id n f).kept = s.kept := by
  simp only [State.mirInst]; grind [kept_mk, kept_sec, foldl_kept, State.setHbar_kept]
@[simp] theorem State.applyMirror_kept (s : State) (m : MirrorMsg) : (State.applyMirror s m).kept = s.kept := by
  unfold State.applyMirror
  split
  · rw [State.refreshWord_kept]; exact foldl_kept _ _ _ (by simp)
  all_goals try (rw [kept_mk, kept_sec]; done)
  all_goals try with_reducible rfl
  all_goals try (simp only [State.takeMap_kept, State.applyRefCfg_kept, State.setMode_kept, State.noteLeaves_kept, State.setHbar_kept, State.hubClose_kept, State.modPlan_kept, State.askClear_kept, State.setShape_kept, State.mirInst_kept, State.keepSave_kept, State.keepStage_kept]; done)
  all_goals try (rw [kept_mk, kept_sec]; simp only [State.knowEpoch_kept, State.toSyncing_kept]; done)
  all_goals try (rw [State.tryPartner_kept]; rfl)
  all_goals try ((repeat' split) <;> first | with_reducible rfl | simp only [State.setHbar_kept, State.install_kept, State.mirInst_kept, State.hubRelease_kept, State.reserve_kept, State.setPlan_kept])
  all_goals grind [kept_mk, kept_sec, State.ofsMoved_kept, State.modPlan_kept, State.noteDone_kept, State.seeInst_kept]
@[simp] theorem State.epochDiffers_kept (s : State) (own peer : Nat) : (State.epochDiffers s own peer).kept = s.kept := by
  simp [State.epochDiffers, kept_mk, kept_sec, foldl_kept]

/-! ## Machine/Scrivener.lean -/

@[simp] theorem State.noteFwd_kept (s : State) (block m seq port : Nat) : (State.noteFwd s block m seq port).kept = s.kept := by
  rfl
@[simp] theorem State.answerFwd_kept (s : State) (port block m seq : Nat) (code : St) (out : List Byte) : (State.answerFwd s port block m seq code out).kept = s.kept := by
  simp [State.answerFwd, kept_mk, kept_sec, foldl_kept]
@[simp] theorem State.passFwd_kept (s : State) (port block m seq tier opcode : Nat) (overChord : Bool) (msg : TxMsg) : (State.passFwd s port block m seq tier opcode overChord msg).kept = s.kept := by
  simp [State.passFwd, kept_mk, kept_sec, foldl_kept]
@[simp] theorem State.takeFwd_kept (s : State) (port block m seq opcode op : Nat) (resent : Bool) : (State.takeFwd s port block m seq opcode op resent).kept = s.kept := by
  simp only [State.takeFwd]; grind [kept_mk, kept_sec, foldl_kept, State.answerFwd_kept, State.noteFwd_kept, completeFwd_kept]
@[simp] theorem State.dropFwd_kept (s : State) (src : CmdSrc) (seq : Nat) : (State.dropFwd s src seq).kept = s.kept := by
  rfl
@[simp] theorem State.stopRuns_kept (s : State) : (State.stopRuns s).kept = s.kept := by
  unfold State.stopRuns
  have h1 : ∀ (l : List TestRun) (s : State), (l.foldl (fun s r => s.endTest r) s).kept = s.kept := fun l s => foldl_kept _ _ _ (by simp)
  have h2 : ∀ (l : List Dist) (s : State), (l.foldl (fun s d =>
    let t := s.distDrop d.id
    match d.cmd with
    | .htStep _ _ => let u := t.distTell d (.withdraw d.id)
                     if d.ownOk then u.distUndo false d.cmd d.undo else u
    | _ => t) s).kept = s.kept := fun l s => foldl_kept _ _ _ (by
      intro s d; dsimp only; split
      · split <;> simp
      · simp)
  dsimp only at h1 h2 ⊢
  have h3 : ∀ (s : State), (match s.tdc.cal with | some c => s.endCal c | none => s).kept = s.kept := fun s => by split <;> simp
  have h4 : ∀ (s : State), (match s.tsrc.plumb with
    | some r => if r.src.isSome then (s.plumbDrop).send r.args.port (.plumb (.plumbEnd none)) else s
    | none => s).kept = s.kept := fun s => by
      split
      · split <;> simp
      · rfl
  rw [kept_mk, kept_sec, State.endJournalRuns_kept]
  exact (h4 _).trans ((h3 _).trans ((h1 _ _).trans (h2 _ _)))
@[simp] theorem State.abortRunning_kept (s : State) (keep : Option Nat) : (State.abortRunning s keep).kept = s.kept := by
  simp [State.abortRunning, kept_mk, kept_sec, foldl_kept]
@[simp] theorem State.beginRestart_kept (s : State) : (State.beginRestart s).kept = s.kept := by
  rfl
@[simp] theorem State.fallBack_kept (s : State) : (State.fallBack s).kept = s.kept := by
  rfl
@[simp] theorem State.trialRestart_kept (s : State) : (State.trialRestart s).kept = s.kept := by
  simp [State.trialRestart, kept_mk, kept_sec, foldl_kept]
@[simp] theorem State.faultRestart_kept (s : State) (event : Nat) : (State.faultRestart s event).kept = s.kept := by
  simp [State.faultRestart, kept_mk, kept_sec, foldl_kept]
@[simp] theorem State.runFw_kept (s : State) (i : Image) : (State.runFw s i).kept = s.kept := by
  rfl
@[simp] theorem State.enterRecovery_kept (s : State) : (State.enterRecovery s).kept = s.kept := by
  simp [State.enterRecovery, kept_mk, kept_sec, foldl_kept]
@[simp] theorem State.restarted_kept (s : State) : (State.restarted s).kept = s.kept := by
  simp [State.restarted, kept_mk, kept_sec, foldl_kept]
@[simp] theorem State.putImage_kept (s : State) (kind slot : Nat) (i : Option Image) : (State.putImage s kind slot i).kept = s.kept := by
  simp [State.putImage, kept_mk, kept_sec, foldl_kept]
@[simp] theorem State.flipFw_kept (s : State) (a : Activation) : (State.flipFw s a).kept = s.kept := by
  rfl
@[simp] theorem State.activateCfg_kept (s : State) (a : Activation) : (State.activateCfg s a).kept = s.kept := by
  simp only [State.activateCfg]; grind [kept_mk, kept_sec, foldl_kept, State.act_kept, complete_kept]

/-! ## Machine/Boot.lean -/

@[simp] theorem State.runCfg_kept (s : State) (i : Image) : (State.runCfg s i).kept = s.kept := by
  rfl
@[simp] theorem State.eraseList_kept (s : State) : (State.eraseList s).kept = s.kept := by
  simp [State.eraseList, kept_mk, kept_sec, foldl_kept]
@[simp] theorem State.restore_kept (s0 : State) : (State.restore s0).kept = s0.kept := by
  simp [State.restore, kept_mk, kept_sec, foldl_kept]
@[simp] theorem State.settleUnits_kept (s : State) : (State.settleUnits s).kept = s.kept := by
  simp [State.settleUnits, kept_mk, kept_sec, foldl_kept]
@[simp] theorem State.resumeSeq_kept (s : State) : (State.resumeSeq s).kept = s.kept := by
  rfl

/-! ## Machine/Regs.lean -/

@[simp] theorem State.putA_kept (s : State) (r : Reg) (v : Word) : (State.putA s r v).kept = s.kept := by
  simp only [State.putA]; grind [kept_mk, kept_sec, foldl_kept, State.hist_kept, State.modPort_kept, State.modSlot_kept, State.modTdc_kept]
@[simp] theorem State.putB_kept (s : State) (r : Reg) (v : Word) : (State.putB s r v).kept = s.kept := by
  simp only [State.putB]; grind [kept_mk, kept_sec, foldl_kept, State.modFrame_kept, State.modPo_kept, State.modQueue_kept, State.realign_kept]

/-! ## Machine/Tick.lean -/

@[simp] theorem State.advance_kept (s : State) : (State.advance s).kept = s.kept := by
  rfl
@[simp] theorem State.syncTick_kept (s : State) : (State.syncTick s).kept = s.kept := by
  rfl
@[simp] theorem State.shapeTick_kept (s : State) : (State.shapeTick s).kept = s.kept := by
  simp [State.shapeTick, kept_mk, kept_sec, foldl_kept]
@[simp] theorem State.dpllTick_kept (s : State) : (State.dpllTick s).kept = s.kept := by
  simp [State.dpllTick, kept_mk, kept_sec, foldl_kept]
@[simp] theorem State.flashTick_kept (s : State) : (State.flashTick s).kept = s.kept := by
  simp [State.flashTick, kept_mk, kept_sec, foldl_kept]
@[simp] theorem State.chunkTick_kept (s : State) : (State.chunkTick s).kept = s.kept := by
  simp [State.chunkTick, kept_mk, kept_sec, foldl_kept]
@[simp] theorem State.tallyTick_kept (s : State) : (State.tallyTick s).kept = s.kept := by
  simp [State.tallyTick, kept_mk, kept_sec, foldl_kept]

end Sys2Proof.Machine
end

