-- ==== Sys2Proof/Laws/Good.lean ====
section
/-! SUPPORT. What every command keeps: it answers a next state with the parameters and the queue of the state before, an answer of the
register interface that is well formed, and no key in an unlocked block; and, but for a power-on reset, an unlocked block stays unlocked.
First the relation and its lemmas, then the shared operations, then one lemma for each command, and one for the tick. -/

set_option linter.all false

namespace Sys2Proof.Machine
open Sys2Proof

/-- What every command keeps: the parameters, the queue, a well-formed response, and no key in an unlocked block. -/
def Weak (s t : State) : Prop := t.params = s.params ∧ t.pending = s.pending ∧ (t.rg = s.rg ∨ t.RgOk) ∧ (s.KeyOk → t.KeyOk)
/-- What every command but a power-on reset keeps: also that an unlocked block stays unlocked. -/
def Good (s t : State) : Prop := Weak s t ∧ (s.sec.unlocked = true → t.sec.unlocked = true)
/-- The outcome is a next state that keeps all of it. -/
def GoodOut (s : State) (o : Out) : Prop := ∃ t, o = .next t ∧ Good s t
/-- The state that the body of a command leaves. -/
def CmdRes.state : CmdRes → State
  | .done t _ _ => t
  | .wait t => t
/-- The parts of a state that operations below the commands leave alone. -/
abbrev Keep := Params × List Instr × RgResp × Bool × Bool × Bool × Nat
theorem good_kept {s t : State} (h : t.kept = s.kept) : Good s t := by
  simp only [State.kept, Prod.mk.injEq] at h
  obtain ⟨a, b, c, d, e, f, g⟩ := h
  exact ⟨⟨a, b, .inl c, by simp only [State.KeyOk, d, e, f, g]; exact id⟩, by rw [d]; exact id⟩
theorem Good.kept_right {s t u : State} (g : Good s t) (h : u.kept = t.kept) : Good s u := by
  simp only [State.kept, Prod.mk.injEq] at h
  obtain ⟨a, b, c, d, e, f, k⟩ := h
  obtain ⟨⟨a', b', c', d'⟩, e'⟩ := g
  refine ⟨⟨a.trans a', b.trans b', ?_, ?_⟩, by rw [d]; exact e'⟩
  · simp only [State.RgOk, c] at c' ⊢; exact c'
  · simp only [State.KeyOk, d, e, f, k] at d' ⊢; exact d'
theorem Good.kept_left {s t u : State} (h : t.kept = s.kept) (g : Good t u) : Good s u := by
  simp only [State.kept, Prod.mk.injEq] at h
  obtain ⟨a, b, c, d, e, f, k⟩ := h
  obtain ⟨⟨a', b', c', d'⟩, e'⟩ := g
  refine ⟨⟨a'.trans a, b'.trans b, c'.imp (fun x => x.trans c) id, ?_⟩, by rw [← d]; exact e'⟩
  simp only [State.KeyOk, d, e, f, k] at d' ⊢; exact d'
theorem good_next {s t : State} (h : t.kept = s.kept) : GoodOut s (.next t) := ⟨t, rfl, good_kept h⟩
theorem good_answer {s t : State} (v : Word) (e : Bool) (he : e = true → v = 0) (h : t.kept = s.kept) : GoodOut s (.next (t.answer v e)) := by
  obtain ⟨⟨a, b, _, d⟩, k⟩ := good_kept h
  exact ⟨_, rfl, ⟨a, b, .inr he, d⟩, k⟩
theorem good_ans {s t : State} (v : Word) (h : t.kept = s.kept) : GoodOut s (.next (t.answer v false)) := good_answer v false nofun h
theorem good_err {s t : State} (b : Bool) (h : t.kept = s.kept) : GoodOut s (.next (t.answer 0 b)) := good_answer 0 b (fun _ => rfl) h
theorem failed_kept {α : Type} {s t : State} {c : St} {r : FabRead α} (e : readFailed s r = some (t, c)) : t.kept = s.kept := by
  cases r <;> simp [readFailed] at e <;> (rw [← e.1]; rfl)
theorem guarded_good {s : State} {r : CmdRes} (g : Option (Nat × Nat)) (b : Good s r.state) : Good s (r.guarded s g).state := by
  have h : ∀ x, (guardTrip s x).state.kept = s.kept := fun x => by simp [guardTrip, CmdRes.state, kept_mk, kept_sec]
  cases g with
  | none => exact b
  | some x =>
    cases r with
    | done t c o =>
      simp only [CmdRes.guarded]
      split
      · exact good_kept (h x)
      · exact b
    | wait t => exact good_kept (h x)
theorem settled_good (i : CmdInfo) (h : CmdHdr) {s : State} {r : CmdRes} (b : Good s r.state) : Good s (r.settled i h s).state := by
  cases r with
  | done t c o =>
    simp only [CmdRes.settled]
    split
    · exact good_kept rfl
    · split
      · exact Good.kept_right b rfl
      · exact b
  | wait t => exact b
theorem good_runG {i : CmdInfo} {h : CmdHdr} {s : State} {body : State → CmdRes} (b : Good s (body s).state) : GoodOut s (runCmd i h s body) := by
  unfold runCmd
  split
  · exact good_next (by simp)
  · split
    · rename_i e
      exact good_next ((complete_kept ..).trans (failed_kept e))
    · split
      · exact good_next (by simp)
      · exact good_next (by simp)
      · exact good_next (by simp)
      · have k := settled_good i h (guarded_good h.guard b)
        split
        · rename_i e
          rw [e] at k
          exact ⟨_, rfl, Good.kept_right k (by simp [CmdRes.state])⟩
        · rename_i e
          rw [e] at k
          exact ⟨_, rfl, k⟩
theorem good_run {i : CmdInfo} {h : CmdHdr} {s : State} {body : State → CmdRes} (b : (body s).state.kept = s.kept) : GoodOut s (runCmd i h s body) :=
  good_runG (good_kept b)
theorem good_readG {α : Type} {i : CmdInfo} {h : CmdHdr} {s : State} {r : FabRead α} {body : State → CmdRes} (b : Good s (body s).state) : GoodOut s (runRead i h s r body) :=
  good_runG b
theorem good_read {α : Type} {i : CmdInfo} {h : CmdHdr} {s : State} {r : FabRead α} {body : State → CmdRes} (b : (body s).state.kept = s.kept) : GoodOut s (runRead i h s r body) :=
  good_runG (good_kept b)
theorem kept_answer (t : State) (v : Word) (e : Bool) : (t.answer v e).kept = (t.kept.1, t.kept.2.1, { rdata := v, err := e }, t.kept.2.2.2) := rfl
theorem good_any {s u : State} (h : u.kept.1 = s.kept.1 ∧ u.kept.2.1 = s.kept.2.1 ∧ (u.kept.2.2.1 = s.kept.2.2.1 ∨ (u.kept.2.2.1.err = true → u.kept.2.2.1.rdata = 0)) ∧ u.kept.2.2.2 = s.kept.2.2.2) : GoodOut s (.next u) := by
  obtain ⟨a, b, c, d⟩ := h
  simp only [State.kept, Prod.mk.injEq] at d
  obtain ⟨d, e, f, g⟩ := d
  exact ⟨u, rfl, ⟨a, b, c, by simp only [State.KeyOk, d, e, f, g]; exact id⟩, by rw [d]; exact id⟩
theorem good_ite {c : Prop} [Decidable c] {s : State} {a b : Out} (h1 : GoodOut s a) (h2 : GoodOut s b) : GoodOut s (if c then a else b) := by split <;> assumption
@[simp] theorem state_done (t : State) (c : St) (l : List Byte) : (CmdRes.done t c l).state = t := rfl
@[simp] theorem state_wait (t : State) : (CmdRes.wait t).state = t := rfl
@[simp] theorem state_err (t : State) (c : St) : (CmdRes.err t c).state = t := rfl
@[simp] theorem state_ok (t : State) (l : List Byte) : (CmdRes.ok t l).state = t := rfl
theorem kept_state_ite (c : Prop) [Decidable c] (a b : CmdRes) (k : Keep) (h1 : a.state.kept = k) (h2 : b.state.kept = k) : (if c then a else b).state.kept = k := by split <;> assumption
theorem withRead_kept {α : Type} (s : State) (r : FabRead α) (k : α → CmdRes) (h : ∀ v, (k v).state.kept = s.kept) : (withRead s r k).state.kept = s.kept := by
  cases r with
  | ok v => exact h v
  | poison => rfl
  | err => rfl


@[simp] theorem State.enterRecovery_kept' (s : State) : s.enterRecovery.kept = s.kept := by simp [State.enterRecovery, kept_mk, kept_sec, foldl_kept]
theorem State.loadFw_kept {s t : State} {n : Nat} (h : s.loadFw n = some t) : t.kept = s.kept := by
  unfold State.loadFw at h
  (repeat' split at h) <;> first | cases h; done | (cases h; simp)
theorem State.loadCfg_kept {s t : State} (h : s.loadCfg = some t) : t.kept = s.kept := by
  unfold State.loadCfg at h
  dsimp only at h
  (repeat' split at h) <;> first | cases h; done | (cases h; simp [kept_mk, kept_sec])
@[simp] theorem State.control_kept (s : State) (p : Nat) (c : CtlBody) : (s.control p c).kept = s.kept := by
  cases c <;> simp only [State.control] <;> (repeat' split) <;> simp [kept_mk, kept_sec, foldl_kept]
theorem kept_ite' {c : Prop} [Decidable c] {a b : State} {k : Keep} (h1 : a.kept = k) (h2 : b.kept = k) : (if c then a else b).kept = k := by split <;> assumption
theorem kept_opt {α : Type} (x : Option α) (f : α → State) (d : State) {k : Keep} (h1 : ∀ a, (f a).kept = k) (h2 : d.kept = k) :
    (match x with | some a => f a | none => d).kept = k := by cases x; exact h2; exact h1 _
theorem kept_match3 (n : Nat) (a b c : CmdRes) (k : Keep) (ha : a.state.kept = k) (hb : b.state.kept = k) (hc : c.state.kept = k) :
    (match n with | 0 => a | 1 => b | _ => c).state.kept = k := by
  split <;> assumption
@[simp] theorem State.cfgOutput_kept (s : State) (n : Nat) (a : PulseArgs) : (s.cfgOutput n a).state.kept = s.kept := by
  unfold State.cfgOutput
  refine kept_state_ite _ _ _ _ (by simp) (kept_state_ite _ _ _ _ (by simp) (kept_state_ite _ _ _ _ (by simp) (kept_state_ite _ _ _ _ (by simp) (kept_state_ite _ _ _ _ (by simp) (kept_state_ite _ _ _ _ (by simp) ?_)))))
  refine kept_match3 _ _ _ _ _ (by simp) (kept_state_ite _ _ _ _ ?_ (kept_state_ite _ _ _ _ (by simp) (by simp))) (by simp)
  exact kept_state_ite _ _ _ _ (kept_state_ite _ _ _ _ (by simp) (by simp)) (by simp)
@[simp] theorem State.cfgChannel_kept (s : State) (n : Nat) (a : PulseArgs) : (s.cfgChannel n a).state.kept = s.kept := by
  unfold State.cfgChannel
  refine kept_state_ite _ _ _ _ (by simp) (kept_state_ite _ _ _ _ (by simp) (kept_state_ite _ _ _ _ (by simp) (kept_state_ite _ _ _ _ (by simp) ?_)))
  exact kept_match3 _ _ _ _ _ (by simp) (kept_state_ite _ _ _ _ (by simp) (kept_state_ite _ _ _ _ (by simp) (by simp))) (by simp)
theorem windowWrite_good (c vid : Nat) (s : State) (b : Bool) (f : State → State × St) (h : (f s).1.kept = s.kept) : GoodOut s (.next (windowWrite c vid s b f)) := by
  unfold windowWrite
  split
  · exact good_err _ (by simp)
  · split
    · exact good_err _ (by simp)
    · split
      · exact good_err _ (by simp)
      · split <;> rename_i e <;> rw [e] at h <;> exact good_err _ h
theorem windowFail_good (s : State) (c vid : Nat) (k : St) : GoodOut s (.next (s.windowFail c vid k)) := good_err _ (by simp)
theorem syncBody_kept (h : CmdHdr) (s : State) (k : State → CmdRes) (e : (k s).state.kept = s.kept) : (syncBody h s k).state.kept = s.kept := by
  unfold syncBody
  exact kept_state_ite _ _ _ _ (by simp) e
@[simp] theorem writeFailed_kept (s : State) (n : Nat) (o : Nat → List Byte) : (writeFailed s n o).state.kept = s.kept := by simp [writeFailed, kept_mk, kept_sec]
theorem State.retireOne_kept {s t : State} {p : Nat} {l : List Nat} {f : Nat → Bool} (h : s.retireOne p l f = some t) : t.kept = s.kept := by
  unfold State.retireOne at h
  dsimp only at h
  (repeat' split at h) <;> first | cases h; done | (cases h; simp [kept_mk, kept_sec, foldl_kept])
@[simp] theorem State.retireMany_kept (l bad : List Nat) (f : Nat → Bool) (s : State) : (s.retireMany bad f l).1.kept = s.kept := by
  induction l generalizing s with
  | nil => simp [State.retireMany]
  | cons a l ih =>
    unfold State.retireMany
    split
    · rename_i e
      rw [ih, State.retireOne_kept e]
    · rfl
@[simp] theorem State.localPlan_kept (s : State) (d : BitVec 512) (w : Nat) : (s.localPlan d w).state.kept = s.kept := by
  unfold State.localPlan
  split
  · simp
  · split
    · simp
    · rename_i e
      simp [State.leafTake_kept e]
@[simp] theorem State.putC_kept (s : State) (r : Reg) (v : Word) : (s.putC r v).kept = s.kept := by
  unfold State.putC
  split <;> simp [kept_mk, kept_sec]
theorem good_of_kept {s s' : State} {o : Out} (h : s'.kept = s.kept) (g : GoodOut s' o) : GoodOut s o := by
  obtain ⟨t, e, g⟩ := g
  exact ⟨t, e, Good.kept_left h g⟩
theorem afterReset_good (s : State) : Good s s.afterReset :=
  ⟨⟨rfl, rfl, .inr (by simp [State.RgOk, State.afterReset, State.resetOf]), fun k u => ⟨(k u).1, rfl, rfl⟩⟩, id⟩
theorem formKeys_good (s : State) (b : Bool) : Good s (s.formKeys b) := by
  unfold State.formKeys
  dsimp only
  split
  · split
    · rename_i x
      simp only [Bool.and_eq_true] at x
      exact ⟨⟨rfl, rfl, .inl rfl, fun k u => absurd x.2 (by simp [(k u).1])⟩, id⟩
    · exact good_kept (by simp [kept_mk, kept_sec])
  · exact good_kept (by simp [kept_mk, kept_sec])
theorem unlock_good (s : State) (keep : Option Nat) : Good s (s.unlock keep) := by
  unfold State.unlock
  extract_lets s1 s2 sy s3 pr se sc s4
  have k3 : s3.kept = s.kept := by simp [s3, sy, s2, s1, kept_mk, kept_sec, foldl_kept]
  clear_value s3
  have k4 : Good s3 s4 := ⟨⟨rfl, rfl, .inl rfl, fun _ _ => ⟨rfl, rfl, rfl⟩⟩, fun _ => rfl⟩
  exact Good.kept_left k3 (Good.kept_right k4 (by simp [foldl_kept]))
theorem withRead_good {α : Type} (s : State) (r : FabRead α) (k : α → CmdRes) (h : ∀ v, Good s (k v).state) : Good s (withRead s r k).state := by
  cases r with
  | ok v => exact h v
  | poison => exact good_kept rfl
  | err => exact good_kept rfl
theorem selfReset_good (s : State) : GoodOut s (.next s.selfReset) := by
  have kr : ((s.record { event := 0x0930 }).storeRecords (s.record { event := 0x0930 }).flt.buf.length).kept = s.kept := by simp
  generalize e : (s.record { event := 0x0930 }).storeRecords (s.record { event := 0x0930 }).flt.buf.length = t at kr
  refine ⟨_, rfl, Good.kept_left kr ?_⟩
  simp only [State.selfReset, e]
  exact Good.kept_right (afterReset_good t) rfl
theorem thenDo_good {s : State} {o : Out} {f : State → Out} (h : GoodOut s o) (g : ∀ t, GoodOut t (f t)) : GoodOut s (thenDo o f) := by
  obtain ⟨t, rfl, ⟨a, b, c, d⟩, e⟩ := h
  obtain ⟨u, ue, ⟨a', b', c', d'⟩, e'⟩ := g t
  have : thenDo (.next t) f = f t := rfl
  rw [this]
  refine ⟨u, ue, ⟨a'.trans a, b'.trans b, ?_, fun x => d' (d x)⟩, fun x => e' (e x)⟩
  rcases c' with c' | c'
  · rw [c']
    exact c.imp id (fun x => by simpa [State.RgOk, c'] using x)
  · exact .inr c'
theorem received_good {s : State} {l : Link} {c : Nat} {k : State → Out} (h : ∀ t, GoodOut t (k t)) : GoodOut s (s.received l c k) := by
  have e := State.takeFlit_kept s l c
  unfold State.received
  split <;> rename_i u <;> rw [u] at e
  · exact good_of_kept e (h _)
  · exact good_next e
theorem receivedIf_good {s : State} {b : Bool} {l : Link} {c : Nat} {k : State → Out} (h : ∀ t, GoodOut t (k t)) : GoodOut s (s.receivedIf b l c k) :=
  received_good (fun t => good_ite (h t) (good_next rfl))
theorem State.hashItems_state (s : State) (f : List Byte) (r : CmdRes) (k : Keep) (h0 : s.kept = k) (h : r.state.kept = k) (l : List (Nat × FabRead (List Byte))) :
    (s.hashItems f r l).state.kept = k := by
  induction l with
  | nil => exact h
  | cons a l ih =>
    unfold State.hashItems
    subst h0
    refine withRead_kept _ _ _ fun g => kept_state_ite _ _ _ _ ih (by simp [kept_mk, kept_sec])
theorem assayRun_kept (s : State) (c : Nat) (f : FabRead (List Byte)) (l : List (Nat × FabRead (List Byte))) (k : State → Nat → CmdRes)
    (h : ∀ t d, t.kept = s.kept → (k t d).state.kept = s.kept) : (s.assayRun c f l k).state.kept = s.kept := by
  unfold State.assayRun
  refine kept_state_ite _ _ _ _ (by simp) ?_
  have e0 : ({ s with hm := { s.hm with assaySlot := c, assay := 3 } } : State).kept = s.kept := by simp [kept_mk, kept_sec]
  dsimp only
  generalize ({ s with hm := { s.hm with assaySlot := c, assay := 3 } } : State) = s0 at *
  rw [← e0]
  refine withRead_kept _ _ _ fun v => ?_
  split
  · rfl
  · refine kept_state_ite _ _ _ _ (by simp) (s0.hashItems_state _ _ _ rfl ?_ l)
    rw [h _ _ e0, e0]
theorem State.state_err_kept (s : State) (c : St) : (CmdRes.err s c).state.kept = s.kept := rfl
/-! ## The commands, in the order of the dispatch -/

theorem execBlockReset_good (s : State) : GoodOut s (execBlockReset s) := by
  exact ⟨_, rfl, afterReset_good s⟩
theorem execStartUp_good (pufOk : Bool) (journalOk : Bool) (badChannels : List Nat) (s : State) : GoodOut s (execStartUp pufOk journalOk badChannels s) := by
  unfold execStartUp
  dsimp only
  refine good_ite (good_next rfl) ?_
  obtain ⟨t, e1, g1⟩ : ∃ t, s.resumeSeq.formKeys pufOk = t ∧ Good s t := ⟨_, rfl, Good.kept_left (by simp) (formKeys_good _ _)⟩
  rw [e1]
  split
  · exact ⟨_, rfl, g1.kept_right (by simp)⟩
  · rename_i e
    have k := State.loadFw_kept e
    split
    · exact ⟨_, rfl, g1.kept_right (by simp [kept_mk, kept_sec, k])⟩
    · rename_i e2
      have k2 := State.loadCfg_kept e2
      refine good_ite ⟨_, rfl, g1.kept_right (by simp [kept_mk, kept_sec, k, k2])⟩ ⟨_, rfl, g1.kept_right ?_⟩
      split <;> simp [kept_mk, kept_sec, k, k2]
theorem execSoloStartTimeout_good (s : State) : GoodOut s (execSoloStartTimeout s) := by
  unfold execSoloStartTimeout
  (try dsimp only)
  repeat' (first | refine good_ite ?_ ?_ | split)
  all_goals exact good_next (by simp [kept_mk])
theorem execFwTrialClear_good (s : State) : GoodOut s (execFwTrialClear s) := by
  unfold execFwTrialClear
  (try dsimp only)
  repeat' (first | refine good_ite ?_ ?_ | split)
  all_goals exact good_next (by simp [kept_mk])
theorem execHtCheckpoint_good (s : State) : GoodOut s (execHtCheckpoint s) := by
  unfold execHtCheckpoint
  (try dsimp only)
  repeat' (first | refine good_ite ?_ ?_ | split)
  all_goals exact good_next (by simp )
theorem execSynLockFall_good (s : State) : GoodOut s (execSynLockFall s) := by
  exact good_next (by simp [kept_mk])
theorem execSynLockRestored_good (s : State) : GoodOut s (execSynLockRestored s) := by
  unfold execSynLockRestored
  (try dsimp only)
  repeat' (first | refine good_ite ?_ ?_ | split)
  all_goals exact good_next (by simp [kept_mk])
theorem execOcxoLoss_good (s : State) : GoodOut s (execOcxoLoss s) := by
  unfold execOcxoLoss
  (try dsimp only)
  repeat' (first | refine good_ite ?_ ?_ | split)
  all_goals exact good_next (by simp [kept_mk])
theorem execOcxoWarmChange_good (level : Bool) (s : State) : GoodOut s (execOcxoWarmChange level s) := by
  unfold execOcxoWarmChange
  (try dsimp only)
  repeat' (first | refine good_ite ?_ ?_ | split)
  all_goals exact good_next (by simp [kept_mk])
theorem execOcxoSettleExpiry_good (s : State) : GoodOut s (execOcxoSettleExpiry s) := by
  unfold execOcxoSettleExpiry
  (try dsimp only)
  repeat' (first | refine good_ite ?_ ?_ | split)
  all_goals exact good_next (by simp [kept_mk])
theorem execRefLoss_good (n : Nat) (s : State) : GoodOut s (execRefLoss n s) := by
  unfold execRefLoss
  (try dsimp only)
  repeat' (first | refine good_ite ?_ ?_ | split)
  all_goals exact good_next (by simp )
theorem execXsStatusMessage_good (bytes : List Byte) (s : State) : GoodOut s (execXsStatusMessage bytes s) := by
  unfold execXsStatusMessage
  (try dsimp only)
  repeat' (first | refine good_ite ?_ ?_ | split)
  all_goals exact good_next (by simp [kept_mk])
theorem execStatusMessageTimeout_good (s : State) : GoodOut s (execStatusMessageTimeout s) := by
  unfold execStatusMessageTimeout
  (try dsimp only)
  repeat' (first | refine good_ite ?_ ?_ | split)
  all_goals exact good_next (by simp )
theorem execQlTimeout_good (n : Nat) (s : State) : GoodOut s (execQlTimeout n s) := by
  unfold execQlTimeout
  (try dsimp only)
  repeat' (first | refine good_ite ?_ ?_ | split)
  all_goals exact good_next (by simp )
theorem execTempTimeout_good (s : State) : GoodOut s (execTempTimeout s) := by
  unfold execTempTimeout
  (try dsimp only)
  repeat' (first | refine good_ite ?_ ?_ | split)
  all_goals exact good_next (by simp [kept_mk])
theorem execWaitToRestoreExpiry_good (n : Nat) (s : State) : GoodOut s (execWaitToRestoreExpiry n s) := by
  unfold execWaitToRestoreExpiry
  (try dsimp only)
  repeat' (first | refine good_ite ?_ ?_ | split)
  all_goals exact good_next (by simp )
theorem execDisputeClear_good (n m : Nat) (s : State) : GoodOut s (execDisputeClear n m s) := by
  unfold execDisputeClear
  (try dsimp only)
  repeat' (first | refine good_ite ?_ ?_ | split)
  all_goals exact good_next (by simp [kept_mk])
theorem execLockCriteriaMet_good (s : State) : GoodOut s (execLockCriteriaMet s) := by
  unfold execLockCriteriaMet
  (try dsimp only)
  repeat' (first | refine good_ite ?_ ?_ | split)
  all_goals exact good_next (by simp )
theorem execUnlockCriteriaMet_good (s : State) : GoodOut s (execUnlockCriteriaMet s) := by
  unfold execUnlockCriteriaMet
  (try dsimp only)
  repeat' (first | refine good_ite ?_ ?_ | split)
  all_goals exact good_next (by simp )
theorem execLearningBinEnd_good (meanTemp : Rat) (s : State) : GoodOut s (execLearningBinEnd meanTemp s) := by
  unfold execLearningBinEnd
  (try dsimp only)
  repeat' (first | refine good_ite ?_ ?_ | split)
  all_goals exact good_next (by simp [kept_mk])
theorem execModelFlashWrite_good (s : State) : GoodOut s (execModelFlashWrite s) := by
  unfold execModelFlashWrite
  (try dsimp only)
  repeat' (first | refine good_ite ?_ ?_ | split)
  all_goals exact good_next (by simp [kept_mk])
theorem execHoldoverLimitExpiry_good (s : State) : GoodOut s (execHoldoverLimitExpiry s) := by
  unfold execHoldoverLimitExpiry
  (try dsimp only)
  repeat' (first | refine good_ite ?_ ?_ | split)
  all_goals exact good_next (by simp )
theorem execOpenLoopTimeout_good (s : State) : GoodOut s (execOpenLoopTimeout s) := by
  unfold execOpenLoopTimeout
  (try dsimp only)
  repeat' (first | refine good_ite ?_ ?_ | split)
  all_goals exact good_next (by simp [kept_mk])
theorem execCmdTaiMap_good (h : CmdHdr) (ofs : Int) (utc leap : Nat) (eff : HT) (s : State) : GoodOut s (execCmdTaiMap h ofs utc leap eff s) := by
  refine good_run ?_
  repeat' (first | refine kept_state_ite _ _ _ _ ?_ ?_ | split)
  all_goals simp 
theorem execTaiMapApply_good (s : State) : GoodOut s (execTaiMapApply s) := by
  unfold execTaiMapApply
  (try dsimp only)
  repeat' (first | refine good_ite ?_ ?_ | split)
  all_goals exact good_next (by simp )
theorem execTaiMapReceive_good (l : Link) (m : TaiMap) (s : State) : GoodOut s (execTaiMapReceive l m s) := by
  unfold execTaiMapReceive
  refine receivedIf_good (fun s => ?_)
  (try dsimp only)
  repeat' (first | refine good_ite ?_ ?_ | split)
  all_goals exact good_next (by simp )
theorem execCmdRefConfig_good (h : CmdHdr) (c : RefCfg) (s : State) : GoodOut s (execCmdRefConfig h c s) := by
  simp only [execCmdRefConfig]
  refine good_run ?_
  first
  | (simp [kept_mk, kept_sec]; done)
  | (repeat' split) <;> (first | (simp [kept_mk, kept_sec]; done) | (simp [kept_mk, kept_sec, foldl_kept]; done))
theorem execCmdRefReport_good (h : CmdHdr) (r : RefReport) (s : State) : GoodOut s (execCmdRefReport h r s) := by
  refine good_run ?_
  repeat' (first | refine kept_state_ite _ _ _ _ ?_ ?_ | split)
  all_goals simp [kept_mk]
theorem execCmdDpllMode_good (h : CmdHdr) (mode ref : Nat) (s : State) : GoodOut s (execCmdDpllMode h mode ref s) := by
  refine good_run ?_
  repeat' (first | refine kept_state_ite _ _ _ _ ?_ ?_ | split)
  all_goals simp 
theorem execCmdDpllFcw_good (h : CmdHdr) (fcw : Int) (status : Nat) (s : State) : GoodOut s (execCmdDpllFcw h fcw status s) := by
  refine good_run ?_
  repeat' (first | refine kept_state_ite _ _ _ _ ?_ ?_ | split)
  all_goals simp [kept_mk]
theorem execHoldoverModelRead_good (h : CmdHdr) (s : State) : GoodOut s (execHoldoverModelRead h s) := by
  refine good_run ?_
  simp 
theorem execHoldoverModelLoad_good (h : CmdHdr) (m : ModelData) (s : State) : GoodOut s (execHoldoverModelLoad h m s) := by
  refine good_run ?_
  repeat' (first | refine kept_state_ite _ _ _ _ ?_ ?_ | split)
  all_goals simp [kept_mk]
theorem execHoldoverModelClear_good (h : CmdHdr) (s : State) : GoodOut s (execHoldoverModelClear h s) := by
  refine good_run ?_
  repeat' (first | refine kept_state_ite _ _ _ _ ?_ ?_ | split)
  all_goals simp [kept_mk]
theorem execHoldoverModelFreeze_good (h : CmdHdr) (s : State) : GoodOut s (execHoldoverModelFreeze h s) := by
  refine good_run ?_
  simp [kept_mk]
theorem execHoldoverModelResume_good (h : CmdHdr) (s : State) : GoodOut s (execHoldoverModelResume h s) := by
  refine good_run ?_
  simp [kept_mk]
theorem execTdcEdgeAccept_good (ch : Nat) (rising : Bool) (held : Nat) (stamp : Nat) (s : State) : GoodOut s (execTdcEdgeAccept ch rising held stamp s) := by
  unfold execTdcEdgeAccept
  (try dsimp only)
  repeat' (first | refine good_ite ?_ ?_ | split)
  all_goals exact good_next (by simp )
theorem execHoldoffEnd_good (ch : Nat) (level : Bool) (s : State) : GoodOut s (execHoldoffEnd ch level s) := by
  unfold execHoldoffEnd
  (try dsimp only)
  repeat' (first | refine good_ite ?_ ?_ | split)
  all_goals exact good_next (by simp )
theorem execTdcGateEnd_good (ch : Nat) (s : State) : GoodOut s (execTdcGateEnd ch s) := by
  unfold execTdcGateEnd
  (try dsimp only)
  repeat' (first | refine good_ite ?_ ?_ | split)
  all_goals exact good_next (by simp )
theorem execTdcAnchorLatch_good (s : State) : GoodOut s (execTdcAnchorLatch s) := by
  unfold execTdcAnchorLatch
  (try dsimp only)
  repeat' (first | refine good_ite ?_ ?_ | split)
  all_goals (refine good_next ?_; grind [kept_mk, kept_sec, foldl_kept])
theorem execCmdTdcConfig_good (h : CmdHdr) (ch : Nat) (c : TdcCfg) (s : State) : GoodOut s (execCmdTdcConfig h ch c s) := by
  refine good_run ?_
  repeat' (first | refine kept_state_ite _ _ _ _ ?_ ?_ | split)
  all_goals simp 
theorem execCmdTdcCal_good (h : CmdHdr) (ch po : Nat) (path : CalPath) (count : Nat) (s : State) : GoodOut s (execCmdTdcCal h ch po path count s) := by
  refine good_run ?_
  repeat' (first | refine kept_state_ite _ _ _ _ ?_ ?_ | split)
  all_goals simp [kept_mk]
theorem execTdcCalComplete_good (s : State) : GoodOut s (execTdcCalComplete s) := by
  unfold execTdcCalComplete
  (try dsimp only)
  repeat' (first | refine good_ite ?_ ?_ | split)
  all_goals exact good_next (by simp )
theorem execPlumbMeasure_good (h : CmdHdr) (a : PlumbArgs) (s : State) : GoodOut s (execPlumbMeasure h a s) := by
  refine good_run ?_
  repeat' (first | refine kept_state_ite _ _ _ _ ?_ ?_ | split)
  all_goals simp 
theorem execPlumbComplete_good (s : State) : GoodOut s (execPlumbComplete s) := by
  unfold execPlumbComplete
  (try dsimp only)
  repeat' (first | refine good_ite ?_ ?_ | split)
  all_goals exact good_next (by simp [kept_mk])
theorem execPlumbLoad_good (h : CmdHdr) (port : Nat) (a : Int) (s : State) : GoodOut s (execPlumbLoad h port a s) := by
  refine good_run ?_
  repeat' (first | refine kept_state_ite _ _ _ _ ?_ ?_ | split)
  all_goals simp 
theorem execPlumbRead_good (h : CmdHdr) (port : Nat) (s : State) : GoodOut s (execPlumbRead h port s) := by
  refine good_run ?_
  repeat' (first | refine kept_state_ite _ _ _ _ ?_ ?_ | split)
  all_goals simp 
theorem execPlumbClearSuspect_good (h : CmdHdr) (port : Nat) (s : State) : GoodOut s (execPlumbClearSuspect h port s) := by
  refine good_run ?_
  repeat' (first | refine kept_state_ite _ _ _ _ ?_ ?_ | split)
  all_goals simp 
theorem execCmdTsrcConfig_good (h : CmdHdr) (mode slope recSlope : Nat) (s : State) : GoodOut s (execCmdTsrcConfig h mode slope recSlope s) := by
  refine good_run ?_
  repeat' (first | refine kept_state_ite _ _ _ _ ?_ ?_ | split)
  all_goals simp [kept_mk]
theorem execCmdHtStep_good (h : CmdHdr) (load : Bool) (value : Int) (eff : HT) (s : State) : GoodOut s (execCmdHtStep h load value eff s) := by
  refine good_run ?_
  repeat' (first | refine kept_state_ite _ _ _ _ ?_ ?_ | split)
  all_goals simp [kept_mk]
theorem execHtStepApply_good (s : State) : GoodOut s (execHtStepApply s) := by
  unfold execHtStepApply
  (try dsimp only)
  repeat' (first | refine good_ite ?_ ?_ | split)
  all_goals exact good_next (by simp )
theorem execHtStepArmingDeadline_good (s : State) : GoodOut s (execHtStepArmingDeadline s) := by
  unfold execHtStepArmingDeadline
  (try dsimp only)
  repeat' (first | refine good_ite ?_ ?_ | split)
  all_goals exact good_next (by simp )
theorem execPortBringUpStart_good (p : Nat) (s : State) : GoodOut s (execPortBringUpStart p s) := by
  unfold execPortBringUpStart
  (try dsimp only)
  repeat' (first | refine good_ite ?_ ?_ | split)
  all_goals exact good_next (by simp )
theorem execBringUpFlitReceive_good (p : Nat) (i : Ident) (s : State) : GoodOut s (execBringUpFlitReceive p i s) := by
  unfold execBringUpFlitReceive
  (try dsimp only)
  repeat' (first | refine good_ite ?_ ?_ | split)
  all_goals exact good_next (by simp [kept_mk])
theorem execKeyExchangeStart_good (p : Nat) (s : State) : GoodOut s (execKeyExchangeStart p s) := by
  unfold execKeyExchangeStart
  (try dsimp only)
  repeat' (first | refine good_ite ?_ ?_ | split)
  all_goals exact good_next (by simp [kept_mk])
theorem execKeyExchangeReceive_good (p : Nat) (x : Exchange) (peerPassed : Bool) (s : State) : GoodOut s (execKeyExchangeReceive p x peerPassed s) := by
  unfold execKeyExchangeReceive
  (try dsimp only)
  repeat' (first | refine good_ite ?_ ?_ | split)
  all_goals exact good_next (by simp [kept_mk])
theorem execPhyDown_good (p : Nat) (s : State) : GoodOut s (execPhyDown p s) := by
  unfold execPhyDown
  (try dsimp only)
  repeat' (first | refine good_ite ?_ ?_ | split)
  all_goals exact good_next (by simp )
theorem execTimingFlitSend_good (p k : Nat) (s : State) : GoodOut s (execTimingFlitSend p k s) := by
  unfold execTimingFlitSend
  (try dsimp only)
  repeat' (first | refine good_ite ?_ ?_ | split)
  all_goals exact good_next (by simp )
theorem execTimingFlitReceive_good (l : Link) (b : TimingBody) (sample n k : Nat) (s : State) : GoodOut s (execTimingFlitReceive l b sample n k s) := by
  unfold execTimingFlitReceive
  extract_lets p u o rx e s1 s2 o2 lost usable s3 fresh s4 ph s5 tc pr s6 s7
  refine good_ite (good_next rfl) (good_ite (good_next (by simp)) (good_ite (good_next (by simp)) ?_))
  have k0 : u.kept = s.kept := by simp [u]
  have k1 : s1.kept = s.kept := by simp [s1, k0]
  have k2 : s2.kept = s.kept := by
    rcases h : (if b.echoTx = 0 then none else o.sentTx.find? (fun x => x.1 == b.echoTx)) with _ | g <;> simp [s2, h, k1]
  have k3 : s3.kept = s.kept := by simp [s3, k2]
  have k4 : s4.kept = s.kept := by
    rcases Bool.eq_false_or_eq_true (usable && !u.time.valid && u.loadPort p b) with h | h <;> simp only [s4, h] <;> simp [k3]
  have k5 : s5.kept = s.kept := by
    rcases Bool.eq_false_or_eq_true (usable && u.time.valid) with h | h <;> simp only [s5, h] <;> simp [k4]
  have k6 : s6.kept = s.kept := by
    rcases Bool.eq_false_or_eq_true fresh with h | h <;> simp only [s6, h] <;> simp [kept_mk, kept_sec, tc, k5]
  have k7 : s7.kept = s.kept := by simp [s7, k6]
  refine good_ite ?_ (good_next (by simp [k7]))
  exact good_of_kept k7 (selfReset_good s7)
theorem execControlFlitReceive_good (l : Link) (slot gen : Nat) (body : CtlBody) (s : State) : GoodOut s (execControlFlitReceive l slot gen body s) := by
  unfold execControlFlitReceive
  split
  · exact good_next (by split <;> simp)
  · exact received_good (fun s => good_ite (good_next (by simp)) (good_next (by simp)))
theorem execCorruptFlitReceive_good (p : Nat) (raw : List Byte) (codewordOk tagOk : Bool) (corr : Nat) (s : State) : GoodOut s (execCorruptFlitReceive p raw codewordOk tagOk corr s) := by
  unfold execCorruptFlitReceive
  (try dsimp only)
  repeat' (first | refine good_ite ?_ ?_ | split)
  all_goals exact good_next (by simp )
theorem execPortNoFlitTimeout_good (p : Nat) (s : State) : GoodOut s (execPortNoFlitTimeout p s) := by
  unfold execPortNoFlitTimeout
  (try dsimp only)
  repeat' (first | refine good_ite ?_ ?_ | split)
  all_goals exact good_next (by simp )
theorem execPortTimingLoss_good (p : Nat) (s : State) : GoodOut s (execPortTimingLoss p s) := by
  unfold execPortTimingLoss
  (try dsimp only)
  repeat' (first | refine good_ite ?_ ?_ | split)
  all_goals exact good_next (by simp )
theorem execServoUpdate_good (s : State) : GoodOut s (execServoUpdate s) := by
  unfold execServoUpdate
  (try dsimp only)
  repeat' (first | refine good_ite ?_ ?_ | split)
  all_goals exact good_next (by simp [kept_mk])
theorem execRttEstimateUpdate_good (p : Nat) (s : State) : GoodOut s (execRttEstimateUpdate p s) := by
  unfold execRttEstimateUpdate
  (try dsimp only)
  repeat' (first | refine good_ite ?_ ?_ | split)
  all_goals exact good_next (by simp )
theorem execDocketPushWord_good (q w : Nat) (v : Word) (access : Nat) (s : State) : GoodOut s (execDocketPushWord q w v access s) := by
  unfold execDocketPushWord
  (try dsimp only)
  repeat' (first | refine good_ite ?_ ?_ | split)
  all_goals exact good_err _ (by simp )
theorem execDocketPushCommit_good (q : Nat) (v : Word) (access : Nat) (s : State) : GoodOut s (execDocketPushCommit q v access s) := by
  unfold execDocketPushCommit
  (try simp only [])
  repeat' (first | refine good_ite ?_ ?_ | split)
  all_goals (first | (refine good_any ?_; simp [kept_answer, kept_mk, kept_sec, foldl_kept]; done) | (refine good_err _ ?_; simp [kept_mk, kept_sec, foldl_kept]; done) | (refine good_ans _ ?_; simp [kept_mk, kept_sec, foldl_kept]; done) | (refine good_next ?_; first | (simp [kept_mk, kept_sec, foldl_kept]; done) | rfl | (grind [kept_mk, kept_sec, foldl_kept, State.dkHead_kept, State.dkReport_kept, State.modQueue_kept])))
theorem execDocketEntryReady_good (q : Nat) (s : State) : GoodOut s (execDocketEntryReady q s) := by
  unfold execDocketEntryReady
  (try dsimp only)
  repeat' (first | refine good_ite ?_ ?_ | split)
  all_goals exact good_next (by simp )
theorem execDocketStrike_good (q : Nat) (s : State) : GoodOut s (execDocketStrike q s) := by
  unfold execDocketStrike
  (try dsimp only)
  repeat' (first | refine good_ite ?_ ?_ | split)
  all_goals exact good_next (by simp )
theorem execDocketFlush_good (q access : Nat) (s : State) : GoodOut s (execDocketFlush q access s) := by
  unfold execDocketFlush
  (try dsimp only)
  repeat' (first | refine good_ite ?_ ?_ | split)
  all_goals exact good_err _ (by simp )
theorem execDocketResume_good (q access : Nat) (s : State) : GoodOut s (execDocketResume q access s) := by
  unfold execDocketResume
  (try dsimp only)
  repeat' (first | refine good_ite ?_ ?_ | split)
  all_goals exact good_err _ (by simp )
theorem execDocketBind_good (h : CmdHdr) (q : Nat) (o : Owner) (paired : Bool) (s : State) : GoodOut s (execDocketBind h q o paired s) := by
  refine good_run ?_
  repeat' (first | refine kept_state_ite _ _ _ _ ?_ ?_ | split)
  all_goals simp 
theorem execDocketLoad_good (h : CmdHdr) (q : Nat) (o : Owner) (entries : FabRead (List (BitVec 256))) (count : Nat) (replace : Bool) (s : State) : GoodOut s (execDocketLoad h q o entries count replace s) := by
  simp only [execDocketLoad]
  refine good_read ?_
  first
  | (simp [kept_mk, kept_sec]; done)
  | (repeat' (first | refine kept_state_ite _ _ _ _ ?_ ?_ | split)) <;> (first | (simp [kept_mk, kept_sec]; done) | (simp [kept_mk, kept_sec, foldl_kept]; done) | (refine withRead_kept _ _ _ fun v => ?_; (repeat' (first | refine kept_state_ite _ _ _ _ ?_ ?_ | split))) <;> (first | (simp [kept_mk, kept_sec]; done) | (simp [kept_mk, kept_sec, foldl_kept])))
theorem execDocketUnbind_good (h : CmdHdr) (q : Nat) (o : Owner) (s : State) : GoodOut s (execDocketUnbind h q o s) := by
  simp only [execDocketUnbind]
  refine good_run ?_
  first
  | (simp [kept_mk, kept_sec]; done)
  | (repeat' split) <;> (first | (simp [kept_mk, kept_sec]; done) | (simp [kept_mk, kept_sec, foldl_kept]; done))
theorem execFrameStrikeArm_good (c : Nat) (v : Word) (access : Nat) (s : State) : GoodOut s (execFrameStrikeArm c v access s) := by
  unfold execFrameStrikeArm
  (try simp only [])
  repeat' (first | refine good_ite ?_ ?_ | split)
  all_goals (first | (refine good_any ?_; simp [kept_answer, kept_mk, kept_sec, foldl_kept]; done) | (refine good_err _ ?_; simp [kept_mk, kept_sec, foldl_kept]; done) | (refine good_ans _ ?_; simp [kept_mk, kept_sec, foldl_kept]; done) | (refine good_next ?_; first | (simp [kept_mk, kept_sec, foldl_kept]; done) | rfl | (grind [kept_mk, kept_sec, foldl_kept, State.modFrame_kept])))
theorem execFrameDirectStrike_good (c : Nat) (s : State) : GoodOut s (execFrameDirectStrike c s) := by
  unfold execFrameDirectStrike
  (try dsimp only)
  repeat' (first | refine good_ite ?_ ?_ | split)
  all_goals exact good_next (by simp )
theorem execPulseEdge_good (n : Nat) (s : State) : GoodOut s (execPulseEdge n s) := by
  unfold execPulseEdge
  (try dsimp only)
  repeat' (first | refine good_ite ?_ ?_ | split)
  all_goals exact good_next (by simp )
theorem execPulseWidthEnd_good (n : Nat) (s : State) : GoodOut s (execPulseWidthEnd n s) := by
  unfold execPulseWidthEnd
  (try dsimp only)
  repeat' (first | refine good_ite ?_ ?_ | split)
  all_goals exact good_next (by simp )
theorem execCmdPulseConfig_good (h : CmdHdr) (a : PulseArgs) (s : State) : GoodOut s (execCmdPulseConfig h a s) := by
  refine good_run ?_
  split <;> simp
theorem execCmdPulseAlign_good (h : CmdHdr) (mask : Nat) (eff : HT) (s : State) : GoodOut s (execCmdPulseAlign h mask eff s) := by
  refine good_run ?_
  repeat' (first | refine kept_state_ite _ _ _ _ ?_ ?_ | split)
  all_goals simp [kept_mk, foldl_kept]
theorem execPulseAlignApply_good (n : Nat) (s : State) : GoodOut s (execPulseAlignApply n s) := by
  unfold execPulseAlignApply
  (try dsimp only)
  repeat' (first | refine good_ite ?_ ?_ | split)
  all_goals exact good_next (by simp )
theorem execSyncSet_good (ctx vid : Nat) (v : Word) (s : State) : GoodOut s (execSyncSet ctx vid v s) := by
  exact windowWrite_good _ _ _ _ _ (by simp)
theorem execSyncAdd_good (ctx vid : Nat) (v : Word) (s : State) : GoodOut s (execSyncAdd ctx vid v s) := by
  refine windowWrite_good _ _ _ _ _ ?_
  split <;> simp
theorem execSyncSubtract_good (ctx vid : Nat) (v : Word) (s : State) : GoodOut s (execSyncSubtract ctx vid v s) := by
  refine windowWrite_good _ _ _ _ _ ?_
  split <;> simp
theorem execSyncReadIncrement_good (page ctx vid : Nat) (s : State) : GoodOut s (execSyncReadIncrement page ctx vid s) := by
  unfold execSyncReadIncrement
  dsimp only
  refine good_ite (good_err _ (by simp)) ?_
  split
  · exact windowFail_good _ _ _ _
  · refine good_ite (good_ans _ (by simp)) ?_
    have k := State.addWord_kept s ctx vid 1 0
    split <;> rename_i e <;> rw [e] at k
    · exact good_ans _ k
    · exact good_err _ k
theorem execSyncUpdateApply_good (phys : Nat) (s : State) : GoodOut s (execSyncUpdateApply phys s) := by
  unfold execSyncUpdateApply
  (try dsimp only)
  repeat' (first | refine good_ite ?_ ?_ | split)
  all_goals exact good_next (by simp [kept_mk])
theorem execWaitRequest_good (r : WaitReq) (s : State) : GoodOut s (execWaitRequest r s) := by
  unfold execWaitRequest
  (try dsimp only)
  repeat' (first | refine good_ite ?_ ?_ | split)
  all_goals exact good_next (by simp )
theorem execWaitTimeout_good (w : Nat) (s : State) : GoodOut s (execWaitTimeout w s) := by
  unfold execWaitTimeout
  (try dsimp only)
  repeat' (first | refine good_ite ?_ ?_ | split)
  all_goals exact good_next (by simp )
theorem execWaitCancel_good (w access : Nat) (s : State) : GoodOut s (execWaitCancel w access s) := by
  unfold execWaitCancel
  (try dsimp only)
  repeat' (first | refine good_ite ?_ ?_ | split)
  all_goals exact good_err _ (by simp )
theorem execSyncMap_good (h : CmdHdr) (first count : Nat) (counter saturate : Bool) (s : State) : GoodOut s (execSyncMap h first count counter saturate s) := by
  refine good_run ?_
  repeat' (first | refine kept_state_ite _ _ _ _ ?_ ?_ | split)
  all_goals simp [kept_mk, foldl_kept]
theorem execSyncUnmap_good (h : CmdHdr) (first count : Nat) (s : State) : GoodOut s (execSyncUnmap h first count s) := by
  simp only [execSyncUnmap]
  refine good_run (syncBody_kept _ _ _ ?_)
  refine kept_state_ite _ _ _ _ (by simp) ?_
  simp [foldl_kept]
theorem execSyncMapRead_good (h : CmdHdr) (first count : Nat) (s : State) : GoodOut s (execSyncMapRead h first count s) := by
  refine good_run ?_
  repeat' (first | refine kept_state_ite _ _ _ _ ?_ ?_ | split)
  all_goals simp 
theorem execSyncSetMode_good (h : CmdHdr) (first count : Nat) (counter saturate : Bool) (s : State) : GoodOut s (execSyncSetMode h first count counter saturate s) := by
  refine good_run ?_
  repeat' (first | refine kept_state_ite _ _ _ _ ?_ ?_ | split)
  all_goals simp [kept_mk, foldl_kept]
theorem execSyncPairDefine_good (h : CmdHdr) (producer consumer n : Nat) (s : State) : GoodOut s (execSyncPairDefine h producer consumer n s) := by
  simp only [execSyncPairDefine]
  refine good_run (syncBody_kept _ _ _ ?_)
  refine kept_state_ite _ _ _ _ (by simp) ?_
  simp [foldl_kept]
theorem execSyncPairDelete_good (h : CmdHdr) (producer consumer : Nat) (s : State) : GoodOut s (execSyncPairDelete h producer consumer s) := by
  refine good_run ?_
  repeat' (first | refine kept_state_ite _ _ _ _ ?_ ?_ | split)
  all_goals simp 
theorem execContextClear_good (slot : Nat) (s : State) : GoodOut s (execContextClear slot s) := by
  unfold execContextClear
  (try dsimp only)
  repeat' (first | refine good_ite ?_ ?_ | split)
  all_goals exact good_next (by simp )
theorem execContextClearComplete_good (slot : Nat) (s : State) : GoodOut s (execContextClearComplete slot s) := by
  unfold execContextClearComplete
  (try dsimp only)
  repeat' (first | refine good_ite ?_ ?_ | split)
  all_goals exact good_next (by simp )
theorem execPaneClearAfterTeardown_good (tile pane : Nat) (s : State) : GoodOut s (execPaneClearAfterTeardown tile pane s) := by
  unfold execPaneClearAfterTeardown
  (try dsimp only)
  repeat' (first | refine good_ite ?_ ?_ | split)
  all_goals exact good_next (by simp )
theorem execSlotResetComplete_good (slot : Nat) (s : State) : GoodOut s (execSlotResetComplete slot s) := by
  unfold execSlotResetComplete
  (try dsimp only)
  repeat' (first | refine good_ite ?_ ?_ | split)
  all_goals exact good_next (by simp )
theorem execCmdBarrierDefine_good (h : CmdHdr) (d : BarrierDef) (s : State) : GoodOut s (execCmdBarrierDefine h d s) := by
  refine good_run ?_
  repeat' (first | refine kept_state_ite _ _ _ _ ?_ ?_ | split)
  all_goals simp 
theorem execCmdBarrierDelete_good (h : CmdHdr) (id : Nat) (s : State) : GoodOut s (execCmdBarrierDelete h id s) := by
  refine good_run ?_
  repeat' (first | refine kept_state_ite _ _ _ _ ?_ ?_ | split)
  all_goals simp 
theorem execBarrierArrivalReceive_good (l : Link) (slot gen id inst : Nat) (pairD : Option Nat) (s : State) : GoodOut s (execBarrierArrivalReceive l slot gen id inst pairD s) := by
  unfold execBarrierArrivalReceive
  (first | refine receivedIf_good (fun s => ?_) | refine received_good (fun s => ?_))
  (try dsimp only)
  repeat' (first | refine good_ite ?_ ?_ | split)
  all_goals (refine good_next ?_; first | (simp [kept_mk, kept_sec, foldl_kept]; done) | grind [kept_mk, kept_sec, foldl_kept, State.completeInst_kept, State.countStale_kept, State.mirror_kept, State.setHbar_kept])
theorem execBarrierReleaseReceive_good (l : Link) (slot gen id inst : Nat) (strike : HT) (s : State) : GoodOut s (execBarrierReleaseReceive l slot gen id inst strike s) := by
  unfold execBarrierReleaseReceive
  (first | refine receivedIf_good (fun s => ?_) | refine received_good (fun s => ?_))
  (try dsimp only)
  repeat' (first | refine good_ite ?_ ?_ | split)
  all_goals (refine good_next ?_; first | (simp [kept_mk, kept_sec, foldl_kept]; done) | grind [kept_mk, kept_sec, foldl_kept, State.countStale_kept, State.hubRelease_kept, State.leafRelease_kept])
theorem execBarrierReleaseFire_good (s : State) : GoodOut s (execBarrierReleaseFire s) := by
  unfold execBarrierReleaseFire
  (try dsimp only)
  repeat' (first | refine good_ite ?_ ?_ | split)
  all_goals exact good_next (by simp [kept_mk, foldl_kept])
theorem execCollPlanOpen_good (h : CmdHdr) (addr : Nat) (desc : FabRead (BitVec 512)) (w : Nat) (s : State) : GoodOut s (execCollPlanOpen h addr desc w s) := by
  refine good_read (kept_state_ite _ _ _ _ (by simp) (withRead_kept _ _ _ fun v => ?_))
  refine kept_state_ite _ _ _ _ (by simp) (kept_state_ite _ _ _ _ (by simp) (kept_state_ite _ _ _ _ (by simp) (kept_state_ite _ _ _ _ ?_ (kept_state_ite _ _ _ _ (by simp) (by simp)))))
  exact kept_state_ite _ _ _ _ (by simp) (kept_state_ite _ _ _ _ (by simp) (by simp))
theorem execCollPlanClose_good (h : CmdHdr) (handle : Nat) (s : State) : GoodOut s (execCollPlanClose h handle s) := by
  refine good_run ?_
  repeat' (first | refine kept_state_ite _ _ _ _ ?_ ?_ | split)
  all_goals simp 
theorem execCmdCollBind_good (h : CmdHdr) (handle src : Nat) (s : State) : GoodOut s (execCmdCollBind h handle src s) := by
  refine good_run ?_
  repeat' (first | refine kept_state_ite _ _ _ _ ?_ ?_ | split)
  all_goals simp 
theorem execCollStart_good (ctx : Nat) (v : Word) (s : State) : GoodOut s (execCollStart ctx v s) := by
  unfold execCollStart
  (try simp only [])
  repeat' (first | refine good_ite ?_ ?_ | split)
  all_goals (first | (refine good_any ?_; simp [kept_answer, kept_mk, kept_sec, foldl_kept]; done) | (refine good_err _ ?_; simp [kept_mk, kept_sec, foldl_kept]; done) | (refine good_ans _ ?_; simp [kept_mk, kept_sec, foldl_kept]; done) | (refine good_next ?_; first | (simp [kept_mk, kept_sec, foldl_kept]; done) | rfl | (grind [kept_mk, kept_sec, foldl_kept, State.ctxIrq_kept, State.setLcoll_kept, State.startColl_kept])))
theorem execCollQuery_good (ctx : Nat) (v : Word) (s : State) : GoodOut s (execCollQuery ctx v s) := by
  unfold execCollQuery
  (try dsimp only)
  repeat' (first | refine good_ite ?_ ?_ | split)
  all_goals exact good_err _ (by simp [kept_mk])
theorem execChunkSend_good (slot handle chunk : Nat) (s : State) : GoodOut s (execChunkSend slot handle chunk s) := by
  unfold execChunkSend
  (try dsimp only)
  repeat' (first | refine good_ite ?_ ?_ | split)
  all_goals exact good_next (by simp )
theorem execContributionFlitReceive_good (l : Link) (k : ChunkKey) (d : CollData) (fail : Option TileCheck) (s : State) : GoodOut s (execContributionFlitReceive l k d fail s) := by
  unfold execContributionFlitReceive
  refine receivedIf_good (fun s => ?_)
  (try dsimp only)
  repeat' (first | refine good_ite ?_ ?_ | split)
  all_goals exact good_next (by simp )
theorem execChunkMap_good (k : ChunkKey) (s : State) : GoodOut s (execChunkMap k s) := by
  unfold execChunkMap
  (try dsimp only)
  repeat' (first | refine good_ite ?_ ?_ | split)
  all_goals exact good_next (by simp )
theorem execSpillReloadComplete_good (k : ChunkKey) (uncorrectable : Bool) (s : State) : GoodOut s (execSpillReloadComplete k uncorrectable s) := by
  unfold execSpillReloadComplete
  (try dsimp only)
  repeat' (first | refine good_ite ?_ ?_ | split)
  all_goals exact good_next (by simp [kept_mk])
theorem execContributionNoticeReceive_good (l : Link) (k : ChunkKey) (code : St) (s : State) : GoodOut s (execContributionNoticeReceive l k code s) := by
  unfold execContributionNoticeReceive
  refine receivedIf_good (fun s => ?_)
  (try dsimp only)
  repeat' (first | refine good_ite ?_ ?_ | split)
  all_goals exact good_next (by simp )
theorem execDrainComplete_good (k : ChunkKey) (fail : Option TileCheck) (s : State) : GoodOut s (execDrainComplete k fail s) := by
  unfold execDrainComplete
  (try dsimp only)
  repeat' (first | refine good_ite ?_ ?_ | split)
  all_goals exact good_next (by simp )
theorem execResultCopyReceive_good (l : Link) (r : ResultCopy) (s : State) : GoodOut s (execResultCopyReceive l r s) := by
  unfold execResultCopyReceive
  refine receivedIf_good (fun s => ?_)
  (try dsimp only)
  repeat' (first | refine good_ite ?_ ?_ | split)
  all_goals exact good_next (by simp [kept_mk])
theorem execResultCopyAck_good (l : Link) (k : ChunkKey) (s : State) : GoodOut s (execResultCopyAck l k s) := by
  unfold execResultCopyAck
  refine receivedIf_good (fun s => ?_)
  (try dsimp only)
  repeat' (first | refine good_ite ?_ ?_ | split)
  all_goals exact good_next (by simp )
theorem execReplayRequestReceive_good (l : Link) (k : ChunkKey) (attempt : Nat) (crcOk : Bool) (s : State) : GoodOut s (execReplayRequestReceive l k attempt crcOk s) := by
  unfold execReplayRequestReceive
  (first | refine receivedIf_good (fun s => ?_) | refine received_good (fun s => ?_))
  (try dsimp only)
  repeat' (first | refine good_ite ?_ ?_ | split)
  all_goals (refine good_next ?_; first | (simp [kept_mk, kept_sec, foldl_kept]; done) | grind [kept_mk, kept_sec, foldl_kept, State.countStale_kept, State.hubReplayRequest_kept, State.leafReplay_kept])
theorem execReplayMarkReceive_good (l : Link) (k : ChunkKey) (attempt : Nat) (s : State) : GoodOut s (execReplayMarkReceive l k attempt s) := by
  unfold execReplayMarkReceive
  refine receivedIf_good (fun s => ?_)
  (try dsimp only)
  repeat' (first | refine good_ite ?_ ?_ | split)
  all_goals exact good_next (by simp )
theorem execResultFlitReceive_good (l : Link) (k : ChunkKey) (d : CollData) (s : State) : GoodOut s (execResultFlitReceive l k d s) := by
  unfold execResultFlitReceive
  refine receivedIf_good (fun s => ?_)
  (try dsimp only)
  repeat' (first | refine good_ite ?_ ?_ | split)
  all_goals exact good_next (by simp [kept_mk, kept_sec, foldl_kept])
theorem execCommitMessageReceive_good (l : Link) (epoch : Nat) (m : CommitMsg) (s : State) : GoodOut s (execCommitMessageReceive l epoch m s) := by
  unfold execCommitMessageReceive
  refine receivedIf_good (fun s => ?_)
  (try dsimp only)
  repeat' (first | refine good_ite ?_ ?_ | split)
  all_goals exact good_next (by simp )
theorem execResultAckReceive_good (l : Link) (k0 : ChunkKey) (s : State) : GoodOut s (execResultAckReceive l k0 s) := by
  unfold execResultAckReceive
  refine receivedIf_good (fun s => ?_)
  (try dsimp only)
  repeat' (first | refine good_ite ?_ ?_ | split)
  all_goals exact good_next (by simp )
theorem execFabricReadResponse_good (k : ChunkKey) (ofs : Nat) (beat : Option (List Byte × Bool)) (fail : Option TileCheck) (s : State) : GoodOut s (execFabricReadResponse k ofs beat fail s) := by
  unfold execFabricReadResponse
  (try dsimp only)
  repeat' (first | refine good_ite ?_ ?_ | split)
  all_goals exact good_next (by simp [kept_mk])
theorem execFabricWriteResponse_good (k : ChunkKey) (err : Bool) (s : State) : GoodOut s (execFabricWriteResponse k err s) := by
  unfold execFabricWriteResponse
  (try dsimp only)
  repeat' (first | refine good_ite ?_ ?_ | split)
  all_goals exact good_next (by simp [kept_mk])
theorem execCmdClassConfig_good (h : CmdHdr) (pairId radioSlots radioTiles : Nat) (eff : HT) (s : State) : GoodOut s (execCmdClassConfig h pairId radioSlots radioTiles eff s) := by
  refine good_run ?_
  repeat' (first | refine kept_state_ite _ _ _ _ ?_ ?_ | split)
  all_goals simp [kept_mk]
theorem execRadioSlotsApply_good (s : State) : GoodOut s (execRadioSlotsApply s) := by
  unfold execRadioSlotsApply
  (try dsimp only)
  repeat' (first | refine good_ite ?_ ?_ | split)
  all_goals exact good_next (by simp [kept_mk])
theorem execRadioTilesApply_good (s : State) : GoodOut s (execRadioTilesApply s) := by
  unfold execRadioTilesApply
  (try dsimp only)
  repeat' (first | refine good_ite ?_ ?_ | split)
  all_goals exact good_next (by simp [kept_mk])
theorem execCmdCtxShape_good (h : CmdHdr) (weight rate burst : Nat) (full : Bool) (s : State) : GoodOut s (execCmdCtxShape h weight rate burst full s) := by
  refine good_run ?_
  repeat' (first | refine kept_state_ite _ _ _ _ ?_ ?_ | split)
  all_goals simp 
theorem execShaperEligible_good (slot : Nat) (s : State) : GoodOut s (execShaperEligible slot s) := by
  unfold execShaperEligible
  (try dsimp only)
  repeat' (first | refine good_ite ?_ ?_ | split)
  all_goals exact good_next (by simp [kept_mk, foldl_kept])
theorem execHallmarkBatchClose_good (s : State) : GoodOut s (execHallmarkBatchClose s) := by
  unfold execHallmarkBatchClose
  (try dsimp only)
  repeat' (first | refine good_ite ?_ ?_ | split)
  all_goals exact good_next (by simp )
theorem execCmdHallmarkRead_good (h : CmdHdr) (first count addr len : Nat) (bad : Option Nat) (wrErr : Bool) (s : State) : GoodOut s (execCmdHallmarkRead h first count addr len bad wrErr s) := by
  refine good_run ?_
  dsimp only
  repeat' (first | refine kept_state_ite _ _ _ _ ?_ ?_ | split)
  all_goals simp
  all_goals (first | done | (split <;> simp))
theorem execManifestRegister_good (h : CmdHdr) (label : Nat) (file : FabRead (List Byte)) (items : List (Nat × FabRead (List Byte))) (s : State) : GoodOut s (execManifestRegister h label file items s) := by
  refine good_read (kept_state_ite _ _ _ _ (by simp) (kept_state_ite _ _ _ _ (by simp) (assayRun_kept _ _ _ _ _ fun t d e => ?_)))
  simp [kept_mk, kept_sec, e]
theorem execManifestVerify_good (h : CmdHdr) (file : FabRead (List Byte)) (items : List (Nat × FabRead (List Byte))) (s : State) : GoodOut s (execManifestVerify h file items s) := by
  refine good_read ?_
  dsimp only
  split
  · refine kept_state_ite _ _ _ _ (by simp) (kept_state_ite _ _ _ _ (by simp [kept_mk, kept_sec]) (assayRun_kept _ _ _ _ _ fun t d e => ?_))
    simp [kept_mk, kept_sec, e]
  · exact assayRun_kept _ _ _ _ _ fun t d e => by simp [kept_mk, kept_sec, e]
theorem execManifestRead_good (h : CmdHdr) (s : State) : GoodOut s (execManifestRead h s) := by
  refine good_run ?_
  simp 
theorem execFenceTileFence_good (h : CmdHdr) (u : UnitId) (s : State) : GoodOut s (execFenceTileFence h u s) := by
  refine good_run ?_
  repeat' (first | refine kept_state_ite _ _ _ _ ?_ ?_ | split)
  all_goals simp 
theorem execFenceTileUnfence_good (h : CmdHdr) (u : UnitId) (s : State) : GoodOut s (execFenceTileUnfence h u s) := by
  refine good_run ?_
  repeat' (first | refine kept_state_ite _ _ _ _ ?_ ?_ | split)
  all_goals simp 
theorem execFenceTileRead_good (h : CmdHdr) (s : State) : GoodOut s (execFenceTileRead h s) := by
  refine good_run ?_
  simp 
theorem execCmdDaybookRead_good (h : CmdHdr) (first count addr len : Nat) (wrErr : Bool) (s : State) : GoodOut s (execCmdDaybookRead h first count addr len wrErr s) := by
  refine good_run ?_
  dsimp only
  repeat' (first | refine kept_state_ite _ _ _ _ ?_ ?_ | split)
  all_goals simp
  all_goals (first | done | (split <;> simp))
theorem execDaybookRecordWrite_good (flashOk : Bool) (s : State) : GoodOut s (execDaybookRecordWrite flashOk s) := by
  unfold execDaybookRecordWrite
  (try dsimp only)
  repeat' (first | refine good_ite ?_ ?_ | split)
  all_goals exact good_next (by simp [kept_mk])
theorem execFaultNoticeReceive_good (l : Link) (n : Notice) (s : State) : GoodOut s (execFaultNoticeReceive l n s) := by
  unfold execFaultNoticeReceive
  (first | refine receivedIf_good (fun s => ?_) | refine received_good (fun s => ?_))
  (try dsimp only)
  repeat' (first | refine good_ite ?_ ?_ | split)
  all_goals (refine good_next ?_; first | (simp [kept_mk, kept_sec, foldl_kept]; done) | grind [kept_mk, kept_sec, foldl_kept, State.pushNotice_kept])
theorem execJournalSelfTest_good (step1Ok : Bool) (badChannels : List Nat) (listOk : Bool) (s : State) : GoodOut s (execJournalSelfTest step1Ok badChannels listOk s) := by
  unfold execJournalSelfTest
  (try dsimp only)
  repeat' (first | refine good_ite ?_ ?_ | split)
  all_goals exact good_next (by simp )
theorem execJournalRead_good (use page acc : Nat) (e : JournalErr) (s : State) : GoodOut s (execJournalRead use page acc e s) := by
  unfold execJournalRead
  (try dsimp only)
  repeat' (first | refine good_ite ?_ ?_ | split)
  all_goals exact good_next (by simp )
theorem execScrubRead_good (page acc : Nat) (e : JournalErr) (s : State) : GoodOut s (execScrubRead page acc e s) := by
  unfold execScrubRead
  (try dsimp only)
  repeat' (first | refine good_ite ?_ ?_ | split)
  all_goals exact good_next (by simp [kept_mk])
theorem execChannelFailure_good (c : Nat) (s : State) : GoodOut s (execChannelFailure c s) := by
  unfold execChannelFailure
  (try dsimp only)
  repeat' (first | refine good_ite ?_ ?_ | split)
  all_goals exact good_next (by simp )
theorem execDramRefresh_good (c : Nat) (s : State) : GoodOut s (execDramRefresh c s) := by
  unfold execDramRefresh
  (try dsimp only)
  repeat' (first | refine good_ite ?_ ?_ | split)
  all_goals exact good_next (by simp )
theorem execMr4Read_good (c : Nat) (doubled : Bool) (s : State) : GoodOut s (execMr4Read c doubled s) := by
  unfold execMr4Read
  (try dsimp only)
  repeat' (first | refine good_ite ?_ ?_ | split)
  all_goals exact good_next (by simp )
theorem execZqCalibration_good (c : Nat) (s : State) : GoodOut s (execZqCalibration c s) := by
  unfold execZqCalibration
  (try dsimp only)
  repeat' (first | refine good_ite ?_ ?_ | split)
  all_goals exact good_next (by simp )
theorem execPhyUpdateRequest_good (c : Nat) (s : State) : GoodOut s (execPhyUpdateRequest c s) := by
  unfold execPhyUpdateRequest
  (try dsimp only)
  repeat' (first | refine good_ite ?_ ?_ | split)
  all_goals exact good_next (by simp )
theorem execLedgerSave_good (h : CmdHdr) (handle saveId : Nat) (s : State) : GoodOut s (execLedgerSave h handle saveId s) := by
  refine good_run ?_
  repeat' (first | refine kept_state_ite _ _ _ _ ?_ ?_ | split)
  all_goals simp 
theorem execLedgerSaveDelete_good (h : CmdHdr) (saveId : Nat) (s : State) : GoodOut s (execLedgerSaveDelete h saveId s) := by
  refine good_run ?_
  repeat' (first | refine kept_state_ite _ _ _ _ ?_ ?_ | split)
  all_goals simp [kept_mk]
theorem execCmdLedgerResume_good (h : CmdHdr) (saveId handle : Nat) (token : Option Nat) (bound uncorrectable : Bool) (s : State) : GoodOut s (execCmdLedgerResume h saveId handle token bound uncorrectable s) := by
  refine good_run ?_
  repeat' (first | refine kept_state_ite _ _ _ _ ?_ ?_ | split)
  all_goals simp [kept_mk, foldl_kept]
theorem execJournalStageOut_good (h : CmdHdr) (handle setId : Nat) (s : State) : GoodOut s (execJournalStageOut h handle setId s) := by
  refine good_run ?_
  repeat' (first | refine kept_state_ite _ _ _ _ ?_ ?_ | split)
  all_goals simp [kept_mk]
theorem execJournalStageIn_good (h : CmdHdr) (handle setId : Nat) (s : State) : GoodOut s (execJournalStageIn h handle setId s) := by
  refine good_run ?_
  repeat' (first | refine kept_state_ite _ _ _ _ ?_ ?_ | split)
  all_goals simp 
theorem execJournalStageDelete_good (h : CmdHdr) (setId : Nat) (s : State) : GoodOut s (execJournalStageDelete h setId s) := by
  refine good_run ?_
  repeat' (first | refine kept_state_ite _ _ _ _ ?_ ?_ | split)
  all_goals simp [kept_mk]
theorem execJournalRetirePage_good (h : CmdHdr) (page : Nat) (uncorrectable : List Nat) (s : State) : GoodOut s (execJournalRetirePage h page uncorrectable s) := by
  refine good_run ?_
  refine kept_state_ite _ _ _ _ (by simp) ?_
  split
  · rename_i e
    simpa using State.retireOne_kept e
  · simp
theorem execJournalRetireBank_good (h : CmdHdr) (c b : Nat) (uncorrectable : List Nat) (s : State) : GoodOut s (execJournalRetireBank h c b uncorrectable s) := by
  refine good_run ?_
  refine kept_state_ite _ _ _ _ (by simp) (kept_state_ite _ _ _ _ (by simp) ?_)
  extract_lets inBank l
  have k := State.retireMany_kept l uncorrectable inBank s
  split
  rename_i t all e
  rw [e] at k
  refine kept_state_ite _ _ _ _ ?_ (by simpa using k)
  simpa [kept_mk, kept_sec] using k
theorem execJournalRetireMark_good (h : CmdHdr) (c dev : Nat) (s : State) : GoodOut s (execJournalRetireMark h c dev s) := by
  refine good_run ?_
  repeat' (first | refine kept_state_ite _ _ _ _ ?_ ?_ | split)
  all_goals simp 
theorem execJournalRetireUnmark_good (h : CmdHdr) (c dev : Nat) (s : State) : GoodOut s (execJournalRetireUnmark h c dev s) := by
  refine good_run ?_
  repeat' (first | refine kept_state_ite _ _ _ _ ?_ ?_ | split)
  all_goals simp 
theorem execJournalRetireRead_good (h : CmdHdr) (s : State) : GoodOut s (execJournalRetireRead h s) := by
  refine good_run ?_
  simp 
theorem execCmdJournalConfig_good (h : CmdHdr) (hours : Nat) (s : State) : GoodOut s (execCmdJournalConfig h hours s) := by
  refine good_run ?_
  repeat' (first | refine kept_state_ite _ _ _ _ ?_ ?_ | split)
  all_goals simp [kept_mk]
theorem execPatternLoad_good (h : CmdHdr) (p : FabRead Pack) (aligned distribute : Bool) (s : State) : GoodOut s (execPatternLoad h p aligned distribute s) := by
  refine good_read ?_
  refine kept_state_ite _ _ _ _ (by simp) ?_
  refine withRead_kept _ _ _ fun v => ?_
  have k := State.storePack_kept s v
  dsimp only
  split <;> split <;> simp [k]
theorem execPackReceive_good (l : Link) (p : Pack) (s : State) : GoodOut s (execPackReceive l p s) := by
  unfold execPackReceive
  (first | refine receivedIf_good (fun s => ?_) | refine received_good (fun s => ?_))
  (try dsimp only)
  repeat' (first | refine good_ite ?_ ?_ | split)
  all_goals (refine good_next ?_; first | (simp [kept_mk, kept_sec, foldl_kept]; done) | grind [kept_mk, kept_sec, foldl_kept, State.passPack_kept, State.sendChord_kept, State.storePack_kept])
theorem execPatternDelete_good (h : CmdHdr) (slot : Nat) (s : State) : GoodOut s (execPatternDelete h slot s) := by
  refine good_run ?_
  repeat' (first | refine kept_state_ite _ _ _ _ ?_ ?_ | split)
  all_goals simp 
theorem execPatternRead_good (h : CmdHdr) (s : State) : GoodOut s (execPatternRead h s) := by
  refine good_run ?_
  simp 
theorem execTestTileRun_good (h : CmdHdr) (u : UnitId) (packId : Nat) (s : State) : GoodOut s (execTestTileRun h u packId s) := by
  refine good_run ?_
  repeat' (first | refine kept_state_ite _ _ _ _ ?_ ?_ | split)
  all_goals simp [kept_mk]
theorem execTestTileAbort_good (h : CmdHdr) (u : UnitId) (s : State) : GoodOut s (execTestTileAbort h u s) := by
  refine good_run ?_
  repeat' (first | refine kept_state_ite _ _ _ _ ?_ ?_ | split)
  all_goals simp 
theorem execTestComplete_good (u : UnitId) (r : TestResult) (s : State) : GoodOut s (execTestComplete u r s) := by
  unfold execTestComplete
  (try dsimp only)
  repeat' (first | refine good_ite ?_ ?_ | split)
  all_goals exact good_next (by simp [kept_mk])
theorem execMonitorFire_good (tile slack : Nat) (s : State) : GoodOut s (execMonitorFire tile slack s) := by
  unfold execMonitorFire
  (try dsimp only)
  repeat' (first | refine good_ite ?_ ?_ | split)
  all_goals exact good_next (by simp )
theorem execStretchIntervalEnd_good (group : Nat) (s : State) : GoodOut s (execStretchIntervalEnd group s) := by
  unfold execStretchIntervalEnd
  (try dsimp only)
  repeat' (first | refine good_ite ?_ ?_ | split)
  all_goals exact good_next (by simp )
theorem execTallyClockSet_good (h : CmdHdr) (group freq : Nat) (eff : HT) (s : State) : GoodOut s (execTallyClockSet h group freq eff s) := by
  refine good_run ?_
  repeat' (first | refine kept_state_ite _ _ _ _ ?_ ?_ | split)
  all_goals simp 
theorem execTallyClockSync_good (h : CmdHdr) (freqs : List Nat) (eff : HT) (s : State) : GoodOut s (execTallyClockSync h freqs eff s) := by
  refine good_run ?_
  repeat' (first | refine kept_state_ite _ _ _ _ ?_ ?_ | split)
  all_goals simp [kept_mk]
theorem execTallyClockMargin_good (h : CmdHdr) (group margin : Nat) (s : State) : GoodOut s (execTallyClockMargin h group margin s) := by
  refine good_run ?_
  repeat' (first | refine kept_state_ite _ _ _ _ ?_ ?_ | split)
  all_goals simp 
theorem execTallyClockRead_good (h : CmdHdr) (s : State) : GoodOut s (execTallyClockRead h s) := by
  refine good_run ?_
  simp 
theorem execTallySetEffective_good (group : Nat) (s : State) : GoodOut s (execTallySetEffective group s) := by
  unfold execTallySetEffective
  (try dsimp only)
  repeat' (first | refine good_ite ?_ ?_ | split)
  all_goals exact good_next (by simp )
theorem execGroupQuiesced_good (group : Nat) (s : State) : GoodOut s (execGroupQuiesced group s) := by
  unfold execGroupQuiesced
  (try dsimp only)
  repeat' (first | refine good_ite ?_ ?_ | split)
  all_goals exact good_next (by simp )
theorem execTallySyncEffective_good (s : State) : GoodOut s (execTallySyncEffective s) := by
  unfold execTallySyncEffective
  (try dsimp only)
  repeat' (first | refine good_ite ?_ ?_ | split)
  all_goals exact good_next (by simp [kept_mk, foldl_kept])
theorem execCmdPowerSelf_good (h : CmdHdr) (domain : Nat) (set : PwrSetting) (idle : Nat) (s : State) : GoodOut s (execCmdPowerSelf h domain set idle s) := by
  refine good_run ?_
  repeat' (first | refine kept_state_ite _ _ _ _ ?_ ?_ | split)
  all_goals simp 
theorem execTileAutoIdleOff_good (tile : Nat) (s : State) : GoodOut s (execTileAutoIdleOff tile s) := by
  unfold execTileAutoIdleOff
  (try dsimp only)
  repeat' (first | refine good_ite ?_ ?_ | split)
  all_goals exact good_next (by simp )
theorem execDomainPowerOnComplete_good (domain : Nat) (s : State) : GoodOut s (execDomainPowerOnComplete domain s) := by
  unfold execDomainPowerOnComplete
  (try dsimp only)
  repeat' (first | refine good_ite ?_ ?_ | split)
  all_goals exact good_next (by simp )
theorem execPowerPlanLoad_good (h : CmdHdr) (p : FabRead Plan) (s : State) : GoodOut s (execPowerPlanLoad h p s) := by
  simp only [execPowerPlanLoad]
  refine good_read ?_
  first
  | (simp [kept_mk, kept_sec]; done)
  | (repeat' (first | refine kept_state_ite _ _ _ _ ?_ ?_ | split)) <;> (first | (simp [kept_mk, kept_sec]; done) | (simp [kept_mk, kept_sec, foldl_kept]; done) | (refine withRead_kept _ _ _ fun v => ?_; (repeat' (first | refine kept_state_ite _ _ _ _ ?_ ?_ | split))) <;> (first | (simp [kept_mk, kept_sec]; done) | (simp [kept_mk, kept_sec, foldl_kept])))
theorem execPowerPlanSchedule_good (h : CmdHdr) (q step : Nat) (strike : HT) (s : State) : GoodOut s (execPowerPlanSchedule h q step strike s) := by
  refine good_run ?_
  repeat' (first | refine kept_state_ite _ _ _ _ ?_ ?_ | split)
  all_goals simp 
theorem execPowerPlanRead_good (h : CmdHdr) (s : State) : GoodOut s (execPowerPlanRead h s) := by
  refine good_run ?_
  repeat' (first | refine kept_state_ite _ _ _ _ ?_ ?_ | split)
  all_goals simp 
theorem execPowerStepStart_good (s : State) : GoodOut s (execPowerStepStart s) := by
  unfold execPowerStepStart
  (try dsimp only)
  repeat' (first | refine good_ite ?_ ?_ | split)
  all_goals exact good_next (by simp [kept_mk])
theorem execPmAckChange_good (k : Nat) (level : Bool) (s : State) : GoodOut s (execPmAckChange k level s) := by
  unfold execPmAckChange
  (try dsimp only)
  repeat' (first | refine good_ite ?_ ?_ | split)
  all_goals exact good_next (by simp [kept_mk])
theorem execPowerDelayExpiry_good (s : State) : GoodOut s (execPowerDelayExpiry s) := by
  unfold execPowerDelayExpiry
  (try dsimp only)
  repeat' (first | refine good_ite ?_ ?_ | split)
  all_goals exact good_next (by simp )
theorem execPowerWaitTimeout_good (s : State) : GoodOut s (execPowerWaitTimeout s) := by
  unfold execPowerWaitTimeout
  (try dsimp only)
  repeat' (first | refine good_ite ?_ ?_ | split)
  all_goals exact good_next (by simp )
theorem execLeaseRenewalSend_good (s : State) : GoodOut s (execLeaseRenewalSend s) := by
  unfold execLeaseRenewalSend
  (try dsimp only)
  repeat' (first | refine good_ite ?_ ?_ | split)
  all_goals exact good_next (by simp [kept_mk])
theorem execLeaseRenewalReceive_good (l : Link) (f : LeaseFlit) (s : State) : GoodOut s (execLeaseRenewalReceive l f s) := by
  unfold execLeaseRenewalReceive
  (first | refine receivedIf_good (fun s => ?_) | refine received_good (fun s => ?_))
  (try dsimp only)
  repeat' (first | refine good_ite ?_ ?_ | split)
  all_goals (refine good_next ?_; first | (simp [kept_mk, kept_sec, foldl_kept]; done) | grind [kept_mk, kept_sec, foldl_kept, State.chordRenewal_kept, State.vote_kept])
theorem execLeaseClaimReceive_good (l : Link) (f : LeaseFlit) (s : State) : GoodOut s (execLeaseClaimReceive l f s) := by
  unfold execLeaseClaimReceive
  (first | refine receivedIf_good (fun s => ?_) | refine received_good (fun s => ?_))
  (try dsimp only)
  repeat' (first | refine good_ite ?_ ?_ | split)
  all_goals (refine good_next ?_; first | (simp [kept_mk, kept_sec, foldl_kept]; done) | grind [kept_mk, kept_sec, foldl_kept, State.vote_kept])
theorem execLeaseReleaseReceive_good (l : Link) (f : LeaseFlit) (s : State) : GoodOut s (execLeaseReleaseReceive l f s) := by
  unfold execLeaseReleaseReceive
  (first | refine receivedIf_good (fun s => ?_) | refine received_good (fun s => ?_))
  (try dsimp only)
  repeat' (first | refine good_ite ?_ ?_ | split)
  all_goals (refine good_next ?_; first | (simp [kept_mk, kept_sec, foldl_kept]; done) | grind [kept_mk, kept_sec, foldl_kept, State.release_kept, State.startClaim_kept, State.vote_kept])
theorem execLeaseConfirmationReceive_good (l : Link) (f : LeaseFlit) (s : State) : GoodOut s (execLeaseConfirmationReceive l f s) := by
  unfold execLeaseConfirmationReceive
  refine receivedIf_good (fun s => ?_)
  (try dsimp only)
  repeat' (first | refine good_ite ?_ ?_ | split)
  all_goals exact good_next (by simp [kept_mk])
theorem execLeaseRefusalReceive_good (l : Link) (g : Nat) (f : LeaseFlit) (s : State) : GoodOut s (execLeaseRefusalReceive l g f s) := by
  unfold execLeaseRefusalReceive
  (first | refine receivedIf_good (fun s => ?_) | refine received_good (fun s => ?_))
  (try dsimp only)
  repeat' (first | refine good_ite ?_ ?_ | split)
  all_goals (refine good_next ?_; first | (simp [kept_mk, kept_sec, foldl_kept]; done) | grind [kept_mk, kept_sec, foldl_kept, State.freshClaim_kept, State.modPort_kept, State.send_kept])
theorem execLeaseLapse_good (s : State) : GoodOut s (execLeaseLapse s) := by
  unfold execLeaseLapse
  (try dsimp only)
  repeat' (first | refine good_ite ?_ ?_ | split)
  all_goals exact good_next (by simp [kept_mk])
theorem execChordRenewalTimeout_good (s : State) : GoodOut s (execChordRenewalTimeout s) := by
  unfold execChordRenewalTimeout
  (try dsimp only)
  repeat' (first | refine good_ite ?_ ?_ | split)
  all_goals exact good_next (by simp )
theorem execLeaseClaimSend_good (s : State) : GoodOut s (execLeaseClaimSend s) := by
  unfold execLeaseClaimSend
  (try dsimp only)
  repeat' (first | refine good_ite ?_ ?_ | split)
  all_goals exact good_next (by simp [kept_mk])
theorem execChordDownSolo_good (s : State) : GoodOut s (execChordDownSolo s) := by
  unfold execChordDownSolo
  (try dsimp only)
  repeat' (first | refine good_ite ?_ ?_ | split)
  all_goals exact good_next (by simp )
theorem execMirrorFlitReceive_good (l : Link) (m : MirrorMsg) (s : State) : GoodOut s (execMirrorFlitReceive l m s) := by
  unfold execMirrorFlitReceive
  refine receivedIf_good (fun s => ?_)
  (try dsimp only)
  repeat' (first | refine good_ite ?_ ?_ | split)
  all_goals exact good_next (by simp [kept_mk])
theorem execEpochRecordClose_good (peer : Option Nat) (s : State) : GoodOut s (execEpochRecordClose peer s) := by
  unfold execEpochRecordClose
  (try dsimp only)
  repeat' (first | refine good_ite ?_ ?_ | split)
  all_goals exact good_next (by simp [kept_mk])
theorem execPairIsolate_good (h : CmdHdr) (s : State) : GoodOut s (execPairIsolate h s) := by
  refine good_run ?_
  repeat' (first | refine kept_state_ite _ _ _ _ ?_ ?_ | split)
  all_goals simp [kept_mk]
theorem execPairRejoin_good (h : CmdHdr) (s : State) : GoodOut s (execPairRejoin h s) := by
  refine good_run ?_
  repeat' (first | refine kept_state_ite _ _ _ _ ?_ ?_ | split)
  all_goals simp 
theorem execPairHandover_good (h : CmdHdr) (eff : HT) (s : State) : GoodOut s (execPairHandover h eff s) := by
  refine good_run ?_
  repeat' (first | refine kept_state_ite _ _ _ _ ?_ ?_ | split)
  all_goals simp [kept_mk]
theorem execHandoverEffective_good (s : State) : GoodOut s (execHandoverEffective s) := by
  unfold execHandoverEffective
  (try dsimp only)
  repeat' (first | refine good_ite ?_ ?_ | split)
  all_goals exact good_next (by simp [kept_mk])
theorem execPairRead_good (h : CmdHdr) (s : State) : GoodOut s (execPairRead h s) := by
  refine good_run ?_
  simp 
theorem execAttestEnroll_good (h : CmdHdr) (s : State) : GoodOut s (execAttestEnroll h s) := by
  refine good_runG ?_
  split
  · exact good_kept rfl
  · split
    · exact good_kept rfl
    · rename_i x
      have x : s.sec.pufOn = true := by simpa using x
      exact ⟨⟨rfl, rfl, .inl rfl, fun k u => absurd x (by simp [(k u).1])⟩, id⟩
theorem execAttestReport_good (h : CmdHdr) (nonce userData : Nat) (s : State) : GoodOut s (execAttestReport h nonce userData s) := by
  refine good_run ?_
  repeat' (first | refine kept_state_ite _ _ _ _ ?_ ?_ | split)
  all_goals simp 
theorem execAttestCertLoad_good (h : CmdHdr) (len : Nat) (chain : FabRead (Nat × Bool)) (s : State) : GoodOut s (execAttestCertLoad h len chain s) := by
  simp only [execAttestCertLoad]
  refine good_read ?_
  first
  | (simp [kept_mk, kept_sec]; done)
  | (repeat' (first | refine kept_state_ite _ _ _ _ ?_ ?_ | split)) <;> (first | (simp [kept_mk, kept_sec]; done) | (simp [kept_mk, kept_sec, foldl_kept]; done) | (refine withRead_kept _ _ _ fun v => ?_; (repeat' (first | refine kept_state_ite _ _ _ _ ?_ ?_ | split))) <;> (first | (simp [kept_mk, kept_sec]; done) | (simp [kept_mk, kept_sec, foldl_kept])))
theorem execAttestCertRead_good (h : CmdHdr) (s : State) : GoodOut s (execAttestCertRead h s) := by
  refine good_run ?_
  simp 
theorem execCmdCtxOpen_good (h : CmdHdr) (a : CtxOpenArgs) (s : State) : GoodOut s (execCmdCtxOpen h a s) := by
  simp only [execCmdCtxOpen]
  refine good_read ?_
  first
  | (simp [kept_mk, kept_sec]; done)
  | (repeat' (first | refine kept_state_ite _ _ _ _ ?_ ?_ | split)) <;> (first | (simp [kept_mk, kept_sec]; done) | (simp [kept_mk, kept_sec, foldl_kept]; done) | (refine withRead_kept _ _ _ fun v => ?_; (repeat' (first | refine kept_state_ite _ _ _ _ ?_ ?_ | split))) <;> (first | (simp [kept_mk, kept_sec]; done) | (simp [kept_mk, kept_sec, foldl_kept])))
theorem execContextMessageReceive_good (l : Link) (m : CtxMsg) (s : State) : GoodOut s (execContextMessageReceive l m s) := by
  unfold execContextMessageReceive
  (first | refine receivedIf_good (fun s => ?_) | refine received_good (fun s => ?_))
  (try dsimp only)
  repeat' (first | refine good_ite ?_ ?_ | split)
  all_goals (refine good_next ?_; first | (simp [kept_mk, kept_sec, foldl_kept]; done) | grind [kept_mk, kept_sec, foldl_kept, State.distTake_kept])
theorem execCmdCtxClose_good (h : CmdHdr) (s : State) : GoodOut s (execCmdCtxClose h s) := by
  refine good_run ?_
  repeat' (first | refine kept_state_ite _ _ _ _ ?_ ?_ | split)
  all_goals simp 
theorem execDebugChallenge_good (h : CmdHdr) (s : State) : GoodOut s (execDebugChallenge h s) := by
  refine good_run ?_
  simp [kept_mk, kept_sec, foldl_kept]
theorem execDebugUnlock_good (h : CmdHdr) (t : FabRead Token) (s : State) : GoodOut s (execDebugUnlock h t s) := by
  refine good_readG (withRead_good _ _ _ fun v => ?_)
  split
  · exact good_kept (by simp)
  · split
    · exact good_kept (by simp)
    · rw [state_ok]; exact unlock_good s _
theorem execMailboxGo_good (m : Option Nat) (access : Nat) (s : State) : GoodOut s (execMailboxGo m access s) := by
  unfold execMailboxGo
  (try dsimp only)
  repeat' (first | refine good_ite ?_ ?_ | split)
  all_goals exact good_err _ (by simp [kept_mk])
theorem execMailboxAbort_good (m : Option Nat) (access : Nat) (s : State) : GoodOut s (execMailboxAbort m access s) := by
  unfold execMailboxAbort
  (try dsimp only)
  repeat' (first | refine good_ite ?_ ?_ | split)
  all_goals exact good_err _ (by simp [kept_mk])
theorem execMailboxDoneClear_good (m : Option Nat) (access : Nat) (s : State) : GoodOut s (execMailboxDoneClear m access s) := by
  unfold execMailboxDoneClear
  (try dsimp only)
  repeat' (first | refine good_ite ?_ ?_ | split)
  all_goals exact good_err _ (by simp )
theorem execMailboxAccept_good (s : State) : GoodOut s (execMailboxAccept s) := by
  unfold execMailboxAccept
  (try dsimp only)
  repeat' (first | refine good_ite ?_ ?_ | split)
  all_goals exact good_next (by simp [kept_mk])
theorem execForwardedCommandReceive_good (l : Link) (block m seq : Nat) (tier opcode : Nat) (mirrored : Bool) (bytes : BitVec 512) (resent : Bool) (s : State) : GoodOut s (execForwardedCommandReceive l block m seq tier opcode mirrored bytes resent s) := by
  unfold execForwardedCommandReceive
  (first | refine receivedIf_good (fun s => ?_) | refine received_good (fun s => ?_))
  (try dsimp only)
  repeat' (first | refine good_ite ?_ ?_ | split)
  all_goals (refine good_next ?_; first | (simp [kept_mk, kept_sec, foldl_kept]; done) | grind [kept_mk, kept_sec, foldl_kept, State.answerFwd_kept, State.passFwd_kept, State.takeFwd_kept])
theorem execForwardResponseReceive_good (l : Link) (src : CmdSrc) (seq : Nat) (code : St) (results : List Byte) (s : State) : GoodOut s (execForwardResponseReceive l src seq code results s) := by
  unfold execForwardResponseReceive
  (first | refine receivedIf_good (fun s => ?_) | refine received_good (fun s => ?_))
  (try dsimp only)
  repeat' (first | refine good_ite ?_ ?_ | split)
  all_goals (refine good_next ?_; first | (simp [kept_mk, kept_sec, foldl_kept]; done) | grind [kept_mk, kept_sec, foldl_kept, State.answerFwd_kept, State.dropFwd_kept, complete_kept])
theorem execForwardTimeout_good (src : CmdSrc) (s : State) : GoodOut s (execForwardTimeout src s) := by
  unfold execForwardTimeout
  (try dsimp only)
  repeat' (first | refine good_ite ?_ ?_ | split)
  all_goals exact good_next (by simp [kept_mk])
theorem execDistributionReceive_good (l : Link) (id : Nat) (d : DistCmd) (s : State) : GoodOut s (execDistributionReceive l id d s) := by
  unfold execDistributionReceive
  (first | refine receivedIf_good (fun s => ?_) | refine received_good (fun s => ?_))
  (try dsimp only)
  repeat' (first | refine good_ite ?_ ?_ | split)
  all_goals (refine good_next ?_; first | (simp [kept_mk, kept_sec, foldl_kept]; done) | grind [kept_mk, kept_sec, foldl_kept, State.distTake_kept])
theorem execDistributionAckReceive_good (l : Link) (id : Nat) (code : St) (info : AckInfo) (s : State) : GoodOut s (execDistributionAckReceive l id code info s) := by
  unfold execDistributionAckReceive
  (first | refine receivedIf_good (fun s => ?_) | refine received_good (fun s => ?_))
  (try dsimp only)
  repeat' (first | refine good_ite ?_ ?_ | split)
  all_goals (refine good_next ?_; first | (simp [kept_mk, kept_sec, foldl_kept]; done) | grind [kept_mk, kept_sec, foldl_kept, State.distHeard_kept])
theorem execWatchdogExpiry_good (s : State) : GoodOut s (execWatchdogExpiry s) := by
  unfold execWatchdogExpiry
  (try dsimp only)
  repeat' (first | refine good_ite ?_ ?_ | split)
  all_goals exact good_next (by simp )
theorem execSramDoubleError_good (s : State) : GoodOut s (execSramDoubleError s) := by
  exact good_next (by simp )
theorem execBadFetch_good (s : State) : GoodOut s (execBadFetch s) := by
  exact good_next (by simp )
theorem execScrivenerRestartComplete_good (stagedOk : Bool) (s : State) : GoodOut s (execScrivenerRestartComplete stagedOk s) := by
  unfold execScrivenerRestartComplete
  dsimp only
  refine good_ite (good_next rfl) ?_
  split
  · refine good_ite (good_next (by simp [kept_mk, kept_sec])) (good_ite ?_ ?_) <;> refine good_next ?_ <;> (repeat' split) <;> simp [kept_mk, kept_sec] <;> (repeat' split) <;> simp
  · split
    · rename_i e
      refine good_next ?_
      simp only [State.restarted_kept]
      split at e
      · cases e; split <;> simp
      · exact State.loadFw_kept e
    · exact good_next (by simp)
theorem execCmdFwStage_good (h : CmdHdr) (kind len : Nat) (img : FabRead Image) (s : State) : GoodOut s (execCmdFwStage h kind len img s) := by
  simp only [execCmdFwStage]
  refine good_read ?_
  first
  | (simp [kept_mk, kept_sec]; done)
  | (repeat' (first | refine kept_state_ite _ _ _ _ ?_ ?_ | split)) <;> (first | (simp [kept_mk, kept_sec]; done) | (simp [kept_mk, kept_sec, foldl_kept]; done) | (refine withRead_kept _ _ _ fun v => ?_; (repeat' (first | refine kept_state_ite _ _ _ _ ?_ ?_ | split))) <;> (first | (simp [kept_mk, kept_sec]; done) | (simp [kept_mk, kept_sec, foldl_kept])))
theorem execCmdFwActivate_good (h : CmdHdr) (kind : Nat) (eff : HT) (s : State) : GoodOut s (execCmdFwActivate h kind eff s) := by
  refine good_run ?_
  repeat' (first | refine kept_state_ite _ _ _ _ ?_ ?_ | split)
  all_goals simp [kept_mk]
theorem execFwActivateEffective_good (s : State) : GoodOut s (execFwActivateEffective s) := by
  unfold execFwActivateEffective
  (try dsimp only)
  repeat' (first | refine good_ite ?_ ?_ | split)
  all_goals exact good_next (by simp [kept_mk])
theorem execHtLoRead_good (s : State) : GoodOut s (execHtLoRead s) := by
  unfold execHtLoRead
  (try simp only [])
  repeat' (first | refine good_ite ?_ ?_ | split)
  all_goals (first | (refine good_any ?_; simp [kept_answer, kept_mk, kept_sec, foldl_kept]; done) | (refine good_err _ ?_; simp [kept_mk, kept_sec, foldl_kept]; done) | (refine good_ans _ ?_; simp [kept_mk, kept_sec, foldl_kept]; done) | (refine good_next ?_; first | (simp [kept_mk, kept_sec, foldl_kept]; done) | rfl | (grind [kept_mk, kept_sec, foldl_kept])))
theorem execTaiOfsLoRead_good (s : State) : GoodOut s (execTaiOfsLoRead s) := by
  unfold execTaiOfsLoRead
  (try simp only [])
  repeat' (first | refine good_ite ?_ ?_ | split)
  all_goals (first | (refine good_any ?_; simp [kept_answer, kept_mk, kept_sec, foldl_kept]; done) | (refine good_err _ ?_; simp [kept_mk, kept_sec, foldl_kept]; done) | (refine good_ans _ ?_; simp [kept_mk, kept_sec, foldl_kept]; done) | (refine good_next ?_; first | (simp [kept_mk, kept_sec, foldl_kept]; done) | rfl | (grind [kept_mk, kept_sec, foldl_kept])))
theorem execFcwLoRead_good (access : Nat) (s : State) : GoodOut s (execFcwLoRead access s) := by
  unfold execFcwLoRead
  (try simp only [])
  repeat' (first | refine good_ite ?_ ?_ | split)
  all_goals (first | (refine good_any ?_; simp [kept_answer, kept_mk, kept_sec, foldl_kept]; done) | (refine good_err _ ?_; simp [kept_mk, kept_sec, foldl_kept]; done) | (refine good_ans _ ?_; simp [kept_mk, kept_sec, foldl_kept]; done) | (refine good_next ?_; first | (simp [kept_mk, kept_sec, foldl_kept]; done) | rfl | (grind [kept_mk, kept_sec, foldl_kept])))
theorem execTdcStampLoRead_good (ch access : Nat) (s : State) : GoodOut s (execTdcStampLoRead ch access s) := by
  unfold execTdcStampLoRead
  (try simp only [])
  repeat' (first | refine good_ite ?_ ?_ | split)
  all_goals (first | (refine good_any ?_; simp [kept_answer, kept_mk, kept_sec, foldl_kept]; done) | (refine good_err _ ?_; simp [kept_mk, kept_sec, foldl_kept]; done) | (refine good_ans _ ?_; simp [kept_mk, kept_sec, foldl_kept]; done) | (refine good_next ?_; first | (simp [kept_mk, kept_sec, foldl_kept]; done) | rfl | (grind [kept_mk, kept_sec, foldl_kept, State.modTdc_kept])))
theorem execHmSeqLoRead_good (access : Nat) (s : State) : GoodOut s (execHmSeqLoRead access s) := by
  unfold execHmSeqLoRead
  (try simp only [])
  repeat' (first | refine good_ite ?_ ?_ | split)
  all_goals (first | (refine good_any ?_; simp [kept_answer, kept_mk, kept_sec, foldl_kept]; done) | (refine good_err _ ?_; simp [kept_mk, kept_sec, foldl_kept]; done) | (refine good_ans _ ?_; simp [kept_mk, kept_sec, foldl_kept]; done) | (refine good_next ?_; first | (simp [kept_mk, kept_sec, foldl_kept]; done) | rfl | (grind [kept_mk, kept_sec, foldl_kept])))
theorem execDbSeqLoRead_good (access : Nat) (s : State) : GoodOut s (execDbSeqLoRead access s) := by
  unfold execDbSeqLoRead
  (try simp only [])
  repeat' (first | refine good_ite ?_ ?_ | split)
  all_goals (first | (refine good_any ?_; simp [kept_answer, kept_mk, kept_sec, foldl_kept]; done) | (refine good_err _ ?_; simp [kept_mk, kept_sec, foldl_kept]; done) | (refine good_ans _ ?_; simp [kept_mk, kept_sec, foldl_kept]; done) | (refine good_next ?_; first | (simp [kept_mk, kept_sec, foldl_kept]; done) | rfl | (grind [kept_mk, kept_sec, foldl_kept])))
theorem execNoticeRead_good (access : Nat) (s : State) : GoodOut s (execNoticeRead access s) := by
  unfold execNoticeRead
  (try simp only [])
  repeat' (first | refine good_ite ?_ ?_ | split)
  all_goals (first | (refine good_any ?_; simp [kept_answer, kept_mk, kept_sec, foldl_kept]; done) | (refine good_err _ ?_; simp [kept_mk, kept_sec, foldl_kept]; done) | (refine good_ans _ ?_; simp [kept_mk, kept_sec, foldl_kept]; done) | (refine good_next ?_; first | (simp [kept_mk, kept_sec, foldl_kept]; done) | rfl | (grind [kept_mk, kept_sec, foldl_kept])))
theorem execHtEvEdge_good (c : Nat) (s : State) : GoodOut s (execHtEvEdge c s) := by
  unfold execHtEvEdge
  (try dsimp only)
  repeat' (first | refine good_ite ?_ ?_ | split)
  all_goals exact good_next (by simp [kept_mk])
theorem execTemperatureExcursion_good (temp : Rat) (s : State) : GoodOut s (execTemperatureExcursion temp s) := by
  unfold execTemperatureExcursion
  (try dsimp only)
  repeat' (first | refine good_ite ?_ ?_ | split)
  all_goals exact good_next (by simp [kept_mk])
theorem execOcxoClockReturn_good (s : State) : GoodOut s (execOcxoClockReturn s) := by
  unfold execOcxoClockReturn
  (try dsimp only)
  repeat' (first | refine good_ite ?_ ?_ | split)
  all_goals exact good_next (by simp [kept_mk])
theorem execSramSingleBitError_good (s : State) : GoodOut s (execSramSingleBitError s) := by
  exact good_next (by simp [kept_mk])
theorem execPhasePullEnd_good (s : State) : GoodOut s (execPhasePullEnd s) := by
  unfold execPhasePullEnd
  (try dsimp only)
  repeat' (first | refine good_ite ?_ ?_ | split)
  all_goals exact good_next (by simp )
theorem execFrequencySlewEnd_good (s : State) : GoodOut s (execFrequencySlewEnd s) := by
  unfold execFrequencySlewEnd
  (try dsimp only)
  repeat' (first | refine good_ite ?_ ?_ | split)
  all_goals exact good_next (by simp [kept_mk])
theorem execPaneSpillComplete_good (k : ChunkKey) (s : State) : GoodOut s (execPaneSpillComplete k s) := by
  unfold execPaneSpillComplete
  (try dsimp only)
  repeat' (first | refine good_ite ?_ ?_ | split)
  all_goals exact good_next (by simp [kept_mk])
theorem execDomainPowerOffComplete_good (domain : Nat) (s : State) : GoodOut s (execDomainPowerOffComplete domain s) := by
  unfold execDomainPowerOffComplete
  (try dsimp only)
  repeat' (first | refine good_ite ?_ ?_ | split)
  all_goals exact good_next (by simp [kept_mk, foldl_kept])
theorem execActivationCommandWaitExpiry_good (s : State) : GoodOut s (execActivationCommandWaitExpiry s) := by
  unfold execActivationCommandWaitExpiry
  (try dsimp only)
  repeat' (first | refine good_ite ?_ ?_ | split)
  all_goals exact good_next (by simp )
theorem putMb_good (s : State) (m : Option Nat) (w : Nat) (st : Bool) (v : Word) (a : Nat) : GoodOut s (s.putMb m w st v a) := by
  unfold State.putMb
  split
  · exact good_err _ rfl
  · rename_i k _
    dsimp only
    have g1 : GoodOut s (.next ((s.modMb k (fun b => { b with goErr := w1c v 3 b.goErr })).answer 0 false)) := good_err _ (by simp)
    refine good_ite (good_ite ?_ g1) ?_
    · exact thenDo_good g1 (fun t => execMailboxDoneClear_good m a t)
    · have g2 : GoodOut s (if v.getLsbD 0 then execMailboxGo m a s else .next (s.answer 0 false)) :=
        good_ite (execMailboxGo_good m a s) (good_err _ rfl)
      exact good_ite (thenDo_good g2 (fun t => execMailboxAbort_good m a t)) g2
theorem putOwn_good {s : State} {r : Reg} {v : Word} {a : Nat} {o : Out} (e : s.putOwn r v a = some o) : GoodOut s o := by
  have ok : GoodOut s (.next (s.answer 0 false)) := good_err _ rfl
  unfold State.putOwn at e
  cases r <;> cases e
  case mbCmd => split; exact good_err _ rfl; exact good_ite (good_err _ (by simp)) (good_err _ rfl)
  case mbResp => exact good_ite (good_err _ rfl) ok
  case mbCtrl => exact putMb_good _ _ _ _ _ _
  case mbStat => exact putMb_good _ _ _ _ _ _
  case window => split; exact execSyncSet_good _ _ _ _; exact execSyncAdd_good _ _ _ _; exact execSyncSubtract_good _ _ _ _; exact windowFail_good _ _ _ _
  case dkPush => exact good_ite (execDocketPushCommit_good _ _ _ _) (execDocketPushWord_good _ _ _ _ _)
  case dkCtrl =>
    refine good_ite ok ?_
    have g := good_ite (c := v.getLsbD 0 = true) (execDocketFlush_good ‹_› a s) ok
    exact good_ite (thenDo_good g (fun t => execDocketResume_good _ a t)) g
  case flHi => exact execFrameStrikeArm_good _ _ _ _
  case wait => exact good_ite (execWaitCancel_good _ _ _) ok
  case collStart => exact execCollStart_good _ _ _
  case collQuery => exact execCollQuery_good _ _ _
theorem execRegisterWrite_good (addr : Nat) (v : Word) (access : Nat) (s : State) : GoodOut s (execRegisterWrite addr v access s) := by
  unfold execRegisterWrite
  split
  · exact good_err _ rfl
  · refine good_ite (good_err _ rfl) ?_
    split
    · rename_i e
      exact putOwn_good e
    · exact good_err _ (by simp)

/-! ## The tick -/

theorem tick_kept {s t : State} (h : tick s = .next t) : t.kept = s.kept := by
  have k : ((s.advance.flashTick.syncTick.shapeTick.dpllTick.restartGroups.turnWaiting.stepTick).chunkTick.tallyTick.creditTick.linesTick).kept = s.kept := by simp
  have e : tick s = if 2 ^ 64 ≤ s.advance.htNs then .fault .htPastLimit else .next (s.advance.flashTick.syncTick.shapeTick.dpllTick.restartGroups.turnWaiting.stepTick).chunkTick.tallyTick.creditTick.linesTick := rfl
  generalize (s.advance.flashTick.syncTick.shapeTick.dpllTick.restartGroups.turnWaiting.stepTick).chunkTick.tallyTick.creditTick.linesTick = u at *
  rw [e] at h
  split at h
  · cases h
  · injection h with h
    rw [← h, k]

end Sys2Proof.Machine
end

