-- ==== Sys2Proof/Laws/Ledger.lean ====
section
/-! SUPPORT. Arithmetic of limbs and of byte strings: what a piece, a carry and a residue are as numbers. -/

set_option linter.all false

namespace Sys2Proof.Machine
open Sys2Proof

theorem bmod40 {x : Int} (h1 : -549755813888 ≤ x) (h2 : x < 549755813888) : x.bmod (2 ^ 40) = x := by
  apply Int.bmod_eq_of_le <;> omega

/-- An addition of limbs that stays in range is exact. -/
theorem limb_add {a b : BitVec 40} (h1 : -549755813888 ≤ a.toInt + b.toInt) (h2 : a.toInt + b.toInt < 549755813888) : (a + b).toInt = a.toInt + b.toInt := by
  rw [BitVec.toInt_add, bmod40 h1 h2]

/-- A subtraction of limbs that stays in range is exact. -/
theorem limb_sub {a b : BitVec 40} (h1 : -549755813888 ≤ a.toInt - b.toInt) (h2 : a.toInt - b.toInt < 549755813888) : (a - b).toInt = a.toInt - b.toInt := by
  rw [BitVec.toInt_sub, bmod40 h1 h2]

/-- A piece of a number as a limb. -/
theorem piece_toInt (n : Nat) : (BitVec.ofNat 40 (n % 2 ^ 32)).toInt = ((n % 2 ^ 32 : Nat) : Int) := by
  rw [BitVec.toInt_eq_toNat_cond, BitVec.toNat_ofNat]
  split <;> omega

/-- An integer in range as a limb. -/
theorem ofInt_toInt {x : Int} (h1 : -549755813888 ≤ x) (h2 : x < 549755813888) : (BitVec.ofInt 40 x).toInt = x := by
  rw [BitVec.toInt_ofInt, bmod40 h1 h2]

/-- The VALUE of a limb, with its GUARD cleared. -/
theorem value_toInt (a : BitVec 40) : (a &&& 0xFFFFFFFF#40).toInt = a.toInt % 4294967296 := by
  have h : (a &&& 0xFFFFFFFF#40).toNat = a.toNat % 2 ^ 32 := by
    rw [BitVec.toNat_and]
    exact Nat.and_two_pow_sub_one_eq_mod a.toNat 32
  rw [BitVec.toInt_eq_toNat_cond, h, BitVec.toInt_eq_toNat_cond]
  split <;> split <;> omega

/-- The bytes of a number spell it. -/
theorem leNat_le (n v : Nat) : leNat (le n v) = v % 256 ^ n := by
  induction n generalizing v with
  | zero => simp [le, leNat, Nat.mod_one]
  | succ n ih =>
    simp only [le, leNat, ih, BitVec.toNat_ofNat]
    rw [show 256 ^ (n + 1) = 256 * 256 ^ n by rw [Nat.pow_succ, Nat.mul_comm], Nat.mod_mul]

@[simp] theorem le_length (n v : Nat) : (le n v).length = n := by
  induction n generalizing v with
  | zero => rfl
  | succ n ih => simp [le, ih]

/-- A number in range is the signed number that its two's complement spells. -/
theorem signedOf_twos {w : Nat} {v : Int} (hw : w ≠ 0) (h1 : -(2 : Int) ^ (w - 1) ≤ v) (h2 : v < (2 : Int) ^ (w - 1)) : signedOf w (twos w v) = v := by
  obtain ⟨k, rfl⟩ : ∃ k, w = k + 1 := ⟨w - 1, by omega⟩
  simp only [Nat.add_sub_cancel] at h1 h2
  have e : (2 : Int) ^ (k + 1) = 2 * 2 ^ k := by rw [Int.pow_succ]; omega
  have en : (2 : Nat) ^ (k + 1) = 2 * 2 ^ k := by rw [Nat.pow_succ]; omega
  have ec : ((2 ^ k : Nat) : Int) = (2 : Int) ^ k := by simp
  have p : (0 : Int) < 2 ^ k := Int.pow_pos (by decide)
  unfold signedOf twos
  simp only [Nat.add_sub_cancel]
  rw [e, en]
  generalize (2 : Int) ^ k = P at *
  generalize (2 : Nat) ^ k = Q at *
  subst ec
  rcases Int.lt_or_le v 0 with h | h
  · have : v % (2 * (Q : Int)) = v + 2 * Q := by
      rw [← Int.add_emod_right]
      exact Int.emod_eq_of_lt (by omega) (by omega)
    rw [this]
    rw [Nat.mod_eq_of_lt (by omega)]
    split <;> omega
  · have : v % (2 * (Q : Int)) = v := Int.emod_eq_of_lt h (by omega)
    rw [this]
    rw [Nat.mod_eq_of_lt (by omega)]
    split <;> omega

end Sys2Proof.Machine
end

