-- ==== Sys2Proof/Laws/State.lean ====
section
/-! SUPPORT. The named updates of `State`: one lemma for each update and each group of fields that it leaves alone, and
one for what it does to the entry it changes. -/

set_option linter.all false

namespace Sys2Proof.Machine

/-! ## State.modPort -/

@[simp] theorem State.modPort_params (s : State) (p : Nat) (f : PortSt → PortSt) : (State.modPort s p f).params = s.params := rfl
@[simp] theorem State.modPort_time (s : State) (p : Nat) (f : PortSt → PortSt) : (State.modPort s p f).time = s.time := rfl
@[simp] theorem State.modPort_dpll (s : State) (p : Nat) (f : PortSt → PortSt) : (State.modPort s p f).dpll = s.dpll := rfl
@[simp] theorem State.modPort_tdc (s : State) (p : Nat) (f : PortSt → PortSt) : (State.modPort s p f).tdc = s.tdc := rfl
@[simp] theorem State.modPort_tsrc (s : State) (p : Nat) (f : PortSt → PortSt) : (State.modPort s p f).tsrc = s.tsrc := rfl
@[simp] theorem State.modPort_docket (s : State) (p : Nat) (f : PortSt → PortSt) : (State.modPort s p f).docket = s.docket := rfl
@[simp] theorem State.modPort_sync (s : State) (p : Nat) (f : PortSt → PortSt) : (State.modPort s p f).sync = s.sync := rfl
@[simp] theorem State.modPort_tiles (s : State) (p : Nat) (f : PortSt → PortSt) : (State.modPort s p f).tiles = s.tiles := rfl
@[simp] theorem State.modPort_coll (s : State) (p : Nat) (f : PortSt → PortSt) : (State.modPort s p f).coll = s.coll := rfl
@[simp] theorem State.modPort_sched (s : State) (p : Nat) (f : PortSt → PortSt) : (State.modPort s p f).sched = s.sched := rfl
@[simp] theorem State.modPort_hm (s : State) (p : Nat) (f : PortSt → PortSt) : (State.modPort s p f).hm = s.hm := rfl
@[simp] theorem State.modPort_flt (s : State) (p : Nat) (f : PortSt → PortSt) : (State.modPort s p f).flt = s.flt := rfl
@[simp] theorem State.modPort_jm (s : State) (p : Nat) (f : PortSt → PortSt) : (State.modPort s p f).jm = s.jm := rfl
@[simp] theorem State.modPort_test (s : State) (p : Nat) (f : PortSt → PortSt) : (State.modPort s p f).test = s.test := rfl
@[simp] theorem State.modPort_pwr (s : State) (p : Nat) (f : PortSt → PortSt) : (State.modPort s p f).pwr = s.pwr := rfl
@[simp] theorem State.modPort_pair (s : State) (p : Nat) (f : PortSt → PortSt) : (State.modPort s p f).pair = s.pair := rfl
@[simp] theorem State.modPort_ctx (s : State) (p : Nat) (f : PortSt → PortSt) : (State.modPort s p f).ctx = s.ctx := rfl
@[simp] theorem State.modPort_sec (s : State) (p : Nat) (f : PortSt → PortSt) : (State.modPort s p f).sec = s.sec := rfl
@[simp] theorem State.modPort_scriv (s : State) (p : Nat) (f : PortSt → PortSt) : (State.modPort s p f).scriv = s.scriv := rfl
@[simp] theorem State.modPort_boot (s : State) (p : Nat) (f : PortSt → PortSt) : (State.modPort s p f).boot = s.boot := rfl
@[simp] theorem State.modPort_flash (s : State) (p : Nat) (f : PortSt → PortSt) : (State.modPort s p f).flash = s.flash := rfl
@[simp] theorem State.modPort_irq (s : State) (p : Nat) (f : PortSt → PortSt) : (State.modPort s p f).irq = s.irq := rfl
@[simp] theorem State.modPort_rg (s : State) (p : Nat) (f : PortSt → PortSt) : (State.modPort s p f).rg = s.rg := rfl
@[simp] theorem State.modPort_tx (s : State) (p : Nat) (f : PortSt → PortSt) : (State.modPort s p f).tx = s.tx := rfl
@[simp] theorem State.modPort_freeCtr (s : State) (p : Nat) (f : PortSt → PortSt) : (State.modPort s p f).freeCtr = s.freeCtr := rfl
@[simp] theorem State.modPort_pending (s : State) (p : Nat) (f : PortSt → PortSt) : (State.modPort s p f).pending = s.pending := rfl
/-- What the update leaves at each index. -/
@[simp] theorem State.modPort_port (s : State) (p : Nat) (f : PortSt → PortSt) (j : Nat) : (State.modPort s p f).port j = if j = p then f (s.port p) else s.port j := by
  simp [State.port, State.modPort, Tbl.get_set]

/-! ## State.modTile -/

@[simp] theorem State.modTile_params (s : State) (t : Nat) (f : Tile → Tile) : (State.modTile s t f).params = s.params := rfl
@[simp] theorem State.modTile_time (s : State) (t : Nat) (f : Tile → Tile) : (State.modTile s t f).time = s.time := rfl
@[simp] theorem State.modTile_dpll (s : State) (t : Nat) (f : Tile → Tile) : (State.modTile s t f).dpll = s.dpll := rfl
@[simp] theorem State.modTile_tdc (s : State) (t : Nat) (f : Tile → Tile) : (State.modTile s t f).tdc = s.tdc := rfl
@[simp] theorem State.modTile_ports (s : State) (t : Nat) (f : Tile → Tile) : (State.modTile s t f).ports = s.ports := rfl
@[simp] theorem State.modTile_tsrc (s : State) (t : Nat) (f : Tile → Tile) : (State.modTile s t f).tsrc = s.tsrc := rfl
@[simp] theorem State.modTile_docket (s : State) (t : Nat) (f : Tile → Tile) : (State.modTile s t f).docket = s.docket := rfl
@[simp] theorem State.modTile_sync (s : State) (t : Nat) (f : Tile → Tile) : (State.modTile s t f).sync = s.sync := rfl
@[simp] theorem State.modTile_coll (s : State) (t : Nat) (f : Tile → Tile) : (State.modTile s t f).coll = s.coll := rfl
@[simp] theorem State.modTile_sched (s : State) (t : Nat) (f : Tile → Tile) : (State.modTile s t f).sched = s.sched := rfl
@[simp] theorem State.modTile_hm (s : State) (t : Nat) (f : Tile → Tile) : (State.modTile s t f).hm = s.hm := rfl
@[simp] theorem State.modTile_flt (s : State) (t : Nat) (f : Tile → Tile) : (State.modTile s t f).flt = s.flt := rfl
@[simp] theorem State.modTile_jm (s : State) (t : Nat) (f : Tile → Tile) : (State.modTile s t f).jm = s.jm := rfl
@[simp] theorem State.modTile_test (s : State) (t : Nat) (f : Tile → Tile) : (State.modTile s t f).test = s.test := rfl
@[simp] theorem State.modTile_pwr (s : State) (t : Nat) (f : Tile → Tile) : (State.modTile s t f).pwr = s.pwr := rfl
@[simp] theorem State.modTile_pair (s : State) (t : Nat) (f : Tile → Tile) : (State.modTile s t f).pair = s.pair := rfl
@[simp] theorem State.modTile_ctx (s : State) (t : Nat) (f : Tile → Tile) : (State.modTile s t f).ctx = s.ctx := rfl
@[simp] theorem State.modTile_sec (s : State) (t : Nat) (f : Tile → Tile) : (State.modTile s t f).sec = s.sec := rfl
@[simp] theorem State.modTile_scriv (s : State) (t : Nat) (f : Tile → Tile) : (State.modTile s t f).scriv = s.scriv := rfl
@[simp] theorem State.modTile_boot (s : State) (t : Nat) (f : Tile → Tile) : (State.modTile s t f).boot = s.boot := rfl
@[simp] theorem State.modTile_flash (s : State) (t : Nat) (f : Tile → Tile) : (State.modTile s t f).flash = s.flash := rfl
@[simp] theorem State.modTile_irq (s : State) (t : Nat) (f : Tile → Tile) : (State.modTile s t f).irq = s.irq := rfl
@[simp] theorem State.modTile_rg (s : State) (t : Nat) (f : Tile → Tile) : (State.modTile s t f).rg = s.rg := rfl
@[simp] theorem State.modTile_tx (s : State) (t : Nat) (f : Tile → Tile) : (State.modTile s t f).tx = s.tx := rfl
@[simp] theorem State.modTile_freeCtr (s : State) (t : Nat) (f : Tile → Tile) : (State.modTile s t f).freeCtr = s.freeCtr := rfl
@[simp] theorem State.modTile_pending (s : State) (t : Nat) (f : Tile → Tile) : (State.modTile s t f).pending = s.pending := rfl
/-- What the update leaves at each index. -/
@[simp] theorem State.modTile_tile (s : State) (t : Nat) (f : Tile → Tile) (j : Nat) : (State.modTile s t f).tile j = if j = t then f (s.tile t) else s.tile j := by
  simp [State.tile, State.modTile, Tbl.get_set]

/-! ## State.modSlot -/

@[simp] theorem State.modSlot_params (s : State) (c : Nat) (f : Ctx → Ctx) : (State.modSlot s c f).params = s.params := rfl
@[simp] theorem State.modSlot_time (s : State) (c : Nat) (f : Ctx → Ctx) : (State.modSlot s c f).time = s.time := rfl
@[simp] theorem State.modSlot_dpll (s : State) (c : Nat) (f : Ctx → Ctx) : (State.modSlot s c f).dpll = s.dpll := rfl
@[simp] theorem State.modSlot_tdc (s : State) (c : Nat) (f : Ctx → Ctx) : (State.modSlot s c f).tdc = s.tdc := rfl
@[simp] theorem State.modSlot_ports (s : State) (c : Nat) (f : Ctx → Ctx) : (State.modSlot s c f).ports = s.ports := rfl
@[simp] theorem State.modSlot_tsrc (s : State) (c : Nat) (f : Ctx → Ctx) : (State.modSlot s c f).tsrc = s.tsrc := rfl
@[simp] theorem State.modSlot_docket (s : State) (c : Nat) (f : Ctx → Ctx) : (State.modSlot s c f).docket = s.docket := rfl
@[simp] theorem State.modSlot_sync (s : State) (c : Nat) (f : Ctx → Ctx) : (State.modSlot s c f).sync = s.sync := rfl
@[simp] theorem State.modSlot_tiles (s : State) (c : Nat) (f : Ctx → Ctx) : (State.modSlot s c f).tiles = s.tiles := rfl
@[simp] theorem State.modSlot_coll (s : State) (c : Nat) (f : Ctx → Ctx) : (State.modSlot s c f).coll = s.coll := rfl
@[simp] theorem State.modSlot_sched (s : State) (c : Nat) (f : Ctx → Ctx) : (State.modSlot s c f).sched = s.sched := rfl
@[simp] theorem State.modSlot_hm (s : State) (c : Nat) (f : Ctx → Ctx) : (State.modSlot s c f).hm = s.hm := rfl
@[simp] theorem State.modSlot_flt (s : State) (c : Nat) (f : Ctx → Ctx) : (State.modSlot s c f).flt = s.flt := rfl
@[simp] theorem State.modSlot_jm (s : State) (c : Nat) (f : Ctx → Ctx) : (State.modSlot s c f).jm = s.jm := rfl
@[simp] theorem State.modSlot_test (s : State) (c : Nat) (f : Ctx → Ctx) : (State.modSlot s c f).test = s.test := rfl
@[simp] theorem State.modSlot_pwr (s : State) (c : Nat) (f : Ctx → Ctx) : (State.modSlot s c f).pwr = s.pwr := rfl
@[simp] theorem State.modSlot_pair (s : State) (c : Nat) (f : Ctx → Ctx) : (State.modSlot s c f).pair = s.pair := rfl
@[simp] theorem State.modSlot_sec (s : State) (c : Nat) (f : Ctx → Ctx) : (State.modSlot s c f).sec = s.sec := rfl
@[simp] theorem State.modSlot_scriv (s : State) (c : Nat) (f : Ctx → Ctx) : (State.modSlot s c f).scriv = s.scriv := rfl
@[simp] theorem State.modSlot_boot (s : State) (c : Nat) (f : Ctx → Ctx) : (State.modSlot s c f).boot = s.boot := rfl
@[simp] theorem State.modSlot_flash (s : State) (c : Nat) (f : Ctx → Ctx) : (State.modSlot s c f).flash = s.flash := rfl
@[simp] theorem State.modSlot_irq (s : State) (c : Nat) (f : Ctx → Ctx) : (State.modSlot s c f).irq = s.irq := rfl
@[simp] theorem State.modSlot_rg (s : State) (c : Nat) (f : Ctx → Ctx) : (State.modSlot s c f).rg = s.rg := rfl
@[simp] theorem State.modSlot_tx (s : State) (c : Nat) (f : Ctx → Ctx) : (State.modSlot s c f).tx = s.tx := rfl
@[simp] theorem State.modSlot_freeCtr (s : State) (c : Nat) (f : Ctx → Ctx) : (State.modSlot s c f).freeCtr = s.freeCtr := rfl
@[simp] theorem State.modSlot_pending (s : State) (c : Nat) (f : Ctx → Ctx) : (State.modSlot s c f).pending = s.pending := rfl
/-- What the update leaves at each index. -/
@[simp] theorem State.modSlot_slot (s : State) (c : Nat) (f : Ctx → Ctx) (j : Nat) : (State.modSlot s c f).slot j = if j = c then f (s.slot c) else s.slot j := by
  simp [State.slot, State.modSlot, Tbl.get_set]

/-! ## State.modQueue -/

@[simp] theorem State.modQueue_params (s : State) (q : Nat) (f : DkQueue → DkQueue) : (State.modQueue s q f).params = s.params := rfl
@[simp] theorem State.modQueue_time (s : State) (q : Nat) (f : DkQueue → DkQueue) : (State.modQueue s q f).time = s.time := rfl
@[simp] theorem State.modQueue_dpll (s : State) (q : Nat) (f : DkQueue → DkQueue) : (State.modQueue s q f).dpll = s.dpll := rfl
@[simp] theorem State.modQueue_tdc (s : State) (q : Nat) (f : DkQueue → DkQueue) : (State.modQueue s q f).tdc = s.tdc := rfl
@[simp] theorem State.modQueue_ports (s : State) (q : Nat) (f : DkQueue → DkQueue) : (State.modQueue s q f).ports = s.ports := rfl
@[simp] theorem State.modQueue_tsrc (s : State) (q : Nat) (f : DkQueue → DkQueue) : (State.modQueue s q f).tsrc = s.tsrc := rfl
@[simp] theorem State.modQueue_sync (s : State) (q : Nat) (f : DkQueue → DkQueue) : (State.modQueue s q f).sync = s.sync := rfl
@[simp] theorem State.modQueue_tiles (s : State) (q : Nat) (f : DkQueue → DkQueue) : (State.modQueue s q f).tiles = s.tiles := rfl
@[simp] theorem State.modQueue_coll (s : State) (q : Nat) (f : DkQueue → DkQueue) : (State.modQueue s q f).coll = s.coll := rfl
@[simp] theorem State.modQueue_sched (s : State) (q : Nat) (f : DkQueue → DkQueue) : (State.modQueue s q f).sched = s.sched := rfl
@[simp] theorem State.modQueue_hm (s : State) (q : Nat) (f : DkQueue → DkQueue) : (State.modQueue s q f).hm = s.hm := rfl
@[simp] theorem State.modQueue_flt (s : State) (q : Nat) (f : DkQueue → DkQueue) : (State.modQueue s q f).flt = s.flt := rfl
@[simp] theorem State.modQueue_jm (s : State) (q : Nat) (f : DkQueue → DkQueue) : (State.modQueue s q f).jm = s.jm := rfl
@[simp] theorem State.modQueue_test (s : State) (q : Nat) (f : DkQueue → DkQueue) : (State.modQueue s q f).test = s.test := rfl
@[simp] theorem State.modQueue_pwr (s : State) (q : Nat) (f : DkQueue → DkQueue) : (State.modQueue s q f).pwr = s.pwr := rfl
@[simp] theorem State.modQueue_pair (s : State) (q : Nat) (f : DkQueue → DkQueue) : (State.modQueue s q f).pair = s.pair := rfl
@[simp] theorem State.modQueue_ctx (s : State) (q : Nat) (f : DkQueue → DkQueue) : (State.modQueue s q f).ctx = s.ctx := rfl
@[simp] theorem State.modQueue_sec (s : State) (q : Nat) (f : DkQueue → DkQueue) : (State.modQueue s q f).sec = s.sec := rfl
@[simp] theorem State.modQueue_scriv (s : State) (q : Nat) (f : DkQueue → DkQueue) : (State.modQueue s q f).scriv = s.scriv := rfl
@[simp] theorem State.modQueue_boot (s : State) (q : Nat) (f : DkQueue → DkQueue) : (State.modQueue s q f).boot = s.boot := rfl
@[simp] theorem State.modQueue_flash (s : State) (q : Nat) (f : DkQueue → DkQueue) : (State.modQueue s q f).flash = s.flash := rfl
@[simp] theorem State.modQueue_irq (s : State) (q : Nat) (f : DkQueue → DkQueue) : (State.modQueue s q f).irq = s.irq := rfl
@[simp] theorem State.modQueue_rg (s : State) (q : Nat) (f : DkQueue → DkQueue) : (State.modQueue s q f).rg = s.rg := rfl
@[simp] theorem State.modQueue_tx (s : State) (q : Nat) (f : DkQueue → DkQueue) : (State.modQueue s q f).tx = s.tx := rfl
@[simp] theorem State.modQueue_freeCtr (s : State) (q : Nat) (f : DkQueue → DkQueue) : (State.modQueue s q f).freeCtr = s.freeCtr := rfl
@[simp] theorem State.modQueue_pending (s : State) (q : Nat) (f : DkQueue → DkQueue) : (State.modQueue s q f).pending = s.pending := rfl
/-- What the update leaves at each index. -/
@[simp] theorem State.modQueue_queue (s : State) (q : Nat) (f : DkQueue → DkQueue) (j : Nat) : (State.modQueue s q f).queue j = if j = q then f (s.queue q) else s.queue j := by
  simp [State.queue, State.modQueue, Tbl.get_set]

/-! ## State.setComp -/

@[simp] theorem State.setComp_params (s : State) (c : Nat) (u : CmpUser) : (State.setComp s c u).params = s.params := rfl
@[simp] theorem State.setComp_time (s : State) (c : Nat) (u : CmpUser) : (State.setComp s c u).time = s.time := rfl
@[simp] theorem State.setComp_dpll (s : State) (c : Nat) (u : CmpUser) : (State.setComp s c u).dpll = s.dpll := rfl
@[simp] theorem State.setComp_tdc (s : State) (c : Nat) (u : CmpUser) : (State.setComp s c u).tdc = s.tdc := rfl
@[simp] theorem State.setComp_ports (s : State) (c : Nat) (u : CmpUser) : (State.setComp s c u).ports = s.ports := rfl
@[simp] theorem State.setComp_tsrc (s : State) (c : Nat) (u : CmpUser) : (State.setComp s c u).tsrc = s.tsrc := rfl
@[simp] theorem State.setComp_sync (s : State) (c : Nat) (u : CmpUser) : (State.setComp s c u).sync = s.sync := rfl
@[simp] theorem State.setComp_tiles (s : State) (c : Nat) (u : CmpUser) : (State.setComp s c u).tiles = s.tiles := rfl
@[simp] theorem State.setComp_coll (s : State) (c : Nat) (u : CmpUser) : (State.setComp s c u).coll = s.coll := rfl
@[simp] theorem State.setComp_sched (s : State) (c : Nat) (u : CmpUser) : (State.setComp s c u).sched = s.sched := rfl
@[simp] theorem State.setComp_hm (s : State) (c : Nat) (u : CmpUser) : (State.setComp s c u).hm = s.hm := rfl
@[simp] theorem State.setComp_flt (s : State) (c : Nat) (u : CmpUser) : (State.setComp s c u).flt = s.flt := rfl
@[simp] theorem State.setComp_jm (s : State) (c : Nat) (u : CmpUser) : (State.setComp s c u).jm = s.jm := rfl
@[simp] theorem State.setComp_test (s : State) (c : Nat) (u : CmpUser) : (State.setComp s c u).test = s.test := rfl
@[simp] theorem State.setComp_pwr (s : State) (c : Nat) (u : CmpUser) : (State.setComp s c u).pwr = s.pwr := rfl
@[simp] theorem State.setComp_pair (s : State) (c : Nat) (u : CmpUser) : (State.setComp s c u).pair = s.pair := rfl
@[simp] theorem State.setComp_ctx (s : State) (c : Nat) (u : CmpUser) : (State.setComp s c u).ctx = s.ctx := rfl
@[simp] theorem State.setComp_sec (s : State) (c : Nat) (u : CmpUser) : (State.setComp s c u).sec = s.sec := rfl
@[simp] theorem State.setComp_scriv (s : State) (c : Nat) (u : CmpUser) : (State.setComp s c u).scriv = s.scriv := rfl
@[simp] theorem State.setComp_boot (s : State) (c : Nat) (u : CmpUser) : (State.setComp s c u).boot = s.boot := rfl
@[simp] theorem State.setComp_flash (s : State) (c : Nat) (u : CmpUser) : (State.setComp s c u).flash = s.flash := rfl
@[simp] theorem State.setComp_irq (s : State) (c : Nat) (u : CmpUser) : (State.setComp s c u).irq = s.irq := rfl
@[simp] theorem State.setComp_rg (s : State) (c : Nat) (u : CmpUser) : (State.setComp s c u).rg = s.rg := rfl
@[simp] theorem State.setComp_tx (s : State) (c : Nat) (u : CmpUser) : (State.setComp s c u).tx = s.tx := rfl
@[simp] theorem State.setComp_freeCtr (s : State) (c : Nat) (u : CmpUser) : (State.setComp s c u).freeCtr = s.freeCtr := rfl
@[simp] theorem State.setComp_pending (s : State) (c : Nat) (u : CmpUser) : (State.setComp s c u).pending = s.pending := rfl

/-! ## State.modFrame -/

@[simp] theorem State.modFrame_params (s : State) (c : Nat) (f : FrameCh → FrameCh) : (State.modFrame s c f).params = s.params := rfl
@[simp] theorem State.modFrame_time (s : State) (c : Nat) (f : FrameCh → FrameCh) : (State.modFrame s c f).time = s.time := rfl
@[simp] theorem State.modFrame_dpll (s : State) (c : Nat) (f : FrameCh → FrameCh) : (State.modFrame s c f).dpll = s.dpll := rfl
@[simp] theorem State.modFrame_tdc (s : State) (c : Nat) (f : FrameCh → FrameCh) : (State.modFrame s c f).tdc = s.tdc := rfl
@[simp] theorem State.modFrame_ports (s : State) (c : Nat) (f : FrameCh → FrameCh) : (State.modFrame s c f).ports = s.ports := rfl
@[simp] theorem State.modFrame_tsrc (s : State) (c : Nat) (f : FrameCh → FrameCh) : (State.modFrame s c f).tsrc = s.tsrc := rfl
@[simp] theorem State.modFrame_sync (s : State) (c : Nat) (f : FrameCh → FrameCh) : (State.modFrame s c f).sync = s.sync := rfl
@[simp] theorem State.modFrame_tiles (s : State) (c : Nat) (f : FrameCh → FrameCh) : (State.modFrame s c f).tiles = s.tiles := rfl
@[simp] theorem State.modFrame_coll (s : State) (c : Nat) (f : FrameCh → FrameCh) : (State.modFrame s c f).coll = s.coll := rfl
@[simp] theorem State.modFrame_sched (s : State) (c : Nat) (f : FrameCh → FrameCh) : (State.modFrame s c f).sched = s.sched := rfl
@[simp] theorem State.modFrame_hm (s : State) (c : Nat) (f : FrameCh → FrameCh) : (State.modFrame s c f).hm = s.hm := rfl
@[simp] theorem State.modFrame_flt (s : State) (c : Nat) (f : FrameCh → FrameCh) : (State.modFrame s c f).flt = s.flt := rfl
@[simp] theorem State.modFrame_jm (s : State) (c : Nat) (f : FrameCh → FrameCh) : (State.modFrame s c f).jm = s.jm := rfl
@[simp] theorem State.modFrame_test (s : State) (c : Nat) (f : FrameCh → FrameCh) : (State.modFrame s c f).test = s.test := rfl
@[simp] theorem State.modFrame_pwr (s : State) (c : Nat) (f : FrameCh → FrameCh) : (State.modFrame s c f).pwr = s.pwr := rfl
@[simp] theorem State.modFrame_pair (s : State) (c : Nat) (f : FrameCh → FrameCh) : (State.modFrame s c f).pair = s.pair := rfl
@[simp] theorem State.modFrame_ctx (s : State) (c : Nat) (f : FrameCh → FrameCh) : (State.modFrame s c f).ctx = s.ctx := rfl
@[simp] theorem State.modFrame_sec (s : State) (c : Nat) (f : FrameCh → FrameCh) : (State.modFrame s c f).sec = s.sec := rfl
@[simp] theorem State.modFrame_scriv (s : State) (c : Nat) (f : FrameCh → FrameCh) : (State.modFrame s c f).scriv = s.scriv := rfl
@[simp] theorem State.modFrame_boot (s : State) (c : Nat) (f : FrameCh → FrameCh) : (State.modFrame s c f).boot = s.boot := rfl
@[simp] theorem State.modFrame_flash (s : State) (c : Nat) (f : FrameCh → FrameCh) : (State.modFrame s c f).flash = s.flash := rfl
@[simp] theorem State.modFrame_irq (s : State) (c : Nat) (f : FrameCh → FrameCh) : (State.modFrame s c f).irq = s.irq := rfl
@[simp] theorem State.modFrame_rg (s : State) (c : Nat) (f : FrameCh → FrameCh) : (State.modFrame s c f).rg = s.rg := rfl
@[simp] theorem State.modFrame_tx (s : State) (c : Nat) (f : FrameCh → FrameCh) : (State.modFrame s c f).tx = s.tx := rfl
@[simp] theorem State.modFrame_freeCtr (s : State) (c : Nat) (f : FrameCh → FrameCh) : (State.modFrame s c f).freeCtr = s.freeCtr := rfl
@[simp] theorem State.modFrame_pending (s : State) (c : Nat) (f : FrameCh → FrameCh) : (State.modFrame s c f).pending = s.pending := rfl
/-- What the update leaves at each index. -/
@[simp] theorem State.modFrame_frame (s : State) (c : Nat) (f : FrameCh → FrameCh) (j : Nat) : (State.modFrame s c f).frame j = if j = c then f (s.frame c) else s.frame j := by
  simp [State.frame, State.modFrame, Tbl.get_set]

/-! ## State.modPo -/

@[simp] theorem State.modPo_params (s : State) (n : Nat) (f : PoSt → PoSt) : (State.modPo s n f).params = s.params := rfl
@[simp] theorem State.modPo_time (s : State) (n : Nat) (f : PoSt → PoSt) : (State.modPo s n f).time = s.time := rfl
@[simp] theorem State.modPo_dpll (s : State) (n : Nat) (f : PoSt → PoSt) : (State.modPo s n f).dpll = s.dpll := rfl
@[simp] theorem State.modPo_tdc (s : State) (n : Nat) (f : PoSt → PoSt) : (State.modPo s n f).tdc = s.tdc := rfl
@[simp] theorem State.modPo_ports (s : State) (n : Nat) (f : PoSt → PoSt) : (State.modPo s n f).ports = s.ports := rfl
@[simp] theorem State.modPo_tsrc (s : State) (n : Nat) (f : PoSt → PoSt) : (State.modPo s n f).tsrc = s.tsrc := rfl
@[simp] theorem State.modPo_sync (s : State) (n : Nat) (f : PoSt → PoSt) : (State.modPo s n f).sync = s.sync := rfl
@[simp] theorem State.modPo_tiles (s : State) (n : Nat) (f : PoSt → PoSt) : (State.modPo s n f).tiles = s.tiles := rfl
@[simp] theorem State.modPo_coll (s : State) (n : Nat) (f : PoSt → PoSt) : (State.modPo s n f).coll = s.coll := rfl
@[simp] theorem State.modPo_sched (s : State) (n : Nat) (f : PoSt → PoSt) : (State.modPo s n f).sched = s.sched := rfl
@[simp] theorem State.modPo_hm (s : State) (n : Nat) (f : PoSt → PoSt) : (State.modPo s n f).hm = s.hm := rfl
@[simp] theorem State.modPo_flt (s : State) (n : Nat) (f : PoSt → PoSt) : (State.modPo s n f).flt = s.flt := rfl
@[simp] theorem State.modPo_jm (s : State) (n : Nat) (f : PoSt → PoSt) : (State.modPo s n f).jm = s.jm := rfl
@[simp] theorem State.modPo_test (s : State) (n : Nat) (f : PoSt → PoSt) : (State.modPo s n f).test = s.test := rfl
@[simp] theorem State.modPo_pwr (s : State) (n : Nat) (f : PoSt → PoSt) : (State.modPo s n f).pwr = s.pwr := rfl
@[simp] theorem State.modPo_pair (s : State) (n : Nat) (f : PoSt → PoSt) : (State.modPo s n f).pair = s.pair := rfl
@[simp] theorem State.modPo_ctx (s : State) (n : Nat) (f : PoSt → PoSt) : (State.modPo s n f).ctx = s.ctx := rfl
@[simp] theorem State.modPo_sec (s : State) (n : Nat) (f : PoSt → PoSt) : (State.modPo s n f).sec = s.sec := rfl
@[simp] theorem State.modPo_scriv (s : State) (n : Nat) (f : PoSt → PoSt) : (State.modPo s n f).scriv = s.scriv := rfl
@[simp] theorem State.modPo_boot (s : State) (n : Nat) (f : PoSt → PoSt) : (State.modPo s n f).boot = s.boot := rfl
@[simp] theorem State.modPo_flash (s : State) (n : Nat) (f : PoSt → PoSt) : (State.modPo s n f).flash = s.flash := rfl
@[simp] theorem State.modPo_irq (s : State) (n : Nat) (f : PoSt → PoSt) : (State.modPo s n f).irq = s.irq := rfl
@[simp] theorem State.modPo_rg (s : State) (n : Nat) (f : PoSt → PoSt) : (State.modPo s n f).rg = s.rg := rfl
@[simp] theorem State.modPo_tx (s : State) (n : Nat) (f : PoSt → PoSt) : (State.modPo s n f).tx = s.tx := rfl
@[simp] theorem State.modPo_freeCtr (s : State) (n : Nat) (f : PoSt → PoSt) : (State.modPo s n f).freeCtr = s.freeCtr := rfl
@[simp] theorem State.modPo_pending (s : State) (n : Nat) (f : PoSt → PoSt) : (State.modPo s n f).pending = s.pending := rfl
/-- What the update leaves at each index. -/
@[simp] theorem State.modPo_po (s : State) (n : Nat) (f : PoSt → PoSt) (j : Nat) : (State.modPo s n f).po j = if j = n then f (s.po n) else s.po j := by
  simp [State.po, State.modPo, Tbl.get_set]

/-! ## State.modTdc -/

@[simp] theorem State.modTdc_params (s : State) (c : Nat) (f : TdcCh → TdcCh) : (State.modTdc s c f).params = s.params := rfl
@[simp] theorem State.modTdc_time (s : State) (c : Nat) (f : TdcCh → TdcCh) : (State.modTdc s c f).time = s.time := rfl
@[simp] theorem State.modTdc_dpll (s : State) (c : Nat) (f : TdcCh → TdcCh) : (State.modTdc s c f).dpll = s.dpll := rfl
@[simp] theorem State.modTdc_ports (s : State) (c : Nat) (f : TdcCh → TdcCh) : (State.modTdc s c f).ports = s.ports := rfl
@[simp] theorem State.modTdc_tsrc (s : State) (c : Nat) (f : TdcCh → TdcCh) : (State.modTdc s c f).tsrc = s.tsrc := rfl
@[simp] theorem State.modTdc_docket (s : State) (c : Nat) (f : TdcCh → TdcCh) : (State.modTdc s c f).docket = s.docket := rfl
@[simp] theorem State.modTdc_sync (s : State) (c : Nat) (f : TdcCh → TdcCh) : (State.modTdc s c f).sync = s.sync := rfl
@[simp] theorem State.modTdc_tiles (s : State) (c : Nat) (f : TdcCh → TdcCh) : (State.modTdc s c f).tiles = s.tiles := rfl
@[simp] theorem State.modTdc_coll (s : State) (c : Nat) (f : TdcCh → TdcCh) : (State.modTdc s c f).coll = s.coll := rfl
@[simp] theorem State.modTdc_sched (s : State) (c : Nat) (f : TdcCh → TdcCh) : (State.modTdc s c f).sched = s.sched := rfl
@[simp] theorem State.modTdc_hm (s : State) (c : Nat) (f : TdcCh → TdcCh) : (State.modTdc s c f).hm = s.hm := rfl
@[simp] theorem State.modTdc_flt (s : State) (c : Nat) (f : TdcCh → TdcCh) : (State.modTdc s c f).flt = s.flt := rfl
@[simp] theorem State.modTdc_jm (s : State) (c : Nat) (f : TdcCh → TdcCh) : (State.modTdc s c f).jm = s.jm := rfl
@[simp] theorem State.modTdc_test (s : State) (c : Nat) (f : TdcCh → TdcCh) : (State.modTdc s c f).test = s.test := rfl
@[simp] theorem State.modTdc_pwr (s : State) (c : Nat) (f : TdcCh → TdcCh) : (State.modTdc s c f).pwr = s.pwr := rfl
@[simp] theorem State.modTdc_pair (s : State) (c : Nat) (f : TdcCh → TdcCh) : (State.modTdc s c f).pair = s.pair := rfl
@[simp] theorem State.modTdc_ctx (s : State) (c : Nat) (f : TdcCh → TdcCh) : (State.modTdc s c f).ctx = s.ctx := rfl
@[simp] theorem State.modTdc_sec (s : State) (c : Nat) (f : TdcCh → TdcCh) : (State.modTdc s c f).sec = s.sec := rfl
@[simp] theorem State.modTdc_scriv (s : State) (c : Nat) (f : TdcCh → TdcCh) : (State.modTdc s c f).scriv = s.scriv := rfl
@[simp] theorem State.modTdc_boot (s : State) (c : Nat) (f : TdcCh → TdcCh) : (State.modTdc s c f).boot = s.boot := rfl
@[simp] theorem State.modTdc_flash (s : State) (c : Nat) (f : TdcCh → TdcCh) : (State.modTdc s c f).flash = s.flash := rfl
@[simp] theorem State.modTdc_irq (s : State) (c : Nat) (f : TdcCh → TdcCh) : (State.modTdc s c f).irq = s.irq := rfl
@[simp] theorem State.modTdc_rg (s : State) (c : Nat) (f : TdcCh → TdcCh) : (State.modTdc s c f).rg = s.rg := rfl
@[simp] theorem State.modTdc_tx (s : State) (c : Nat) (f : TdcCh → TdcCh) : (State.modTdc s c f).tx = s.tx := rfl
@[simp] theorem State.modTdc_freeCtr (s : State) (c : Nat) (f : TdcCh → TdcCh) : (State.modTdc s c f).freeCtr = s.freeCtr := rfl
@[simp] theorem State.modTdc_pending (s : State) (c : Nat) (f : TdcCh → TdcCh) : (State.modTdc s c f).pending = s.pending := rfl
/-- What the update leaves at each index. -/
@[simp] theorem State.modTdc_tdcCh (s : State) (c : Nat) (f : TdcCh → TdcCh) (j : Nat) : (State.modTdc s c f).tdcCh j = if j = c then f (s.tdcCh c) else s.tdcCh j := by
  simp [State.tdcCh, State.modTdc, Tbl.get_set]

/-! ## State.modRef -/

@[simp] theorem State.modRef_params (s : State) (n : Nat) (f : RefSt → RefSt) : (State.modRef s n f).params = s.params := rfl
@[simp] theorem State.modRef_time (s : State) (n : Nat) (f : RefSt → RefSt) : (State.modRef s n f).time = s.time := rfl
@[simp] theorem State.modRef_tdc (s : State) (n : Nat) (f : RefSt → RefSt) : (State.modRef s n f).tdc = s.tdc := rfl
@[simp] theorem State.modRef_ports (s : State) (n : Nat) (f : RefSt → RefSt) : (State.modRef s n f).ports = s.ports := rfl
@[simp] theorem State.modRef_tsrc (s : State) (n : Nat) (f : RefSt → RefSt) : (State.modRef s n f).tsrc = s.tsrc := rfl
@[simp] theorem State.modRef_docket (s : State) (n : Nat) (f : RefSt → RefSt) : (State.modRef s n f).docket = s.docket := rfl
@[simp] theorem State.modRef_sync (s : State) (n : Nat) (f : RefSt → RefSt) : (State.modRef s n f).sync = s.sync := rfl
@[simp] theorem State.modRef_tiles (s : State) (n : Nat) (f : RefSt → RefSt) : (State.modRef s n f).tiles = s.tiles := rfl
@[simp] theorem State.modRef_coll (s : State) (n : Nat) (f : RefSt → RefSt) : (State.modRef s n f).coll = s.coll := rfl
@[simp] theorem State.modRef_sched (s : State) (n : Nat) (f : RefSt → RefSt) : (State.modRef s n f).sched = s.sched := rfl
@[simp] theorem State.modRef_hm (s : State) (n : Nat) (f : RefSt → RefSt) : (State.modRef s n f).hm = s.hm := rfl
@[simp] theorem State.modRef_flt (s : State) (n : Nat) (f : RefSt → RefSt) : (State.modRef s n f).flt = s.flt := rfl
@[simp] theorem State.modRef_jm (s : State) (n : Nat) (f : RefSt → RefSt) : (State.modRef s n f).jm = s.jm := rfl
@[simp] theorem State.modRef_test (s : State) (n : Nat) (f : RefSt → RefSt) : (State.modRef s n f).test = s.test := rfl
@[simp] theorem State.modRef_pwr (s : State) (n : Nat) (f : RefSt → RefSt) : (State.modRef s n f).pwr = s.pwr := rfl
@[simp] theorem State.modRef_pair (s : State) (n : Nat) (f : RefSt → RefSt) : (State.modRef s n f).pair = s.pair := rfl
@[simp] theorem State.modRef_ctx (s : State) (n : Nat) (f : RefSt → RefSt) : (State.modRef s n f).ctx = s.ctx := rfl
@[simp] theorem State.modRef_sec (s : State) (n : Nat) (f : RefSt → RefSt) : (State.modRef s n f).sec = s.sec := rfl
@[simp] theorem State.modRef_scriv (s : State) (n : Nat) (f : RefSt → RefSt) : (State.modRef s n f).scriv = s.scriv := rfl
@[simp] theorem State.modRef_boot (s : State) (n : Nat) (f : RefSt → RefSt) : (State.modRef s n f).boot = s.boot := rfl
@[simp] theorem State.modRef_flash (s : State) (n : Nat) (f : RefSt → RefSt) : (State.modRef s n f).flash = s.flash := rfl
@[simp] theorem State.modRef_irq (s : State) (n : Nat) (f : RefSt → RefSt) : (State.modRef s n f).irq = s.irq := rfl
@[simp] theorem State.modRef_rg (s : State) (n : Nat) (f : RefSt → RefSt) : (State.modRef s n f).rg = s.rg := rfl
@[simp] theorem State.modRef_tx (s : State) (n : Nat) (f : RefSt → RefSt) : (State.modRef s n f).tx = s.tx := rfl
@[simp] theorem State.modRef_freeCtr (s : State) (n : Nat) (f : RefSt → RefSt) : (State.modRef s n f).freeCtr = s.freeCtr := rfl
@[simp] theorem State.modRef_pending (s : State) (n : Nat) (f : RefSt → RefSt) : (State.modRef s n f).pending = s.pending := rfl
/-- What the update leaves at each index. -/
@[simp] theorem State.modRef_ref (s : State) (n : Nat) (f : RefSt → RefSt) (j : Nat) : (State.modRef s n f).ref j = if j = n then f (s.ref n) else s.ref j := by
  simp [State.ref, State.modRef, Tbl.get_set]

/-! ## State.modWaiter -/

@[simp] theorem State.modWaiter_params (s : State) (w : Nat) (f : Waiter → Waiter) : (State.modWaiter s w f).params = s.params := rfl
@[simp] theorem State.modWaiter_time (s : State) (w : Nat) (f : Waiter → Waiter) : (State.modWaiter s w f).time = s.time := rfl
@[simp] theorem State.modWaiter_dpll (s : State) (w : Nat) (f : Waiter → Waiter) : (State.modWaiter s w f).dpll = s.dpll := rfl
@[simp] theorem State.modWaiter_tdc (s : State) (w : Nat) (f : Waiter → Waiter) : (State.modWaiter s w f).tdc = s.tdc := rfl
@[simp] theorem State.modWaiter_ports (s : State) (w : Nat) (f : Waiter → Waiter) : (State.modWaiter s w f).ports = s.ports := rfl
@[simp] theorem State.modWaiter_tsrc (s : State) (w : Nat) (f : Waiter → Waiter) : (State.modWaiter s w f).tsrc = s.tsrc := rfl
@[simp] theorem State.modWaiter_docket (s : State) (w : Nat) (f : Waiter → Waiter) : (State.modWaiter s w f).docket = s.docket := rfl
@[simp] theorem State.modWaiter_tiles (s : State) (w : Nat) (f : Waiter → Waiter) : (State.modWaiter s w f).tiles = s.tiles := rfl
@[simp] theorem State.modWaiter_coll (s : State) (w : Nat) (f : Waiter → Waiter) : (State.modWaiter s w f).coll = s.coll := rfl
@[simp] theorem State.modWaiter_sched (s : State) (w : Nat) (f : Waiter → Waiter) : (State.modWaiter s w f).sched = s.sched := rfl
@[simp] theorem State.modWaiter_hm (s : State) (w : Nat) (f : Waiter → Waiter) : (State.modWaiter s w f).hm = s.hm := rfl
@[simp] theorem State.modWaiter_flt (s : State) (w : Nat) (f : Waiter → Waiter) : (State.modWaiter s w f).flt = s.flt := rfl
@[simp] theorem State.modWaiter_jm (s : State) (w : Nat) (f : Waiter → Waiter) : (State.modWaiter s w f).jm = s.jm := rfl
@[simp] theorem State.modWaiter_test (s : State) (w : Nat) (f : Waiter → Waiter) : (State.modWaiter s w f).test = s.test := rfl
@[simp] theorem State.modWaiter_pwr (s : State) (w : Nat) (f : Waiter → Waiter) : (State.modWaiter s w f).pwr = s.pwr := rfl
@[simp] theorem State.modWaiter_pair (s : State) (w : Nat) (f : Waiter → Waiter) : (State.modWaiter s w f).pair = s.pair := rfl
@[simp] theorem State.modWaiter_ctx (s : State) (w : Nat) (f : Waiter → Waiter) : (State.modWaiter s w f).ctx = s.ctx := rfl
@[simp] theorem State.modWaiter_sec (s : State) (w : Nat) (f : Waiter → Waiter) : (State.modWaiter s w f).sec = s.sec := rfl
@[simp] theorem State.modWaiter_scriv (s : State) (w : Nat) (f : Waiter → Waiter) : (State.modWaiter s w f).scriv = s.scriv := rfl
@[simp] theorem State.modWaiter_boot (s : State) (w : Nat) (f : Waiter → Waiter) : (State.modWaiter s w f).boot = s.boot := rfl
@[simp] theorem State.modWaiter_flash (s : State) (w : Nat) (f : Waiter → Waiter) : (State.modWaiter s w f).flash = s.flash := rfl
@[simp] theorem State.modWaiter_irq (s : State) (w : Nat) (f : Waiter → Waiter) : (State.modWaiter s w f).irq = s.irq := rfl
@[simp] theorem State.modWaiter_rg (s : State) (w : Nat) (f : Waiter → Waiter) : (State.modWaiter s w f).rg = s.rg := rfl
@[simp] theorem State.modWaiter_tx (s : State) (w : Nat) (f : Waiter → Waiter) : (State.modWaiter s w f).tx = s.tx := rfl
@[simp] theorem State.modWaiter_freeCtr (s : State) (w : Nat) (f : Waiter → Waiter) : (State.modWaiter s w f).freeCtr = s.freeCtr := rfl
@[simp] theorem State.modWaiter_pending (s : State) (w : Nat) (f : Waiter → Waiter) : (State.modWaiter s w f).pending = s.pending := rfl
/-- What the update leaves at each index. -/
@[simp] theorem State.modWaiter_waiter (s : State) (w : Nat) (f : Waiter → Waiter) (j : Nat) : (State.modWaiter s w f).waiter j = if j = w then f (s.waiter w) else s.waiter j := by
  simp [State.waiter, State.modWaiter, Tbl.get_set]

/-! ## State.modMb -/

@[simp] theorem State.modMb_params (s : State) (m : Nat) (f : Mailbox → Mailbox) : (State.modMb s m f).params = s.params := rfl
@[simp] theorem State.modMb_time (s : State) (m : Nat) (f : Mailbox → Mailbox) : (State.modMb s m f).time = s.time := rfl
@[simp] theorem State.modMb_dpll (s : State) (m : Nat) (f : Mailbox → Mailbox) : (State.modMb s m f).dpll = s.dpll := rfl
@[simp] theorem State.modMb_tdc (s : State) (m : Nat) (f : Mailbox → Mailbox) : (State.modMb s m f).tdc = s.tdc := rfl
@[simp] theorem State.modMb_ports (s : State) (m : Nat) (f : Mailbox → Mailbox) : (State.modMb s m f).ports = s.ports := rfl
@[simp] theorem State.modMb_tsrc (s : State) (m : Nat) (f : Mailbox → Mailbox) : (State.modMb s m f).tsrc = s.tsrc := rfl
@[simp] theorem State.modMb_docket (s : State) (m : Nat) (f : Mailbox → Mailbox) : (State.modMb s m f).docket = s.docket := rfl
@[simp] theorem State.modMb_sync (s : State) (m : Nat) (f : Mailbox → Mailbox) : (State.modMb s m f).sync = s.sync := rfl
@[simp] theorem State.modMb_tiles (s : State) (m : Nat) (f : Mailbox → Mailbox) : (State.modMb s m f).tiles = s.tiles := rfl
@[simp] theorem State.modMb_coll (s : State) (m : Nat) (f : Mailbox → Mailbox) : (State.modMb s m f).coll = s.coll := rfl
@[simp] theorem State.modMb_sched (s : State) (m : Nat) (f : Mailbox → Mailbox) : (State.modMb s m f).sched = s.sched := rfl
@[simp] theorem State.modMb_hm (s : State) (m : Nat) (f : Mailbox → Mailbox) : (State.modMb s m f).hm = s.hm := rfl
@[simp] theorem State.modMb_flt (s : State) (m : Nat) (f : Mailbox → Mailbox) : (State.modMb s m f).flt = s.flt := rfl
@[simp] theorem State.modMb_jm (s : State) (m : Nat) (f : Mailbox → Mailbox) : (State.modMb s m f).jm = s.jm := rfl
@[simp] theorem State.modMb_test (s : State) (m : Nat) (f : Mailbox → Mailbox) : (State.modMb s m f).test = s.test := rfl
@[simp] theorem State.modMb_pwr (s : State) (m : Nat) (f : Mailbox → Mailbox) : (State.modMb s m f).pwr = s.pwr := rfl
@[simp] theorem State.modMb_pair (s : State) (m : Nat) (f : Mailbox → Mailbox) : (State.modMb s m f).pair = s.pair := rfl
@[simp] theorem State.modMb_ctx (s : State) (m : Nat) (f : Mailbox → Mailbox) : (State.modMb s m f).ctx = s.ctx := rfl
@[simp] theorem State.modMb_sec (s : State) (m : Nat) (f : Mailbox → Mailbox) : (State.modMb s m f).sec = s.sec := rfl
@[simp] theorem State.modMb_boot (s : State) (m : Nat) (f : Mailbox → Mailbox) : (State.modMb s m f).boot = s.boot := rfl
@[simp] theorem State.modMb_flash (s : State) (m : Nat) (f : Mailbox → Mailbox) : (State.modMb s m f).flash = s.flash := rfl
@[simp] theorem State.modMb_irq (s : State) (m : Nat) (f : Mailbox → Mailbox) : (State.modMb s m f).irq = s.irq := rfl
@[simp] theorem State.modMb_rg (s : State) (m : Nat) (f : Mailbox → Mailbox) : (State.modMb s m f).rg = s.rg := rfl
@[simp] theorem State.modMb_tx (s : State) (m : Nat) (f : Mailbox → Mailbox) : (State.modMb s m f).tx = s.tx := rfl
@[simp] theorem State.modMb_freeCtr (s : State) (m : Nat) (f : Mailbox → Mailbox) : (State.modMb s m f).freeCtr = s.freeCtr := rfl
@[simp] theorem State.modMb_pending (s : State) (m : Nat) (f : Mailbox → Mailbox) : (State.modMb s m f).pending = s.pending := rfl
/-- What the update leaves at each index. -/
@[simp] theorem State.modMb_mb (s : State) (m : Nat) (f : Mailbox → Mailbox) (j : Nat) : (State.modMb s m f).mb j = if j = m then f (s.mb m) else s.mb j := by
  simp [State.mb, State.modMb, Tbl.get_set]

/-! ## State.modChan -/

@[simp] theorem State.modChan_params (s : State) (c : Nat) (f : Chan → Chan) : (State.modChan s c f).params = s.params := rfl
@[simp] theorem State.modChan_time (s : State) (c : Nat) (f : Chan → Chan) : (State.modChan s c f).time = s.time := rfl
@[simp] theorem State.modChan_dpll (s : State) (c : Nat) (f : Chan → Chan) : (State.modChan s c f).dpll = s.dpll := rfl
@[simp] theorem State.modChan_tdc (s : State) (c : Nat) (f : Chan → Chan) : (State.modChan s c f).tdc = s.tdc := rfl
@[simp] theorem State.modChan_ports (s : State) (c : Nat) (f : Chan → Chan) : (State.modChan s c f).ports = s.ports := rfl
@[simp] theorem State.modChan_tsrc (s : State) (c : Nat) (f : Chan → Chan) : (State.modChan s c f).tsrc = s.tsrc := rfl
@[simp] theorem State.modChan_docket (s : State) (c : Nat) (f : Chan → Chan) : (State.modChan s c f).docket = s.docket := rfl
@[simp] theorem State.modChan_sync (s : State) (c : Nat) (f : Chan → Chan) : (State.modChan s c f).sync = s.sync := rfl
@[simp] theorem State.modChan_tiles (s : State) (c : Nat) (f : Chan → Chan) : (State.modChan s c f).tiles = s.tiles := rfl
@[simp] theorem State.modChan_coll (s : State) (c : Nat) (f : Chan → Chan) : (State.modChan s c f).coll = s.coll := rfl
@[simp] theorem State.modChan_sched (s : State) (c : Nat) (f : Chan → Chan) : (State.modChan s c f).sched = s.sched := rfl
@[simp] theorem State.modChan_hm (s : State) (c : Nat) (f : Chan → Chan) : (State.modChan s c f).hm = s.hm := rfl
@[simp] theorem State.modChan_flt (s : State) (c : Nat) (f : Chan → Chan) : (State.modChan s c f).flt = s.flt := rfl
@[simp] theorem State.modChan_test (s : State) (c : Nat) (f : Chan → Chan) : (State.modChan s c f).test = s.test := rfl
@[simp] theorem State.modChan_pwr (s : State) (c : Nat) (f : Chan → Chan) : (State.modChan s c f).pwr = s.pwr := rfl
@[simp] theorem State.modChan_pair (s : State) (c : Nat) (f : Chan → Chan) : (State.modChan s c f).pair = s.pair := rfl
@[simp] theorem State.modChan_ctx (s : State) (c : Nat) (f : Chan → Chan) : (State.modChan s c f).ctx = s.ctx := rfl
@[simp] theorem State.modChan_sec (s : State) (c : Nat) (f : Chan → Chan) : (State.modChan s c f).sec = s.sec := rfl
@[simp] theorem State.modChan_scriv (s : State) (c : Nat) (f : Chan → Chan) : (State.modChan s c f).scriv = s.scriv := rfl
@[simp] theorem State.modChan_boot (s : State) (c : Nat) (f : Chan → Chan) : (State.modChan s c f).boot = s.boot := rfl
@[simp] theorem State.modChan_flash (s : State) (c : Nat) (f : Chan → Chan) : (State.modChan s c f).flash = s.flash := rfl
@[simp] theorem State.modChan_irq (s : State) (c : Nat) (f : Chan → Chan) : (State.modChan s c f).irq = s.irq := rfl
@[simp] theorem State.modChan_rg (s : State) (c : Nat) (f : Chan → Chan) : (State.modChan s c f).rg = s.rg := rfl
@[simp] theorem State.modChan_tx (s : State) (c : Nat) (f : Chan → Chan) : (State.modChan s c f).tx = s.tx := rfl
@[simp] theorem State.modChan_freeCtr (s : State) (c : Nat) (f : Chan → Chan) : (State.modChan s c f).freeCtr = s.freeCtr := rfl
@[simp] theorem State.modChan_pending (s : State) (c : Nat) (f : Chan → Chan) : (State.modChan s c f).pending = s.pending := rfl
/-- What the update leaves at each index. -/
@[simp] theorem State.modChan_chan (s : State) (c : Nat) (f : Chan → Chan) (j : Nat) : (State.modChan s c f).chan j = if j = c then f (s.chan c) else s.chan j := by
  simp [State.chan, State.modChan, Tbl.get_set]

/-! ## State.modPage -/

@[simp] theorem State.modPage_params (s : State) (p : Nat) (f : Page → Page) : (State.modPage s p f).params = s.params := rfl
@[simp] theorem State.modPage_time (s : State) (p : Nat) (f : Page → Page) : (State.modPage s p f).time = s.time := rfl
@[simp] theorem State.modPage_dpll (s : State) (p : Nat) (f : Page → Page) : (State.modPage s p f).dpll = s.dpll := rfl
@[simp] theorem State.modPage_tdc (s : State) (p : Nat) (f : Page → Page) : (State.modPage s p f).tdc = s.tdc := rfl
@[simp] theorem State.modPage_ports (s : State) (p : Nat) (f : Page → Page) : (State.modPage s p f).ports = s.ports := rfl
@[simp] theorem State.modPage_tsrc (s : State) (p : Nat) (f : Page → Page) : (State.modPage s p f).tsrc = s.tsrc := rfl
@[simp] theorem State.modPage_docket (s : State) (p : Nat) (f : Page → Page) : (State.modPage s p f).docket = s.docket := rfl
@[simp] theorem State.modPage_sync (s : State) (p : Nat) (f : Page → Page) : (State.modPage s p f).sync = s.sync := rfl
@[simp] theorem State.modPage_tiles (s : State) (p : Nat) (f : Page → Page) : (State.modPage s p f).tiles = s.tiles := rfl
@[simp] theorem State.modPage_coll (s : State) (p : Nat) (f : Page → Page) : (State.modPage s p f).coll = s.coll := rfl
@[simp] theorem State.modPage_sched (s : State) (p : Nat) (f : Page → Page) : (State.modPage s p f).sched = s.sched := rfl
@[simp] theorem State.modPage_hm (s : State) (p : Nat) (f : Page → Page) : (State.modPage s p f).hm = s.hm := rfl
@[simp] theorem State.modPage_flt (s : State) (p : Nat) (f : Page → Page) : (State.modPage s p f).flt = s.flt := rfl
@[simp] theorem State.modPage_test (s : State) (p : Nat) (f : Page → Page) : (State.modPage s p f).test = s.test := rfl
@[simp] theorem State.modPage_pwr (s : State) (p : Nat) (f : Page → Page) : (State.modPage s p f).pwr = s.pwr := rfl
@[simp] theorem State.modPage_pair (s : State) (p : Nat) (f : Page → Page) : (State.modPage s p f).pair = s.pair := rfl
@[simp] theorem State.modPage_ctx (s : State) (p : Nat) (f : Page → Page) : (State.modPage s p f).ctx = s.ctx := rfl
@[simp] theorem State.modPage_sec (s : State) (p : Nat) (f : Page → Page) : (State.modPage s p f).sec = s.sec := rfl
@[simp] theorem State.modPage_scriv (s : State) (p : Nat) (f : Page → Page) : (State.modPage s p f).scriv = s.scriv := rfl
@[simp] theorem State.modPage_boot (s : State) (p : Nat) (f : Page → Page) : (State.modPage s p f).boot = s.boot := rfl
@[simp] theorem State.modPage_flash (s : State) (p : Nat) (f : Page → Page) : (State.modPage s p f).flash = s.flash := rfl
@[simp] theorem State.modPage_irq (s : State) (p : Nat) (f : Page → Page) : (State.modPage s p f).irq = s.irq := rfl
@[simp] theorem State.modPage_rg (s : State) (p : Nat) (f : Page → Page) : (State.modPage s p f).rg = s.rg := rfl
@[simp] theorem State.modPage_tx (s : State) (p : Nat) (f : Page → Page) : (State.modPage s p f).tx = s.tx := rfl
@[simp] theorem State.modPage_freeCtr (s : State) (p : Nat) (f : Page → Page) : (State.modPage s p f).freeCtr = s.freeCtr := rfl
@[simp] theorem State.modPage_pending (s : State) (p : Nat) (f : Page → Page) : (State.modPage s p f).pending = s.pending := rfl
/-- What the update leaves at each index. -/
@[simp] theorem State.modPage_jpage (s : State) (p : Nat) (f : Page → Page) (j : Nat) : (State.modPage s p f).jpage j = if j = p then f (s.jpage p) else s.jpage j := by
  simp [State.jpage, State.modPage, Tbl.get_set]

/-! ## State.modGrp -/

@[simp] theorem State.modGrp_params (s : State) (g : Nat) (f : Grp → Grp) : (State.modGrp s g f).params = s.params := rfl
@[simp] theorem State.modGrp_time (s : State) (g : Nat) (f : Grp → Grp) : (State.modGrp s g f).time = s.time := rfl
@[simp] theorem State.modGrp_dpll (s : State) (g : Nat) (f : Grp → Grp) : (State.modGrp s g f).dpll = s.dpll := rfl
@[simp] theorem State.modGrp_tdc (s : State) (g : Nat) (f : Grp → Grp) : (State.modGrp s g f).tdc = s.tdc := rfl
@[simp] theorem State.modGrp_ports (s : State) (g : Nat) (f : Grp → Grp) : (State.modGrp s g f).ports = s.ports := rfl
@[simp] theorem State.modGrp_tsrc (s : State) (g : Nat) (f : Grp → Grp) : (State.modGrp s g f).tsrc = s.tsrc := rfl
@[simp] theorem State.modGrp_docket (s : State) (g : Nat) (f : Grp → Grp) : (State.modGrp s g f).docket = s.docket := rfl
@[simp] theorem State.modGrp_sync (s : State) (g : Nat) (f : Grp → Grp) : (State.modGrp s g f).sync = s.sync := rfl
@[simp] theorem State.modGrp_tiles (s : State) (g : Nat) (f : Grp → Grp) : (State.modGrp s g f).tiles = s.tiles := rfl
@[simp] theorem State.modGrp_coll (s : State) (g : Nat) (f : Grp → Grp) : (State.modGrp s g f).coll = s.coll := rfl
@[simp] theorem State.modGrp_sched (s : State) (g : Nat) (f : Grp → Grp) : (State.modGrp s g f).sched = s.sched := rfl
@[simp] theorem State.modGrp_hm (s : State) (g : Nat) (f : Grp → Grp) : (State.modGrp s g f).hm = s.hm := rfl
@[simp] theorem State.modGrp_flt (s : State) (g : Nat) (f : Grp → Grp) : (State.modGrp s g f).flt = s.flt := rfl
@[simp] theorem State.modGrp_jm (s : State) (g : Nat) (f : Grp → Grp) : (State.modGrp s g f).jm = s.jm := rfl
@[simp] theorem State.modGrp_test (s : State) (g : Nat) (f : Grp → Grp) : (State.modGrp s g f).test = s.test := rfl
@[simp] theorem State.modGrp_pair (s : State) (g : Nat) (f : Grp → Grp) : (State.modGrp s g f).pair = s.pair := rfl
@[simp] theorem State.modGrp_ctx (s : State) (g : Nat) (f : Grp → Grp) : (State.modGrp s g f).ctx = s.ctx := rfl
@[simp] theorem State.modGrp_sec (s : State) (g : Nat) (f : Grp → Grp) : (State.modGrp s g f).sec = s.sec := rfl
@[simp] theorem State.modGrp_scriv (s : State) (g : Nat) (f : Grp → Grp) : (State.modGrp s g f).scriv = s.scriv := rfl
@[simp] theorem State.modGrp_boot (s : State) (g : Nat) (f : Grp → Grp) : (State.modGrp s g f).boot = s.boot := rfl
@[simp] theorem State.modGrp_flash (s : State) (g : Nat) (f : Grp → Grp) : (State.modGrp s g f).flash = s.flash := rfl
@[simp] theorem State.modGrp_irq (s : State) (g : Nat) (f : Grp → Grp) : (State.modGrp s g f).irq = s.irq := rfl
@[simp] theorem State.modGrp_rg (s : State) (g : Nat) (f : Grp → Grp) : (State.modGrp s g f).rg = s.rg := rfl
@[simp] theorem State.modGrp_tx (s : State) (g : Nat) (f : Grp → Grp) : (State.modGrp s g f).tx = s.tx := rfl
@[simp] theorem State.modGrp_freeCtr (s : State) (g : Nat) (f : Grp → Grp) : (State.modGrp s g f).freeCtr = s.freeCtr := rfl
@[simp] theorem State.modGrp_pending (s : State) (g : Nat) (f : Grp → Grp) : (State.modGrp s g f).pending = s.pending := rfl
/-- What the update leaves at each index. -/
@[simp] theorem State.modGrp_grp (s : State) (g : Nat) (f : Grp → Grp) (j : Nat) : (State.modGrp s g f).grp j = if j = g then f (s.grp g) else s.grp j := by
  simp [State.grp, State.modGrp, Tbl.get_set]

/-! ## State.modDom -/

@[simp] theorem State.modDom_params (s : State) (d : Nat) (f : Dom → Dom) : (State.modDom s d f).params = s.params := rfl
@[simp] theorem State.modDom_time (s : State) (d : Nat) (f : Dom → Dom) : (State.modDom s d f).time = s.time := rfl
@[simp] theorem State.modDom_dpll (s : State) (d : Nat) (f : Dom → Dom) : (State.modDom s d f).dpll = s.dpll := rfl
@[simp] theorem State.modDom_tdc (s : State) (d : Nat) (f : Dom → Dom) : (State.modDom s d f).tdc = s.tdc := rfl
@[simp] theorem State.modDom_ports (s : State) (d : Nat) (f : Dom → Dom) : (State.modDom s d f).ports = s.ports := rfl
@[simp] theorem State.modDom_tsrc (s : State) (d : Nat) (f : Dom → Dom) : (State.modDom s d f).tsrc = s.tsrc := rfl
@[simp] theorem State.modDom_docket (s : State) (d : Nat) (f : Dom → Dom) : (State.modDom s d f).docket = s.docket := rfl
@[simp] theorem State.modDom_sync (s : State) (d : Nat) (f : Dom → Dom) : (State.modDom s d f).sync = s.sync := rfl
@[simp] theorem State.modDom_tiles (s : State) (d : Nat) (f : Dom → Dom) : (State.modDom s d f).tiles = s.tiles := rfl
@[simp] theorem State.modDom_coll (s : State) (d : Nat) (f : Dom → Dom) : (State.modDom s d f).coll = s.coll := rfl
@[simp] theorem State.modDom_sched (s : State) (d : Nat) (f : Dom → Dom) : (State.modDom s d f).sched = s.sched := rfl
@[simp] theorem State.modDom_hm (s : State) (d : Nat) (f : Dom → Dom) : (State.modDom s d f).hm = s.hm := rfl
@[simp] theorem State.modDom_flt (s : State) (d : Nat) (f : Dom → Dom) : (State.modDom s d f).flt = s.flt := rfl
@[simp] theorem State.modDom_jm (s : State) (d : Nat) (f : Dom → Dom) : (State.modDom s d f).jm = s.jm := rfl
@[simp] theorem State.modDom_test (s : State) (d : Nat) (f : Dom → Dom) : (State.modDom s d f).test = s.test := rfl
@[simp] theorem State.modDom_pair (s : State) (d : Nat) (f : Dom → Dom) : (State.modDom s d f).pair = s.pair := rfl
@[simp] theorem State.modDom_ctx (s : State) (d : Nat) (f : Dom → Dom) : (State.modDom s d f).ctx = s.ctx := rfl
@[simp] theorem State.modDom_sec (s : State) (d : Nat) (f : Dom → Dom) : (State.modDom s d f).sec = s.sec := rfl
@[simp] theorem State.modDom_scriv (s : State) (d : Nat) (f : Dom → Dom) : (State.modDom s d f).scriv = s.scriv := rfl
@[simp] theorem State.modDom_boot (s : State) (d : Nat) (f : Dom → Dom) : (State.modDom s d f).boot = s.boot := rfl
@[simp] theorem State.modDom_flash (s : State) (d : Nat) (f : Dom → Dom) : (State.modDom s d f).flash = s.flash := rfl
@[simp] theorem State.modDom_irq (s : State) (d : Nat) (f : Dom → Dom) : (State.modDom s d f).irq = s.irq := rfl
@[simp] theorem State.modDom_rg (s : State) (d : Nat) (f : Dom → Dom) : (State.modDom s d f).rg = s.rg := rfl
@[simp] theorem State.modDom_tx (s : State) (d : Nat) (f : Dom → Dom) : (State.modDom s d f).tx = s.tx := rfl
@[simp] theorem State.modDom_freeCtr (s : State) (d : Nat) (f : Dom → Dom) : (State.modDom s d f).freeCtr = s.freeCtr := rfl
@[simp] theorem State.modDom_pending (s : State) (d : Nat) (f : Dom → Dom) : (State.modDom s d f).pending = s.pending := rfl
/-- What the update leaves at each index. -/
@[simp] theorem State.modDom_dom (s : State) (d : Nat) (f : Dom → Dom) (j : Nat) : (State.modDom s d f).dom j = if j = d then f (s.dom d) else s.dom j := by
  simp [State.dom, State.modDom, Tbl.get_set]

/-! ## State.drawn -/

@[simp] theorem State.drawn_params (s : State) : (State.drawn s).params = s.params := rfl
@[simp] theorem State.drawn_time (s : State) : (State.drawn s).time = s.time := rfl
@[simp] theorem State.drawn_dpll (s : State) : (State.drawn s).dpll = s.dpll := rfl
@[simp] theorem State.drawn_tdc (s : State) : (State.drawn s).tdc = s.tdc := rfl
@[simp] theorem State.drawn_ports (s : State) : (State.drawn s).ports = s.ports := rfl
@[simp] theorem State.drawn_tsrc (s : State) : (State.drawn s).tsrc = s.tsrc := rfl
@[simp] theorem State.drawn_docket (s : State) : (State.drawn s).docket = s.docket := rfl
@[simp] theorem State.drawn_sync (s : State) : (State.drawn s).sync = s.sync := rfl
@[simp] theorem State.drawn_tiles (s : State) : (State.drawn s).tiles = s.tiles := rfl
@[simp] theorem State.drawn_coll (s : State) : (State.drawn s).coll = s.coll := rfl
@[simp] theorem State.drawn_sched (s : State) : (State.drawn s).sched = s.sched := rfl
@[simp] theorem State.drawn_hm (s : State) : (State.drawn s).hm = s.hm := rfl
@[simp] theorem State.drawn_flt (s : State) : (State.drawn s).flt = s.flt := rfl
@[simp] theorem State.drawn_jm (s : State) : (State.drawn s).jm = s.jm := rfl
@[simp] theorem State.drawn_test (s : State) : (State.drawn s).test = s.test := rfl
@[simp] theorem State.drawn_pwr (s : State) : (State.drawn s).pwr = s.pwr := rfl
@[simp] theorem State.drawn_pair (s : State) : (State.drawn s).pair = s.pair := rfl
@[simp] theorem State.drawn_ctx (s : State) : (State.drawn s).ctx = s.ctx := rfl
@[simp] theorem State.drawn_sec (s : State) : (State.drawn s).sec = s.sec := rfl
@[simp] theorem State.drawn_scriv (s : State) : (State.drawn s).scriv = s.scriv := rfl
@[simp] theorem State.drawn_boot (s : State) : (State.drawn s).boot = s.boot := rfl
@[simp] theorem State.drawn_flash (s : State) : (State.drawn s).flash = s.flash := rfl
@[simp] theorem State.drawn_irq (s : State) : (State.drawn s).irq = s.irq := rfl
@[simp] theorem State.drawn_rg (s : State) : (State.drawn s).rg = s.rg := rfl
@[simp] theorem State.drawn_tx (s : State) : (State.drawn s).tx = s.tx := rfl
@[simp] theorem State.drawn_pending (s : State) : (State.drawn s).pending = s.pending := rfl

/-! ## State.setTr -/

@[simp] theorem State.setTr_params (s : State) (c vid : Nat) (e : TrEntry) : (State.setTr s c vid e).params = s.params := rfl
@[simp] theorem State.setTr_time (s : State) (c vid : Nat) (e : TrEntry) : (State.setTr s c vid e).time = s.time := rfl
@[simp] theorem State.setTr_dpll (s : State) (c vid : Nat) (e : TrEntry) : (State.setTr s c vid e).dpll = s.dpll := rfl
@[simp] theorem State.setTr_tdc (s : State) (c vid : Nat) (e : TrEntry) : (State.setTr s c vid e).tdc = s.tdc := rfl
@[simp] theorem State.setTr_ports (s : State) (c vid : Nat) (e : TrEntry) : (State.setTr s c vid e).ports = s.ports := rfl
@[simp] theorem State.setTr_tsrc (s : State) (c vid : Nat) (e : TrEntry) : (State.setTr s c vid e).tsrc = s.tsrc := rfl
@[simp] theorem State.setTr_docket (s : State) (c vid : Nat) (e : TrEntry) : (State.setTr s c vid e).docket = s.docket := rfl
@[simp] theorem State.setTr_tiles (s : State) (c vid : Nat) (e : TrEntry) : (State.setTr s c vid e).tiles = s.tiles := rfl
@[simp] theorem State.setTr_coll (s : State) (c vid : Nat) (e : TrEntry) : (State.setTr s c vid e).coll = s.coll := rfl
@[simp] theorem State.setTr_sched (s : State) (c vid : Nat) (e : TrEntry) : (State.setTr s c vid e).sched = s.sched := rfl
@[simp] theorem State.setTr_hm (s : State) (c vid : Nat) (e : TrEntry) : (State.setTr s c vid e).hm = s.hm := rfl
@[simp] theorem State.setTr_flt (s : State) (c vid : Nat) (e : TrEntry) : (State.setTr s c vid e).flt = s.flt := rfl
@[simp] theorem State.setTr_jm (s : State) (c vid : Nat) (e : TrEntry) : (State.setTr s c vid e).jm = s.jm := rfl
@[simp] theorem State.setTr_test (s : State) (c vid : Nat) (e : TrEntry) : (State.setTr s c vid e).test = s.test := rfl
@[simp] theorem State.setTr_pwr (s : State) (c vid : Nat) (e : TrEntry) : (State.setTr s c vid e).pwr = s.pwr := rfl
@[simp] theorem State.setTr_pair (s : State) (c vid : Nat) (e : TrEntry) : (State.setTr s c vid e).pair = s.pair := rfl
@[simp] theorem State.setTr_ctx (s : State) (c vid : Nat) (e : TrEntry) : (State.setTr s c vid e).ctx = s.ctx := rfl
@[simp] theorem State.setTr_sec (s : State) (c vid : Nat) (e : TrEntry) : (State.setTr s c vid e).sec = s.sec := rfl
@[simp] theorem State.setTr_scriv (s : State) (c vid : Nat) (e : TrEntry) : (State.setTr s c vid e).scriv = s.scriv := rfl
@[simp] theorem State.setTr_boot (s : State) (c vid : Nat) (e : TrEntry) : (State.setTr s c vid e).boot = s.boot := rfl
@[simp] theorem State.setTr_flash (s : State) (c vid : Nat) (e : TrEntry) : (State.setTr s c vid e).flash = s.flash := rfl
@[simp] theorem State.setTr_irq (s : State) (c vid : Nat) (e : TrEntry) : (State.setTr s c vid e).irq = s.irq := rfl
@[simp] theorem State.setTr_rg (s : State) (c vid : Nat) (e : TrEntry) : (State.setTr s c vid e).rg = s.rg := rfl
@[simp] theorem State.setTr_tx (s : State) (c vid : Nat) (e : TrEntry) : (State.setTr s c vid e).tx = s.tx := rfl
@[simp] theorem State.setTr_freeCtr (s : State) (c vid : Nat) (e : TrEntry) : (State.setTr s c vid e).freeCtr = s.freeCtr := rfl
@[simp] theorem State.setTr_pending (s : State) (c vid : Nat) (e : TrEntry) : (State.setTr s c vid e).pending = s.pending := rfl

/-! ## State.setWord -/

@[simp] theorem State.setWord_params (s : State) (p : Nat) (v : Word) : (State.setWord s p v).params = s.params := rfl
@[simp] theorem State.setWord_time (s : State) (p : Nat) (v : Word) : (State.setWord s p v).time = s.time := rfl
@[simp] theorem State.setWord_dpll (s : State) (p : Nat) (v : Word) : (State.setWord s p v).dpll = s.dpll := rfl
@[simp] theorem State.setWord_tdc (s : State) (p : Nat) (v : Word) : (State.setWord s p v).tdc = s.tdc := rfl
@[simp] theorem State.setWord_ports (s : State) (p : Nat) (v : Word) : (State.setWord s p v).ports = s.ports := rfl
@[simp] theorem State.setWord_tsrc (s : State) (p : Nat) (v : Word) : (State.setWord s p v).tsrc = s.tsrc := rfl
@[simp] theorem State.setWord_docket (s : State) (p : Nat) (v : Word) : (State.setWord s p v).docket = s.docket := rfl
@[simp] theorem State.setWord_tiles (s : State) (p : Nat) (v : Word) : (State.setWord s p v).tiles = s.tiles := rfl
@[simp] theorem State.setWord_coll (s : State) (p : Nat) (v : Word) : (State.setWord s p v).coll = s.coll := rfl
@[simp] theorem State.setWord_sched (s : State) (p : Nat) (v : Word) : (State.setWord s p v).sched = s.sched := rfl
@[simp] theorem State.setWord_hm (s : State) (p : Nat) (v : Word) : (State.setWord s p v).hm = s.hm := rfl
@[simp] theorem State.setWord_flt (s : State) (p : Nat) (v : Word) : (State.setWord s p v).flt = s.flt := rfl
@[simp] theorem State.setWord_jm (s : State) (p : Nat) (v : Word) : (State.setWord s p v).jm = s.jm := rfl
@[simp] theorem State.setWord_test (s : State) (p : Nat) (v : Word) : (State.setWord s p v).test = s.test := rfl
@[simp] theorem State.setWord_pwr (s : State) (p : Nat) (v : Word) : (State.setWord s p v).pwr = s.pwr := rfl
@[simp] theorem State.setWord_pair (s : State) (p : Nat) (v : Word) : (State.setWord s p v).pair = s.pair := rfl
@[simp] theorem State.setWord_ctx (s : State) (p : Nat) (v : Word) : (State.setWord s p v).ctx = s.ctx := rfl
@[simp] theorem State.setWord_sec (s : State) (p : Nat) (v : Word) : (State.setWord s p v).sec = s.sec := rfl
@[simp] theorem State.setWord_scriv (s : State) (p : Nat) (v : Word) : (State.setWord s p v).scriv = s.scriv := rfl
@[simp] theorem State.setWord_boot (s : State) (p : Nat) (v : Word) : (State.setWord s p v).boot = s.boot := rfl
@[simp] theorem State.setWord_flash (s : State) (p : Nat) (v : Word) : (State.setWord s p v).flash = s.flash := rfl
@[simp] theorem State.setWord_irq (s : State) (p : Nat) (v : Word) : (State.setWord s p v).irq = s.irq := rfl
@[simp] theorem State.setWord_rg (s : State) (p : Nat) (v : Word) : (State.setWord s p v).rg = s.rg := rfl
@[simp] theorem State.setWord_tx (s : State) (p : Nat) (v : Word) : (State.setWord s p v).tx = s.tx := rfl
@[simp] theorem State.setWord_freeCtr (s : State) (p : Nat) (v : Word) : (State.setWord s p v).freeCtr = s.freeCtr := rfl
@[simp] theorem State.setWord_pending (s : State) (p : Nat) (v : Word) : (State.setWord s p v).pending = s.pending := rfl

/-! ## State.setLbar -/

@[simp] theorem State.setLbar_params (s : State) (c id : Nat) (b : Option LBar) : (State.setLbar s c id b).params = s.params := rfl
@[simp] theorem State.setLbar_time (s : State) (c id : Nat) (b : Option LBar) : (State.setLbar s c id b).time = s.time := rfl
@[simp] theorem State.setLbar_dpll (s : State) (c id : Nat) (b : Option LBar) : (State.setLbar s c id b).dpll = s.dpll := rfl
@[simp] theorem State.setLbar_tdc (s : State) (c id : Nat) (b : Option LBar) : (State.setLbar s c id b).tdc = s.tdc := rfl
@[simp] theorem State.setLbar_ports (s : State) (c id : Nat) (b : Option LBar) : (State.setLbar s c id b).ports = s.ports := rfl
@[simp] theorem State.setLbar_tsrc (s : State) (c id : Nat) (b : Option LBar) : (State.setLbar s c id b).tsrc = s.tsrc := rfl
@[simp] theorem State.setLbar_docket (s : State) (c id : Nat) (b : Option LBar) : (State.setLbar s c id b).docket = s.docket := rfl
@[simp] theorem State.setLbar_tiles (s : State) (c id : Nat) (b : Option LBar) : (State.setLbar s c id b).tiles = s.tiles := rfl
@[simp] theorem State.setLbar_coll (s : State) (c id : Nat) (b : Option LBar) : (State.setLbar s c id b).coll = s.coll := rfl
@[simp] theorem State.setLbar_sched (s : State) (c id : Nat) (b : Option LBar) : (State.setLbar s c id b).sched = s.sched := rfl
@[simp] theorem State.setLbar_hm (s : State) (c id : Nat) (b : Option LBar) : (State.setLbar s c id b).hm = s.hm := rfl
@[simp] theorem State.setLbar_flt (s : State) (c id : Nat) (b : Option LBar) : (State.setLbar s c id b).flt = s.flt := rfl
@[simp] theorem State.setLbar_jm (s : State) (c id : Nat) (b : Option LBar) : (State.setLbar s c id b).jm = s.jm := rfl
@[simp] theorem State.setLbar_test (s : State) (c id : Nat) (b : Option LBar) : (State.setLbar s c id b).test = s.test := rfl
@[simp] theorem State.setLbar_pwr (s : State) (c id : Nat) (b : Option LBar) : (State.setLbar s c id b).pwr = s.pwr := rfl
@[simp] theorem State.setLbar_pair (s : State) (c id : Nat) (b : Option LBar) : (State.setLbar s c id b).pair = s.pair := rfl
@[simp] theorem State.setLbar_ctx (s : State) (c id : Nat) (b : Option LBar) : (State.setLbar s c id b).ctx = s.ctx := rfl
@[simp] theorem State.setLbar_sec (s : State) (c id : Nat) (b : Option LBar) : (State.setLbar s c id b).sec = s.sec := rfl
@[simp] theorem State.setLbar_scriv (s : State) (c id : Nat) (b : Option LBar) : (State.setLbar s c id b).scriv = s.scriv := rfl
@[simp] theorem State.setLbar_boot (s : State) (c id : Nat) (b : Option LBar) : (State.setLbar s c id b).boot = s.boot := rfl
@[simp] theorem State.setLbar_flash (s : State) (c id : Nat) (b : Option LBar) : (State.setLbar s c id b).flash = s.flash := rfl
@[simp] theorem State.setLbar_irq (s : State) (c id : Nat) (b : Option LBar) : (State.setLbar s c id b).irq = s.irq := rfl
@[simp] theorem State.setLbar_rg (s : State) (c id : Nat) (b : Option LBar) : (State.setLbar s c id b).rg = s.rg := rfl
@[simp] theorem State.setLbar_tx (s : State) (c id : Nat) (b : Option LBar) : (State.setLbar s c id b).tx = s.tx := rfl
@[simp] theorem State.setLbar_freeCtr (s : State) (c id : Nat) (b : Option LBar) : (State.setLbar s c id b).freeCtr = s.freeCtr := rfl
@[simp] theorem State.setLbar_pending (s : State) (c id : Nat) (b : Option LBar) : (State.setLbar s c id b).pending = s.pending := rfl

/-! ## State.setLcoll -/

@[simp] theorem State.setLcoll_params (s : State) (c h : Nat) (x : Option LColl) : (State.setLcoll s c h x).params = s.params := rfl
@[simp] theorem State.setLcoll_time (s : State) (c h : Nat) (x : Option LColl) : (State.setLcoll s c h x).time = s.time := rfl
@[simp] theorem State.setLcoll_dpll (s : State) (c h : Nat) (x : Option LColl) : (State.setLcoll s c h x).dpll = s.dpll := rfl
@[simp] theorem State.setLcoll_tdc (s : State) (c h : Nat) (x : Option LColl) : (State.setLcoll s c h x).tdc = s.tdc := rfl
@[simp] theorem State.setLcoll_ports (s : State) (c h : Nat) (x : Option LColl) : (State.setLcoll s c h x).ports = s.ports := rfl
@[simp] theorem State.setLcoll_tsrc (s : State) (c h : Nat) (x : Option LColl) : (State.setLcoll s c h x).tsrc = s.tsrc := rfl
@[simp] theorem State.setLcoll_docket (s : State) (c h : Nat) (x : Option LColl) : (State.setLcoll s c h x).docket = s.docket := rfl
@[simp] theorem State.setLcoll_sync (s : State) (c h : Nat) (x : Option LColl) : (State.setLcoll s c h x).sync = s.sync := rfl
@[simp] theorem State.setLcoll_tiles (s : State) (c h : Nat) (x : Option LColl) : (State.setLcoll s c h x).tiles = s.tiles := rfl
@[simp] theorem State.setLcoll_sched (s : State) (c h : Nat) (x : Option LColl) : (State.setLcoll s c h x).sched = s.sched := rfl
@[simp] theorem State.setLcoll_hm (s : State) (c h : Nat) (x : Option LColl) : (State.setLcoll s c h x).hm = s.hm := rfl
@[simp] theorem State.setLcoll_flt (s : State) (c h : Nat) (x : Option LColl) : (State.setLcoll s c h x).flt = s.flt := rfl
@[simp] theorem State.setLcoll_jm (s : State) (c h : Nat) (x : Option LColl) : (State.setLcoll s c h x).jm = s.jm := rfl
@[simp] theorem State.setLcoll_test (s : State) (c h : Nat) (x : Option LColl) : (State.setLcoll s c h x).test = s.test := rfl
@[simp] theorem State.setLcoll_pwr (s : State) (c h : Nat) (x : Option LColl) : (State.setLcoll s c h x).pwr = s.pwr := rfl
@[simp] theorem State.setLcoll_pair (s : State) (c h : Nat) (x : Option LColl) : (State.setLcoll s c h x).pair = s.pair := rfl
@[simp] theorem State.setLcoll_ctx (s : State) (c h : Nat) (x : Option LColl) : (State.setLcoll s c h x).ctx = s.ctx := rfl
@[simp] theorem State.setLcoll_sec (s : State) (c h : Nat) (x : Option LColl) : (State.setLcoll s c h x).sec = s.sec := rfl
@[simp] theorem State.setLcoll_scriv (s : State) (c h : Nat) (x : Option LColl) : (State.setLcoll s c h x).scriv = s.scriv := rfl
@[simp] theorem State.setLcoll_boot (s : State) (c h : Nat) (x : Option LColl) : (State.setLcoll s c h x).boot = s.boot := rfl
@[simp] theorem State.setLcoll_flash (s : State) (c h : Nat) (x : Option LColl) : (State.setLcoll s c h x).flash = s.flash := rfl
@[simp] theorem State.setLcoll_irq (s : State) (c h : Nat) (x : Option LColl) : (State.setLcoll s c h x).irq = s.irq := rfl
@[simp] theorem State.setLcoll_rg (s : State) (c h : Nat) (x : Option LColl) : (State.setLcoll s c h x).rg = s.rg := rfl
@[simp] theorem State.setLcoll_tx (s : State) (c h : Nat) (x : Option LColl) : (State.setLcoll s c h x).tx = s.tx := rfl
@[simp] theorem State.setLcoll_freeCtr (s : State) (c h : Nat) (x : Option LColl) : (State.setLcoll s c h x).freeCtr = s.freeCtr := rfl
@[simp] theorem State.setLcoll_pending (s : State) (c h : Nat) (x : Option LColl) : (State.setLcoll s c h x).pending = s.pending := rfl

/-! ## State.setHbar -/

@[simp] theorem State.setHbar_params (s : State) (c id : Nat) (b : Option HBar) : (State.setHbar s c id b).params = s.params := rfl
@[simp] theorem State.setHbar_time (s : State) (c id : Nat) (b : Option HBar) : (State.setHbar s c id b).time = s.time := rfl
@[simp] theorem State.setHbar_dpll (s : State) (c id : Nat) (b : Option HBar) : (State.setHbar s c id b).dpll = s.dpll := rfl
@[simp] theorem State.setHbar_tdc (s : State) (c id : Nat) (b : Option HBar) : (State.setHbar s c id b).tdc = s.tdc := rfl
@[simp] theorem State.setHbar_ports (s : State) (c id : Nat) (b : Option HBar) : (State.setHbar s c id b).ports = s.ports := rfl
@[simp] theorem State.setHbar_tsrc (s : State) (c id : Nat) (b : Option HBar) : (State.setHbar s c id b).tsrc = s.tsrc := rfl
@[simp] theorem State.setHbar_docket (s : State) (c id : Nat) (b : Option HBar) : (State.setHbar s c id b).docket = s.docket := rfl
@[simp] theorem State.setHbar_tiles (s : State) (c id : Nat) (b : Option HBar) : (State.setHbar s c id b).tiles = s.tiles := rfl
@[simp] theorem State.setHbar_coll (s : State) (c id : Nat) (b : Option HBar) : (State.setHbar s c id b).coll = s.coll := rfl
@[simp] theorem State.setHbar_sched (s : State) (c id : Nat) (b : Option HBar) : (State.setHbar s c id b).sched = s.sched := rfl
@[simp] theorem State.setHbar_hm (s : State) (c id : Nat) (b : Option HBar) : (State.setHbar s c id b).hm = s.hm := rfl
@[simp] theorem State.setHbar_flt (s : State) (c id : Nat) (b : Option HBar) : (State.setHbar s c id b).flt = s.flt := rfl
@[simp] theorem State.setHbar_jm (s : State) (c id : Nat) (b : Option HBar) : (State.setHbar s c id b).jm = s.jm := rfl
@[simp] theorem State.setHbar_test (s : State) (c id : Nat) (b : Option HBar) : (State.setHbar s c id b).test = s.test := rfl
@[simp] theorem State.setHbar_pwr (s : State) (c id : Nat) (b : Option HBar) : (State.setHbar s c id b).pwr = s.pwr := rfl
@[simp] theorem State.setHbar_pair (s : State) (c id : Nat) (b : Option HBar) : (State.setHbar s c id b).pair = s.pair := rfl
@[simp] theorem State.setHbar_ctx (s : State) (c id : Nat) (b : Option HBar) : (State.setHbar s c id b).ctx = s.ctx := rfl
@[simp] theorem State.setHbar_sec (s : State) (c id : Nat) (b : Option HBar) : (State.setHbar s c id b).sec = s.sec := rfl
@[simp] theorem State.setHbar_scriv (s : State) (c id : Nat) (b : Option HBar) : (State.setHbar s c id b).scriv = s.scriv := rfl
@[simp] theorem State.setHbar_boot (s : State) (c id : Nat) (b : Option HBar) : (State.setHbar s c id b).boot = s.boot := rfl
@[simp] theorem State.setHbar_flash (s : State) (c id : Nat) (b : Option HBar) : (State.setHbar s c id b).flash = s.flash := rfl
@[simp] theorem State.setHbar_irq (s : State) (c id : Nat) (b : Option HBar) : (State.setHbar s c id b).irq = s.irq := rfl
@[simp] theorem State.setHbar_rg (s : State) (c id : Nat) (b : Option HBar) : (State.setHbar s c id b).rg = s.rg := rfl
@[simp] theorem State.setHbar_tx (s : State) (c id : Nat) (b : Option HBar) : (State.setHbar s c id b).tx = s.tx := rfl
@[simp] theorem State.setHbar_freeCtr (s : State) (c id : Nat) (b : Option HBar) : (State.setHbar s c id b).freeCtr = s.freeCtr := rfl
@[simp] theorem State.setHbar_pending (s : State) (c id : Nat) (b : Option HBar) : (State.setHbar s c id b).pending = s.pending := rfl

/-! ## State.setTag -/

@[simp] theorem State.setTag_params (s : State) (pl c : Nat) (t : WfqTag) : (State.setTag s pl c t).params = s.params := rfl
@[simp] theorem State.setTag_time (s : State) (pl c : Nat) (t : WfqTag) : (State.setTag s pl c t).time = s.time := rfl
@[simp] theorem State.setTag_dpll (s : State) (pl c : Nat) (t : WfqTag) : (State.setTag s pl c t).dpll = s.dpll := rfl
@[simp] theorem State.setTag_tdc (s : State) (pl c : Nat) (t : WfqTag) : (State.setTag s pl c t).tdc = s.tdc := rfl
@[simp] theorem State.setTag_ports (s : State) (pl c : Nat) (t : WfqTag) : (State.setTag s pl c t).ports = s.ports := rfl
@[simp] theorem State.setTag_tsrc (s : State) (pl c : Nat) (t : WfqTag) : (State.setTag s pl c t).tsrc = s.tsrc := rfl
@[simp] theorem State.setTag_docket (s : State) (pl c : Nat) (t : WfqTag) : (State.setTag s pl c t).docket = s.docket := rfl
@[simp] theorem State.setTag_sync (s : State) (pl c : Nat) (t : WfqTag) : (State.setTag s pl c t).sync = s.sync := rfl
@[simp] theorem State.setTag_tiles (s : State) (pl c : Nat) (t : WfqTag) : (State.setTag s pl c t).tiles = s.tiles := rfl
@[simp] theorem State.setTag_coll (s : State) (pl c : Nat) (t : WfqTag) : (State.setTag s pl c t).coll = s.coll := rfl
@[simp] theorem State.setTag_hm (s : State) (pl c : Nat) (t : WfqTag) : (State.setTag s pl c t).hm = s.hm := rfl
@[simp] theorem State.setTag_flt (s : State) (pl c : Nat) (t : WfqTag) : (State.setTag s pl c t).flt = s.flt := rfl
@[simp] theorem State.setTag_jm (s : State) (pl c : Nat) (t : WfqTag) : (State.setTag s pl c t).jm = s.jm := rfl
@[simp] theorem State.setTag_test (s : State) (pl c : Nat) (t : WfqTag) : (State.setTag s pl c t).test = s.test := rfl
@[simp] theorem State.setTag_pwr (s : State) (pl c : Nat) (t : WfqTag) : (State.setTag s pl c t).pwr = s.pwr := rfl
@[simp] theorem State.setTag_pair (s : State) (pl c : Nat) (t : WfqTag) : (State.setTag s pl c t).pair = s.pair := rfl
@[simp] theorem State.setTag_ctx (s : State) (pl c : Nat) (t : WfqTag) : (State.setTag s pl c t).ctx = s.ctx := rfl
@[simp] theorem State.setTag_sec (s : State) (pl c : Nat) (t : WfqTag) : (State.setTag s pl c t).sec = s.sec := rfl
@[simp] theorem State.setTag_scriv (s : State) (pl c : Nat) (t : WfqTag) : (State.setTag s pl c t).scriv = s.scriv := rfl
@[simp] theorem State.setTag_boot (s : State) (pl c : Nat) (t : WfqTag) : (State.setTag s pl c t).boot = s.boot := rfl
@[simp] theorem State.setTag_flash (s : State) (pl c : Nat) (t : WfqTag) : (State.setTag s pl c t).flash = s.flash := rfl
@[simp] theorem State.setTag_irq (s : State) (pl c : Nat) (t : WfqTag) : (State.setTag s pl c t).irq = s.irq := rfl
@[simp] theorem State.setTag_rg (s : State) (pl c : Nat) (t : WfqTag) : (State.setTag s pl c t).rg = s.rg := rfl
@[simp] theorem State.setTag_tx (s : State) (pl c : Nat) (t : WfqTag) : (State.setTag s pl c t).tx = s.tx := rfl
@[simp] theorem State.setTag_freeCtr (s : State) (pl c : Nat) (t : WfqTag) : (State.setTag s pl c t).freeCtr = s.freeCtr := rfl
@[simp] theorem State.setTag_pending (s : State) (pl c : Nat) (t : WfqTag) : (State.setTag s pl c t).pending = s.pending := rfl

/-! ## State.modShape -/

@[simp] theorem State.modShape_params (s : State) (c : Nat) (f : ShapeSt → ShapeSt) : (State.modShape s c f).params = s.params := rfl
@[simp] theorem State.modShape_time (s : State) (c : Nat) (f : ShapeSt → ShapeSt) : (State.modShape s c f).time = s.time := rfl
@[simp] theorem State.modShape_dpll (s : State) (c : Nat) (f : ShapeSt → ShapeSt) : (State.modShape s c f).dpll = s.dpll := rfl
@[simp] theorem State.modShape_tdc (s : State) (c : Nat) (f : ShapeSt → ShapeSt) : (State.modShape s c f).tdc = s.tdc := rfl
@[simp] theorem State.modShape_ports (s : State) (c : Nat) (f : ShapeSt → ShapeSt) : (State.modShape s c f).ports = s.ports := rfl
@[simp] theorem State.modShape_tsrc (s : State) (c : Nat) (f : ShapeSt → ShapeSt) : (State.modShape s c f).tsrc = s.tsrc := rfl
@[simp] theorem State.modShape_docket (s : State) (c : Nat) (f : ShapeSt → ShapeSt) : (State.modShape s c f).docket = s.docket := rfl
@[simp] theorem State.modShape_sync (s : State) (c : Nat) (f : ShapeSt → ShapeSt) : (State.modShape s c f).sync = s.sync := rfl
@[simp] theorem State.modShape_tiles (s : State) (c : Nat) (f : ShapeSt → ShapeSt) : (State.modShape s c f).tiles = s.tiles := rfl
@[simp] theorem State.modShape_coll (s : State) (c : Nat) (f : ShapeSt → ShapeSt) : (State.modShape s c f).coll = s.coll := rfl
@[simp] theorem State.modShape_hm (s : State) (c : Nat) (f : ShapeSt → ShapeSt) : (State.modShape s c f).hm = s.hm := rfl
@[simp] theorem State.modShape_flt (s : State) (c : Nat) (f : ShapeSt → ShapeSt) : (State.modShape s c f).flt = s.flt := rfl
@[simp] theorem State.modShape_jm (s : State) (c : Nat) (f : ShapeSt → ShapeSt) : (State.modShape s c f).jm = s.jm := rfl
@[simp] theorem State.modShape_test (s : State) (c : Nat) (f : ShapeSt → ShapeSt) : (State.modShape s c f).test = s.test := rfl
@[simp] theorem State.modShape_pwr (s : State) (c : Nat) (f : ShapeSt → ShapeSt) : (State.modShape s c f).pwr = s.pwr := rfl
@[simp] theorem State.modShape_pair (s : State) (c : Nat) (f : ShapeSt → ShapeSt) : (State.modShape s c f).pair = s.pair := rfl
@[simp] theorem State.modShape_ctx (s : State) (c : Nat) (f : ShapeSt → ShapeSt) : (State.modShape s c f).ctx = s.ctx := rfl
@[simp] theorem State.modShape_sec (s : State) (c : Nat) (f : ShapeSt → ShapeSt) : (State.modShape s c f).sec = s.sec := rfl
@[simp] theorem State.modShape_scriv (s : State) (c : Nat) (f : ShapeSt → ShapeSt) : (State.modShape s c f).scriv = s.scriv := rfl
@[simp] theorem State.modShape_boot (s : State) (c : Nat) (f : ShapeSt → ShapeSt) : (State.modShape s c f).boot = s.boot := rfl
@[simp] theorem State.modShape_flash (s : State) (c : Nat) (f : ShapeSt → ShapeSt) : (State.modShape s c f).flash = s.flash := rfl
@[simp] theorem State.modShape_irq (s : State) (c : Nat) (f : ShapeSt → ShapeSt) : (State.modShape s c f).irq = s.irq := rfl
@[simp] theorem State.modShape_rg (s : State) (c : Nat) (f : ShapeSt → ShapeSt) : (State.modShape s c f).rg = s.rg := rfl
@[simp] theorem State.modShape_tx (s : State) (c : Nat) (f : ShapeSt → ShapeSt) : (State.modShape s c f).tx = s.tx := rfl
@[simp] theorem State.modShape_freeCtr (s : State) (c : Nat) (f : ShapeSt → ShapeSt) : (State.modShape s c f).freeCtr = s.freeCtr := rfl
@[simp] theorem State.modShape_pending (s : State) (c : Nat) (f : ShapeSt → ShapeSt) : (State.modShape s c f).pending = s.pending := rfl

/-! ## State.setPlan -/

@[simp] theorem State.setPlan_params (s : State) (c h : Nat) (p : Option HPlan) : (State.setPlan s c h p).params = s.params := rfl
@[simp] theorem State.setPlan_time (s : State) (c h : Nat) (p : Option HPlan) : (State.setPlan s c h p).time = s.time := rfl
@[simp] theorem State.setPlan_dpll (s : State) (c h : Nat) (p : Option HPlan) : (State.setPlan s c h p).dpll = s.dpll := rfl
@[simp] theorem State.setPlan_tdc (s : State) (c h : Nat) (p : Option HPlan) : (State.setPlan s c h p).tdc = s.tdc := rfl
@[simp] theorem State.setPlan_ports (s : State) (c h : Nat) (p : Option HPlan) : (State.setPlan s c h p).ports = s.ports := rfl
@[simp] theorem State.setPlan_tsrc (s : State) (c h : Nat) (p : Option HPlan) : (State.setPlan s c h p).tsrc = s.tsrc := rfl
@[simp] theorem State.setPlan_docket (s : State) (c h : Nat) (p : Option HPlan) : (State.setPlan s c h p).docket = s.docket := rfl
@[simp] theorem State.setPlan_sync (s : State) (c h : Nat) (p : Option HPlan) : (State.setPlan s c h p).sync = s.sync := rfl
@[simp] theorem State.setPlan_tiles (s : State) (c h : Nat) (p : Option HPlan) : (State.setPlan s c h p).tiles = s.tiles := rfl
@[simp] theorem State.setPlan_sched (s : State) (c h : Nat) (p : Option HPlan) : (State.setPlan s c h p).sched = s.sched := rfl
@[simp] theorem State.setPlan_hm (s : State) (c h : Nat) (p : Option HPlan) : (State.setPlan s c h p).hm = s.hm := rfl
@[simp] theorem State.setPlan_flt (s : State) (c h : Nat) (p : Option HPlan) : (State.setPlan s c h p).flt = s.flt := rfl
@[simp] theorem State.setPlan_jm (s : State) (c h : Nat) (p : Option HPlan) : (State.setPlan s c h p).jm = s.jm := rfl
@[simp] theorem State.setPlan_test (s : State) (c h : Nat) (p : Option HPlan) : (State.setPlan s c h p).test = s.test := rfl
@[simp] theorem State.setPlan_pwr (s : State) (c h : Nat) (p : Option HPlan) : (State.setPlan s c h p).pwr = s.pwr := rfl
@[simp] theorem State.setPlan_pair (s : State) (c h : Nat) (p : Option HPlan) : (State.setPlan s c h p).pair = s.pair := rfl
@[simp] theorem State.setPlan_ctx (s : State) (c h : Nat) (p : Option HPlan) : (State.setPlan s c h p).ctx = s.ctx := rfl
@[simp] theorem State.setPlan_sec (s : State) (c h : Nat) (p : Option HPlan) : (State.setPlan s c h p).sec = s.sec := rfl
@[simp] theorem State.setPlan_scriv (s : State) (c h : Nat) (p : Option HPlan) : (State.setPlan s c h p).scriv = s.scriv := rfl
@[simp] theorem State.setPlan_boot (s : State) (c h : Nat) (p : Option HPlan) : (State.setPlan s c h p).boot = s.boot := rfl
@[simp] theorem State.setPlan_flash (s : State) (c h : Nat) (p : Option HPlan) : (State.setPlan s c h p).flash = s.flash := rfl
@[simp] theorem State.setPlan_irq (s : State) (c h : Nat) (p : Option HPlan) : (State.setPlan s c h p).irq = s.irq := rfl
@[simp] theorem State.setPlan_rg (s : State) (c h : Nat) (p : Option HPlan) : (State.setPlan s c h p).rg = s.rg := rfl
@[simp] theorem State.setPlan_tx (s : State) (c h : Nat) (p : Option HPlan) : (State.setPlan s c h p).tx = s.tx := rfl
@[simp] theorem State.setPlan_freeCtr (s : State) (c h : Nat) (p : Option HPlan) : (State.setPlan s c h p).freeCtr = s.freeCtr := rfl
@[simp] theorem State.setPlan_pending (s : State) (c h : Nat) (p : Option HPlan) : (State.setPlan s c h p).pending = s.pending := rfl

/-! ## The queue and the register interface -/

@[simp] theorem State.withPending_params (s : State) (q : List Instr) : (State.withPending s q).params = s.params := rfl
@[simp] theorem State.withPending_time (s : State) (q : List Instr) : (State.withPending s q).time = s.time := rfl
@[simp] theorem State.withPending_dpll (s : State) (q : List Instr) : (State.withPending s q).dpll = s.dpll := rfl
@[simp] theorem State.withPending_tdc (s : State) (q : List Instr) : (State.withPending s q).tdc = s.tdc := rfl
@[simp] theorem State.withPending_ports (s : State) (q : List Instr) : (State.withPending s q).ports = s.ports := rfl
@[simp] theorem State.withPending_tsrc (s : State) (q : List Instr) : (State.withPending s q).tsrc = s.tsrc := rfl
@[simp] theorem State.withPending_docket (s : State) (q : List Instr) : (State.withPending s q).docket = s.docket := rfl
@[simp] theorem State.withPending_sync (s : State) (q : List Instr) : (State.withPending s q).sync = s.sync := rfl
@[simp] theorem State.withPending_tiles (s : State) (q : List Instr) : (State.withPending s q).tiles = s.tiles := rfl
@[simp] theorem State.withPending_coll (s : State) (q : List Instr) : (State.withPending s q).coll = s.coll := rfl
@[simp] theorem State.withPending_sched (s : State) (q : List Instr) : (State.withPending s q).sched = s.sched := rfl
@[simp] theorem State.withPending_hm (s : State) (q : List Instr) : (State.withPending s q).hm = s.hm := rfl
@[simp] theorem State.withPending_flt (s : State) (q : List Instr) : (State.withPending s q).flt = s.flt := rfl
@[simp] theorem State.withPending_jm (s : State) (q : List Instr) : (State.withPending s q).jm = s.jm := rfl
@[simp] theorem State.withPending_test (s : State) (q : List Instr) : (State.withPending s q).test = s.test := rfl
@[simp] theorem State.withPending_pwr (s : State) (q : List Instr) : (State.withPending s q).pwr = s.pwr := rfl
@[simp] theorem State.withPending_pair (s : State) (q : List Instr) : (State.withPending s q).pair = s.pair := rfl
@[simp] theorem State.withPending_ctx (s : State) (q : List Instr) : (State.withPending s q).ctx = s.ctx := rfl
@[simp] theorem State.withPending_sec (s : State) (q : List Instr) : (State.withPending s q).sec = s.sec := rfl
@[simp] theorem State.withPending_scriv (s : State) (q : List Instr) : (State.withPending s q).scriv = s.scriv := rfl
@[simp] theorem State.withPending_boot (s : State) (q : List Instr) : (State.withPending s q).boot = s.boot := rfl
@[simp] theorem State.withPending_flash (s : State) (q : List Instr) : (State.withPending s q).flash = s.flash := rfl
@[simp] theorem State.withPending_irq (s : State) (q : List Instr) : (State.withPending s q).irq = s.irq := rfl
@[simp] theorem State.withPending_rg (s : State) (q : List Instr) : (State.withPending s q).rg = s.rg := rfl
@[simp] theorem State.withPending_tx (s : State) (q : List Instr) : (State.withPending s q).tx = s.tx := rfl
@[simp] theorem State.withPending_freeCtr (s : State) (q : List Instr) : (State.withPending s q).freeCtr = s.freeCtr := rfl
@[simp] theorem State.answer_params (s : State) (v : Word) (e : Bool) : (State.answer s v e).params = s.params := rfl
@[simp] theorem State.answer_time (s : State) (v : Word) (e : Bool) : (State.answer s v e).time = s.time := rfl
@[simp] theorem State.answer_dpll (s : State) (v : Word) (e : Bool) : (State.answer s v e).dpll = s.dpll := rfl
@[simp] theorem State.answer_tdc (s : State) (v : Word) (e : Bool) : (State.answer s v e).tdc = s.tdc := rfl
@[simp] theorem State.answer_ports (s : State) (v : Word) (e : Bool) : (State.answer s v e).ports = s.ports := rfl
@[simp] theorem State.answer_tsrc (s : State) (v : Word) (e : Bool) : (State.answer s v e).tsrc = s.tsrc := rfl
@[simp] theorem State.answer_docket (s : State) (v : Word) (e : Bool) : (State.answer s v e).docket = s.docket := rfl
@[simp] theorem State.answer_sync (s : State) (v : Word) (e : Bool) : (State.answer s v e).sync = s.sync := rfl
@[simp] theorem State.answer_tiles (s : State) (v : Word) (e : Bool) : (State.answer s v e).tiles = s.tiles := rfl
@[simp] theorem State.answer_coll (s : State) (v : Word) (e : Bool) : (State.answer s v e).coll = s.coll := rfl
@[simp] theorem State.answer_sched (s : State) (v : Word) (e : Bool) : (State.answer s v e).sched = s.sched := rfl
@[simp] theorem State.answer_hm (s : State) (v : Word) (e : Bool) : (State.answer s v e).hm = s.hm := rfl
@[simp] theorem State.answer_flt (s : State) (v : Word) (e : Bool) : (State.answer s v e).flt = s.flt := rfl
@[simp] theorem State.answer_jm (s : State) (v : Word) (e : Bool) : (State.answer s v e).jm = s.jm := rfl
@[simp] theorem State.answer_test (s : State) (v : Word) (e : Bool) : (State.answer s v e).test = s.test := rfl
@[simp] theorem State.answer_pwr (s : State) (v : Word) (e : Bool) : (State.answer s v e).pwr = s.pwr := rfl
@[simp] theorem State.answer_pair (s : State) (v : Word) (e : Bool) : (State.answer s v e).pair = s.pair := rfl
@[simp] theorem State.answer_ctx (s : State) (v : Word) (e : Bool) : (State.answer s v e).ctx = s.ctx := rfl
@[simp] theorem State.answer_sec (s : State) (v : Word) (e : Bool) : (State.answer s v e).sec = s.sec := rfl
@[simp] theorem State.answer_scriv (s : State) (v : Word) (e : Bool) : (State.answer s v e).scriv = s.scriv := rfl
@[simp] theorem State.answer_boot (s : State) (v : Word) (e : Bool) : (State.answer s v e).boot = s.boot := rfl
@[simp] theorem State.answer_flash (s : State) (v : Word) (e : Bool) : (State.answer s v e).flash = s.flash := rfl
@[simp] theorem State.answer_irq (s : State) (v : Word) (e : Bool) : (State.answer s v e).irq = s.irq := rfl
@[simp] theorem State.answer_tx (s : State) (v : Word) (e : Bool) : (State.answer s v e).tx = s.tx := rfl
@[simp] theorem State.answer_freeCtr (s : State) (v : Word) (e : Bool) : (State.answer s v e).freeCtr = s.freeCtr := rfl
@[simp] theorem State.answer_pending (s : State) (v : Word) (e : Bool) : (State.answer s v e).pending = s.pending := rfl
@[simp] theorem State.withPending_pending (s : State) (q : List Instr) : (s.withPending q).pending = q := rfl

/-- The two cases of a step. -/
theorem step_cons {s : State} {i : Instr} {r : List Instr} (h : s.pending = i :: r) : step s = exec i (s.withPending r) := by
  simp [step, h]

end Sys2Proof.Machine
end

