-- ==== Sys2Proof/Laws/Shared.lean ====
section
/-! SUPPORT. What the operations that every chapter shares can change: one equation for each, and one lemma for each group of
fields that it leaves alone. -/

set_option linter.all false

namespace Sys2Proof.Machine
open Sys2Proof

/-- All that it changes. -/
theorem State.send_frame (s : State) (p : Nat) (m : TxMsg) : State.send s p m = { s with tx := (State.send s p m).tx } := by
  unfold State.send
  split <;> rfl
@[simp] theorem State.send_params (s : State) (p : Nat) (m : TxMsg) : (State.send s p m).params = s.params := by rw [State.send_frame]
@[simp] theorem State.send_time (s : State) (p : Nat) (m : TxMsg) : (State.send s p m).time = s.time := by rw [State.send_frame]
@[simp] theorem State.send_dpll (s : State) (p : Nat) (m : TxMsg) : (State.send s p m).dpll = s.dpll := by rw [State.send_frame]
@[simp] theorem State.send_tdc (s : State) (p : Nat) (m : TxMsg) : (State.send s p m).tdc = s.tdc := by rw [State.send_frame]
@[simp] theorem State.send_ports (s : State) (p : Nat) (m : TxMsg) : (State.send s p m).ports = s.ports := by rw [State.send_frame]
@[simp] theorem State.send_tsrc (s : State) (p : Nat) (m : TxMsg) : (State.send s p m).tsrc = s.tsrc := by rw [State.send_frame]
@[simp] theorem State.send_docket (s : State) (p : Nat) (m : TxMsg) : (State.send s p m).docket = s.docket := by rw [State.send_frame]
@[simp] theorem State.send_sync (s : State) (p : Nat) (m : TxMsg) : (State.send s p m).sync = s.sync := by rw [State.send_frame]
@[simp] theorem State.send_tiles (s : State) (p : Nat) (m : TxMsg) : (State.send s p m).tiles = s.tiles := by rw [State.send_frame]
@[simp] theorem State.send_coll (s : State) (p : Nat) (m : TxMsg) : (State.send s p m).coll = s.coll := by rw [State.send_frame]
@[simp] theorem State.send_sched (s : State) (p : Nat) (m : TxMsg) : (State.send s p m).sched = s.sched := by rw [State.send_frame]
@[simp] theorem State.send_hm (s : State) (p : Nat) (m : TxMsg) : (State.send s p m).hm = s.hm := by rw [State.send_frame]
@[simp] theorem State.send_flt (s : State) (p : Nat) (m : TxMsg) : (State.send s p m).flt = s.flt := by rw [State.send_frame]
@[simp] theorem State.send_jm (s : State) (p : Nat) (m : TxMsg) : (State.send s p m).jm = s.jm := by rw [State.send_frame]
@[simp] theorem State.send_test (s : State) (p : Nat) (m : TxMsg) : (State.send s p m).test = s.test := by rw [State.send_frame]
@[simp] theorem State.send_pwr (s : State) (p : Nat) (m : TxMsg) : (State.send s p m).pwr = s.pwr := by rw [State.send_frame]
@[simp] theorem State.send_pair (s : State) (p : Nat) (m : TxMsg) : (State.send s p m).pair = s.pair := by rw [State.send_frame]
@[simp] theorem State.send_ctx (s : State) (p : Nat) (m : TxMsg) : (State.send s p m).ctx = s.ctx := by rw [State.send_frame]
@[simp] theorem State.send_sec (s : State) (p : Nat) (m : TxMsg) : (State.send s p m).sec = s.sec := by rw [State.send_frame]
@[simp] theorem State.send_scriv (s : State) (p : Nat) (m : TxMsg) : (State.send s p m).scriv = s.scriv := by rw [State.send_frame]
@[simp] theorem State.send_boot (s : State) (p : Nat) (m : TxMsg) : (State.send s p m).boot = s.boot := by rw [State.send_frame]
@[simp] theorem State.send_flash (s : State) (p : Nat) (m : TxMsg) : (State.send s p m).flash = s.flash := by rw [State.send_frame]
@[simp] theorem State.send_irq (s : State) (p : Nat) (m : TxMsg) : (State.send s p m).irq = s.irq := by rw [State.send_frame]
@[simp] theorem State.send_rg (s : State) (p : Nat) (m : TxMsg) : (State.send s p m).rg = s.rg := by rw [State.send_frame]
@[simp] theorem State.send_freeCtr (s : State) (p : Nat) (m : TxMsg) : (State.send s p m).freeCtr = s.freeCtr := by rw [State.send_frame]
@[simp] theorem State.send_pending (s : State) (p : Nat) (m : TxMsg) : (State.send s p m).pending = s.pending := by rw [State.send_frame]

/-- All that it changes. -/
theorem State.hold_frame (s : State) (p : Option Nat) (m : TxMsg) : State.hold s p m = { s with flt := (State.hold s p m).flt } := by
  rfl
@[simp] theorem State.hold_params (s : State) (p : Option Nat) (m : TxMsg) : (State.hold s p m).params = s.params := by rw [State.hold_frame]
@[simp] theorem State.hold_time (s : State) (p : Option Nat) (m : TxMsg) : (State.hold s p m).time = s.time := by rw [State.hold_frame]
@[simp] theorem State.hold_dpll (s : State) (p : Option Nat) (m : TxMsg) : (State.hold s p m).dpll = s.dpll := by rw [State.hold_frame]
@[simp] theorem State.hold_tdc (s : State) (p : Option Nat) (m : TxMsg) : (State.hold s p m).tdc = s.tdc := by rw [State.hold_frame]
@[simp] theorem State.hold_ports (s : State) (p : Option Nat) (m : TxMsg) : (State.hold s p m).ports = s.ports := by rw [State.hold_frame]
@[simp] theorem State.hold_tsrc (s : State) (p : Option Nat) (m : TxMsg) : (State.hold s p m).tsrc = s.tsrc := by rw [State.hold_frame]
@[simp] theorem State.hold_docket (s : State) (p : Option Nat) (m : TxMsg) : (State.hold s p m).docket = s.docket := by rw [State.hold_frame]
@[simp] theorem State.hold_sync (s : State) (p : Option Nat) (m : TxMsg) : (State.hold s p m).sync = s.sync := by rw [State.hold_frame]
@[simp] theorem State.hold_tiles (s : State) (p : Option Nat) (m : TxMsg) : (State.hold s p m).tiles = s.tiles := by rw [State.hold_frame]
@[simp] theorem State.hold_coll (s : State) (p : Option Nat) (m : TxMsg) : (State.hold s p m).coll = s.coll := by rw [State.hold_frame]
@[simp] theorem State.hold_sched (s : State) (p : Option Nat) (m : TxMsg) : (State.hold s p m).sched = s.sched := by rw [State.hold_frame]
@[simp] theorem State.hold_hm (s : State) (p : Option Nat) (m : TxMsg) : (State.hold s p m).hm = s.hm := by rw [State.hold_frame]
@[simp] theorem State.hold_jm (s : State) (p : Option Nat) (m : TxMsg) : (State.hold s p m).jm = s.jm := by rw [State.hold_frame]
@[simp] theorem State.hold_test (s : State) (p : Option Nat) (m : TxMsg) : (State.hold s p m).test = s.test := by rw [State.hold_frame]
@[simp] theorem State.hold_pwr (s : State) (p : Option Nat) (m : TxMsg) : (State.hold s p m).pwr = s.pwr := by rw [State.hold_frame]
@[simp] theorem State.hold_pair (s : State) (p : Option Nat) (m : TxMsg) : (State.hold s p m).pair = s.pair := by rw [State.hold_frame]
@[simp] theorem State.hold_ctx (s : State) (p : Option Nat) (m : TxMsg) : (State.hold s p m).ctx = s.ctx := by rw [State.hold_frame]
@[simp] theorem State.hold_sec (s : State) (p : Option Nat) (m : TxMsg) : (State.hold s p m).sec = s.sec := by rw [State.hold_frame]
@[simp] theorem State.hold_scriv (s : State) (p : Option Nat) (m : TxMsg) : (State.hold s p m).scriv = s.scriv := by rw [State.hold_frame]
@[simp] theorem State.hold_boot (s : State) (p : Option Nat) (m : TxMsg) : (State.hold s p m).boot = s.boot := by rw [State.hold_frame]
@[simp] theorem State.hold_flash (s : State) (p : Option Nat) (m : TxMsg) : (State.hold s p m).flash = s.flash := by rw [State.hold_frame]
@[simp] theorem State.hold_irq (s : State) (p : Option Nat) (m : TxMsg) : (State.hold s p m).irq = s.irq := by rw [State.hold_frame]
@[simp] theorem State.hold_rg (s : State) (p : Option Nat) (m : TxMsg) : (State.hold s p m).rg = s.rg := by rw [State.hold_frame]
@[simp] theorem State.hold_tx (s : State) (p : Option Nat) (m : TxMsg) : (State.hold s p m).tx = s.tx := by rw [State.hold_frame]
@[simp] theorem State.hold_freeCtr (s : State) (p : Option Nat) (m : TxMsg) : (State.hold s p m).freeCtr = s.freeCtr := by rw [State.hold_frame]
@[simp] theorem State.hold_pending (s : State) (p : Option Nat) (m : TxMsg) : (State.hold s p m).pending = s.pending := by rw [State.hold_frame]

/-- All that it changes. -/
theorem State.sendOrHold_frame (s : State) (p : Nat) (m : TxMsg) : State.sendOrHold s p m = { s with tx := (State.sendOrHold s p m).tx, flt := (State.sendOrHold s p m).flt } := by
  unfold State.sendOrHold
  split
  · rw [State.send_frame]
  · rw [State.hold_frame]
@[simp] theorem State.sendOrHold_params (s : State) (p : Nat) (m : TxMsg) : (State.sendOrHold s p m).params = s.params := by rw [State.sendOrHold_frame]
@[simp] theorem State.sendOrHold_time (s : State) (p : Nat) (m : TxMsg) : (State.sendOrHold s p m).time = s.time := by rw [State.sendOrHold_frame]
@[simp] theorem State.sendOrHold_dpll (s : State) (p : Nat) (m : TxMsg) : (State.sendOrHold s p m).dpll = s.dpll := by rw [State.sendOrHold_frame]
@[simp] theorem State.sendOrHold_tdc (s : State) (p : Nat) (m : TxMsg) : (State.sendOrHold s p m).tdc = s.tdc := by rw [State.sendOrHold_frame]
@[simp] theorem State.sendOrHold_ports (s : State) (p : Nat) (m : TxMsg) : (State.sendOrHold s p m).ports = s.ports := by rw [State.sendOrHold_frame]
@[simp] theorem State.sendOrHold_tsrc (s : State) (p : Nat) (m : TxMsg) : (State.sendOrHold s p m).tsrc = s.tsrc := by rw [State.sendOrHold_frame]
@[simp] theorem State.sendOrHold_docket (s : State) (p : Nat) (m : TxMsg) : (State.sendOrHold s p m).docket = s.docket := by rw [State.sendOrHold_frame]
@[simp] theorem State.sendOrHold_sync (s : State) (p : Nat) (m : TxMsg) : (State.sendOrHold s p m).sync = s.sync := by rw [State.sendOrHold_frame]
@[simp] theorem State.sendOrHold_tiles (s : State) (p : Nat) (m : TxMsg) : (State.sendOrHold s p m).tiles = s.tiles := by rw [State.sendOrHold_frame]
@[simp] theorem State.sendOrHold_coll (s : State) (p : Nat) (m : TxMsg) : (State.sendOrHold s p m).coll = s.coll := by rw [State.sendOrHold_frame]
@[simp] theorem State.sendOrHold_sched (s : State) (p : Nat) (m : TxMsg) : (State.sendOrHold s p m).sched = s.sched := by rw [State.sendOrHold_frame]
@[simp] theorem State.sendOrHold_hm (s : State) (p : Nat) (m : TxMsg) : (State.sendOrHold s p m).hm = s.hm := by rw [State.sendOrHold_frame]
@[simp] theorem State.sendOrHold_jm (s : State) (p : Nat) (m : TxMsg) : (State.sendOrHold s p m).jm = s.jm := by rw [State.sendOrHold_frame]
@[simp] theorem State.sendOrHold_test (s : State) (p : Nat) (m : TxMsg) : (State.sendOrHold s p m).test = s.test := by rw [State.sendOrHold_frame]
@[simp] theorem State.sendOrHold_pwr (s : State) (p : Nat) (m : TxMsg) : (State.sendOrHold s p m).pwr = s.pwr := by rw [State.sendOrHold_frame]
@[simp] theorem State.sendOrHold_pair (s : State) (p : Nat) (m : TxMsg) : (State.sendOrHold s p m).pair = s.pair := by rw [State.sendOrHold_frame]
@[simp] theorem State.sendOrHold_ctx (s : State) (p : Nat) (m : TxMsg) : (State.sendOrHold s p m).ctx = s.ctx := by rw [State.sendOrHold_frame]
@[simp] theorem State.sendOrHold_sec (s : State) (p : Nat) (m : TxMsg) : (State.sendOrHold s p m).sec = s.sec := by rw [State.sendOrHold_frame]
@[simp] theorem State.sendOrHold_scriv (s : State) (p : Nat) (m : TxMsg) : (State.sendOrHold s p m).scriv = s.scriv := by rw [State.sendOrHold_frame]
@[simp] theorem State.sendOrHold_boot (s : State) (p : Nat) (m : TxMsg) : (State.sendOrHold s p m).boot = s.boot := by rw [State.sendOrHold_frame]
@[simp] theorem State.sendOrHold_flash (s : State) (p : Nat) (m : TxMsg) : (State.sendOrHold s p m).flash = s.flash := by rw [State.sendOrHold_frame]
@[simp] theorem State.sendOrHold_irq (s : State) (p : Nat) (m : TxMsg) : (State.sendOrHold s p m).irq = s.irq := by rw [State.sendOrHold_frame]
@[simp] theorem State.sendOrHold_rg (s : State) (p : Nat) (m : TxMsg) : (State.sendOrHold s p m).rg = s.rg := by rw [State.sendOrHold_frame]
@[simp] theorem State.sendOrHold_freeCtr (s : State) (p : Nat) (m : TxMsg) : (State.sendOrHold s p m).freeCtr = s.freeCtr := by rw [State.sendOrHold_frame]
@[simp] theorem State.sendOrHold_pending (s : State) (p : Nat) (m : TxMsg) : (State.sendOrHold s p m).pending = s.pending := by rw [State.sendOrHold_frame]

/-- All that it changes. -/
theorem State.sendAll_frame (s : State) (l : List Nat) (m : TxMsg) : State.sendAll s l m = { s with tx := (State.sendAll s l m).tx } := by
  unfold State.sendAll
  induction l generalizing s with
  | nil => rfl
  | cons p r ih => rw [List.foldl, ih, State.send_frame]
@[simp] theorem State.sendAll_params (s : State) (l : List Nat) (m : TxMsg) : (State.sendAll s l m).params = s.params := by rw [State.sendAll_frame]
@[simp] theorem State.sendAll_time (s : State) (l : List Nat) (m : TxMsg) : (State.sendAll s l m).time = s.time := by rw [State.sendAll_frame]
@[simp] theorem State.sendAll_dpll (s : State) (l : List Nat) (m : TxMsg) : (State.sendAll s l m).dpll = s.dpll := by rw [State.sendAll_frame]
@[simp] theorem State.sendAll_tdc (s : State) (l : List Nat) (m : TxMsg) : (State.sendAll s l m).tdc = s.tdc := by rw [State.sendAll_frame]
@[simp] theorem State.sendAll_ports (s : State) (l : List Nat) (m : TxMsg) : (State.sendAll s l m).ports = s.ports := by rw [State.sendAll_frame]
@[simp] theorem State.sendAll_tsrc (s : State) (l : List Nat) (m : TxMsg) : (State.sendAll s l m).tsrc = s.tsrc := by rw [State.sendAll_frame]
@[simp] theorem State.sendAll_docket (s : State) (l : List Nat) (m : TxMsg) : (State.sendAll s l m).docket = s.docket := by rw [State.sendAll_frame]
@[simp] theorem State.sendAll_sync (s : State) (l : List Nat) (m : TxMsg) : (State.sendAll s l m).sync = s.sync := by rw [State.sendAll_frame]
@[simp] theorem State.sendAll_tiles (s : State) (l : List Nat) (m : TxMsg) : (State.sendAll s l m).tiles = s.tiles := by rw [State.sendAll_frame]
@[simp] theorem State.sendAll_coll (s : State) (l : List Nat) (m : TxMsg) : (State.sendAll s l m).coll = s.coll := by rw [State.sendAll_frame]
@[simp] theorem State.sendAll_sched (s : State) (l : List Nat) (m : TxMsg) : (State.sendAll s l m).sched = s.sched := by rw [State.sendAll_frame]
@[simp] theorem State.sendAll_hm (s : State) (l : List Nat) (m : TxMsg) : (State.sendAll s l m).hm = s.hm := by rw [State.sendAll_frame]
@[simp] theorem State.sendAll_flt (s : State) (l : List Nat) (m : TxMsg) : (State.sendAll s l m).flt = s.flt := by rw [State.sendAll_frame]
@[simp] theorem State.sendAll_jm (s : State) (l : List Nat) (m : TxMsg) : (State.sendAll s l m).jm = s.jm := by rw [State.sendAll_frame]
@[simp] theorem State.sendAll_test (s : State) (l : List Nat) (m : TxMsg) : (State.sendAll s l m).test = s.test := by rw [State.sendAll_frame]
@[simp] theorem State.sendAll_pwr (s : State) (l : List Nat) (m : TxMsg) : (State.sendAll s l m).pwr = s.pwr := by rw [State.sendAll_frame]
@[simp] theorem State.sendAll_pair (s : State) (l : List Nat) (m : TxMsg) : (State.sendAll s l m).pair = s.pair := by rw [State.sendAll_frame]
@[simp] theorem State.sendAll_ctx (s : State) (l : List Nat) (m : TxMsg) : (State.sendAll s l m).ctx = s.ctx := by rw [State.sendAll_frame]
@[simp] theorem State.sendAll_sec (s : State) (l : List Nat) (m : TxMsg) : (State.sendAll s l m).sec = s.sec := by rw [State.sendAll_frame]
@[simp] theorem State.sendAll_scriv (s : State) (l : List Nat) (m : TxMsg) : (State.sendAll s l m).scriv = s.scriv := by rw [State.sendAll_frame]
@[simp] theorem State.sendAll_boot (s : State) (l : List Nat) (m : TxMsg) : (State.sendAll s l m).boot = s.boot := by rw [State.sendAll_frame]
@[simp] theorem State.sendAll_flash (s : State) (l : List Nat) (m : TxMsg) : (State.sendAll s l m).flash = s.flash := by rw [State.sendAll_frame]
@[simp] theorem State.sendAll_irq (s : State) (l : List Nat) (m : TxMsg) : (State.sendAll s l m).irq = s.irq := by rw [State.sendAll_frame]
@[simp] theorem State.sendAll_rg (s : State) (l : List Nat) (m : TxMsg) : (State.sendAll s l m).rg = s.rg := by rw [State.sendAll_frame]
@[simp] theorem State.sendAll_freeCtr (s : State) (l : List Nat) (m : TxMsg) : (State.sendAll s l m).freeCtr = s.freeCtr := by rw [State.sendAll_frame]
@[simp] theorem State.sendAll_pending (s : State) (l : List Nat) (m : TxMsg) : (State.sendAll s l m).pending = s.pending := by rw [State.sendAll_frame]

/-- All that it changes. -/
theorem State.sendChord_frame (s : State) (m : TxMsg) : State.sendChord s m = { s with tx := (State.sendChord s m).tx } := by
  unfold State.sendChord
  split
  · rfl
  · exact State.send_frame ..
@[simp] theorem State.sendChord_params (s : State) (m : TxMsg) : (State.sendChord s m).params = s.params := by rw [State.sendChord_frame]
@[simp] theorem State.sendChord_time (s : State) (m : TxMsg) : (State.sendChord s m).time = s.time := by rw [State.sendChord_frame]
@[simp] theorem State.sendChord_dpll (s : State) (m : TxMsg) : (State.sendChord s m).dpll = s.dpll := by rw [State.sendChord_frame]
@[simp] theorem State.sendChord_tdc (s : State) (m : TxMsg) : (State.sendChord s m).tdc = s.tdc := by rw [State.sendChord_frame]
@[simp] theorem State.sendChord_ports (s : State) (m : TxMsg) : (State.sendChord s m).ports = s.ports := by rw [State.sendChord_frame]
@[simp] theorem State.sendChord_tsrc (s : State) (m : TxMsg) : (State.sendChord s m).tsrc = s.tsrc := by rw [State.sendChord_frame]
@[simp] theorem State.sendChord_docket (s : State) (m : TxMsg) : (State.sendChord s m).docket = s.docket := by rw [State.sendChord_frame]
@[simp] theorem State.sendChord_sync (s : State) (m : TxMsg) : (State.sendChord s m).sync = s.sync := by rw [State.sendChord_frame]
@[simp] theorem State.sendChord_tiles (s : State) (m : TxMsg) : (State.sendChord s m).tiles = s.tiles := by rw [State.sendChord_frame]
@[simp] theorem State.sendChord_coll (s : State) (m : TxMsg) : (State.sendChord s m).coll = s.coll := by rw [State.sendChord_frame]
@[simp] theorem State.sendChord_sched (s : State) (m : TxMsg) : (State.sendChord s m).sched = s.sched := by rw [State.sendChord_frame]
@[simp] theorem State.sendChord_hm (s : State) (m : TxMsg) : (State.sendChord s m).hm = s.hm := by rw [State.sendChord_frame]
@[simp] theorem State.sendChord_flt (s : State) (m : TxMsg) : (State.sendChord s m).flt = s.flt := by rw [State.sendChord_frame]
@[simp] theorem State.sendChord_jm (s : State) (m : TxMsg) : (State.sendChord s m).jm = s.jm := by rw [State.sendChord_frame]
@[simp] theorem State.sendChord_test (s : State) (m : TxMsg) : (State.sendChord s m).test = s.test := by rw [State.sendChord_frame]
@[simp] theorem State.sendChord_pwr (s : State) (m : TxMsg) : (State.sendChord s m).pwr = s.pwr := by rw [State.sendChord_frame]
@[simp] theorem State.sendChord_pair (s : State) (m : TxMsg) : (State.sendChord s m).pair = s.pair := by rw [State.sendChord_frame]
@[simp] theorem State.sendChord_ctx (s : State) (m : TxMsg) : (State.sendChord s m).ctx = s.ctx := by rw [State.sendChord_frame]
@[simp] theorem State.sendChord_sec (s : State) (m : TxMsg) : (State.sendChord s m).sec = s.sec := by rw [State.sendChord_frame]
@[simp] theorem State.sendChord_scriv (s : State) (m : TxMsg) : (State.sendChord s m).scriv = s.scriv := by rw [State.sendChord_frame]
@[simp] theorem State.sendChord_boot (s : State) (m : TxMsg) : (State.sendChord s m).boot = s.boot := by rw [State.sendChord_frame]
@[simp] theorem State.sendChord_flash (s : State) (m : TxMsg) : (State.sendChord s m).flash = s.flash := by rw [State.sendChord_frame]
@[simp] theorem State.sendChord_irq (s : State) (m : TxMsg) : (State.sendChord s m).irq = s.irq := by rw [State.sendChord_frame]
@[simp] theorem State.sendChord_rg (s : State) (m : TxMsg) : (State.sendChord s m).rg = s.rg := by rw [State.sendChord_frame]
@[simp] theorem State.sendChord_freeCtr (s : State) (m : TxMsg) : (State.sendChord s m).freeCtr = s.freeCtr := by rw [State.sendChord_frame]
@[simp] theorem State.sendChord_pending (s : State) (m : TxMsg) : (State.sendChord s m).pending = s.pending := by rw [State.sendChord_frame]

/-- All that it changes. -/
theorem State.sendUp_frame (s : State) (m : TxMsg) : State.sendUp s m = { s with tx := (State.sendUp s m).tx, flt := (State.sendUp s m).flt } := by
  unfold State.sendUp
  split
  · rw [State.send_frame]
  · split
    · rfl
    · rw [State.hold_frame]
@[simp] theorem State.sendUp_params (s : State) (m : TxMsg) : (State.sendUp s m).params = s.params := by rw [State.sendUp_frame]
@[simp] theorem State.sendUp_time (s : State) (m : TxMsg) : (State.sendUp s m).time = s.time := by rw [State.sendUp_frame]
@[simp] theorem State.sendUp_dpll (s : State) (m : TxMsg) : (State.sendUp s m).dpll = s.dpll := by rw [State.sendUp_frame]
@[simp] theorem State.sendUp_tdc (s : State) (m : TxMsg) : (State.sendUp s m).tdc = s.tdc := by rw [State.sendUp_frame]
@[simp] theorem State.sendUp_ports (s : State) (m : TxMsg) : (State.sendUp s m).ports = s.ports := by rw [State.sendUp_frame]
@[simp] theorem State.sendUp_tsrc (s : State) (m : TxMsg) : (State.sendUp s m).tsrc = s.tsrc := by rw [State.sendUp_frame]
@[simp] theorem State.sendUp_docket (s : State) (m : TxMsg) : (State.sendUp s m).docket = s.docket := by rw [State.sendUp_frame]
@[simp] theorem State.sendUp_sync (s : State) (m : TxMsg) : (State.sendUp s m).sync = s.sync := by rw [State.sendUp_frame]
@[simp] theorem State.sendUp_tiles (s : State) (m : TxMsg) : (State.sendUp s m).tiles = s.tiles := by rw [State.sendUp_frame]
@[simp] theorem State.sendUp_coll (s : State) (m : TxMsg) : (State.sendUp s m).coll = s.coll := by rw [State.sendUp_frame]
@[simp] theorem State.sendUp_sched (s : State) (m : TxMsg) : (State.sendUp s m).sched = s.sched := by rw [State.sendUp_frame]
@[simp] theorem State.sendUp_hm (s : State) (m : TxMsg) : (State.sendUp s m).hm = s.hm := by rw [State.sendUp_frame]
@[simp] theorem State.sendUp_jm (s : State) (m : TxMsg) : (State.sendUp s m).jm = s.jm := by rw [State.sendUp_frame]
@[simp] theorem State.sendUp_test (s : State) (m : TxMsg) : (State.sendUp s m).test = s.test := by rw [State.sendUp_frame]
@[simp] theorem State.sendUp_pwr (s : State) (m : TxMsg) : (State.sendUp s m).pwr = s.pwr := by rw [State.sendUp_frame]
@[simp] theorem State.sendUp_pair (s : State) (m : TxMsg) : (State.sendUp s m).pair = s.pair := by rw [State.sendUp_frame]
@[simp] theorem State.sendUp_ctx (s : State) (m : TxMsg) : (State.sendUp s m).ctx = s.ctx := by rw [State.sendUp_frame]
@[simp] theorem State.sendUp_sec (s : State) (m : TxMsg) : (State.sendUp s m).sec = s.sec := by rw [State.sendUp_frame]
@[simp] theorem State.sendUp_scriv (s : State) (m : TxMsg) : (State.sendUp s m).scriv = s.scriv := by rw [State.sendUp_frame]
@[simp] theorem State.sendUp_boot (s : State) (m : TxMsg) : (State.sendUp s m).boot = s.boot := by rw [State.sendUp_frame]
@[simp] theorem State.sendUp_flash (s : State) (m : TxMsg) : (State.sendUp s m).flash = s.flash := by rw [State.sendUp_frame]
@[simp] theorem State.sendUp_irq (s : State) (m : TxMsg) : (State.sendUp s m).irq = s.irq := by rw [State.sendUp_frame]
@[simp] theorem State.sendUp_rg (s : State) (m : TxMsg) : (State.sendUp s m).rg = s.rg := by rw [State.sendUp_frame]
@[simp] theorem State.sendUp_freeCtr (s : State) (m : TxMsg) : (State.sendUp s m).freeCtr = s.freeCtr := by rw [State.sendUp_frame]
@[simp] theorem State.sendUp_pending (s : State) (m : TxMsg) : (State.sendUp s m).pending = s.pending := by rw [State.sendUp_frame]

/-- All that it changes. -/
theorem State.logWrite_frame (s : State) (m : MirrorMsg) : State.logWrite s m = { s with scriv := (State.logWrite s m).scriv } := by
  unfold State.logWrite
  split <;> rfl
@[simp] theorem State.logWrite_params (s : State) (m : MirrorMsg) : (State.logWrite s m).params = s.params := by rw [State.logWrite_frame]
@[simp] theorem State.logWrite_time (s : State) (m : MirrorMsg) : (State.logWrite s m).time = s.time := by rw [State.logWrite_frame]
@[simp] theorem State.logWrite_dpll (s : State) (m : MirrorMsg) : (State.logWrite s m).dpll = s.dpll := by rw [State.logWrite_frame]
@[simp] theorem State.logWrite_tdc (s : State) (m : MirrorMsg) : (State.logWrite s m).tdc = s.tdc := by rw [State.logWrite_frame]
@[simp] theorem State.logWrite_ports (s : State) (m : MirrorMsg) : (State.logWrite s m).ports = s.ports := by rw [State.logWrite_frame]
@[simp] theorem State.logWrite_tsrc (s : State) (m : MirrorMsg) : (State.logWrite s m).tsrc = s.tsrc := by rw [State.logWrite_frame]
@[simp] theorem State.logWrite_docket (s : State) (m : MirrorMsg) : (State.logWrite s m).docket = s.docket := by rw [State.logWrite_frame]
@[simp] theorem State.logWrite_sync (s : State) (m : MirrorMsg) : (State.logWrite s m).sync = s.sync := by rw [State.logWrite_frame]
@[simp] theorem State.logWrite_tiles (s : State) (m : MirrorMsg) : (State.logWrite s m).tiles = s.tiles := by rw [State.logWrite_frame]
@[simp] theorem State.logWrite_coll (s : State) (m : MirrorMsg) : (State.logWrite s m).coll = s.coll := by rw [State.logWrite_frame]
@[simp] theorem State.logWrite_sched (s : State) (m : MirrorMsg) : (State.logWrite s m).sched = s.sched := by rw [State.logWrite_frame]
@[simp] theorem State.logWrite_hm (s : State) (m : MirrorMsg) : (State.logWrite s m).hm = s.hm := by rw [State.logWrite_frame]
@[simp] theorem State.logWrite_flt (s : State) (m : MirrorMsg) : (State.logWrite s m).flt = s.flt := by rw [State.logWrite_frame]
@[simp] theorem State.logWrite_jm (s : State) (m : MirrorMsg) : (State.logWrite s m).jm = s.jm := by rw [State.logWrite_frame]
@[simp] theorem State.logWrite_test (s : State) (m : MirrorMsg) : (State.logWrite s m).test = s.test := by rw [State.logWrite_frame]
@[simp] theorem State.logWrite_pwr (s : State) (m : MirrorMsg) : (State.logWrite s m).pwr = s.pwr := by rw [State.logWrite_frame]
@[simp] theorem State.logWrite_pair (s : State) (m : MirrorMsg) : (State.logWrite s m).pair = s.pair := by rw [State.logWrite_frame]
@[simp] theorem State.logWrite_ctx (s : State) (m : MirrorMsg) : (State.logWrite s m).ctx = s.ctx := by rw [State.logWrite_frame]
@[simp] theorem State.logWrite_sec (s : State) (m : MirrorMsg) : (State.logWrite s m).sec = s.sec := by rw [State.logWrite_frame]
@[simp] theorem State.logWrite_boot (s : State) (m : MirrorMsg) : (State.logWrite s m).boot = s.boot := by rw [State.logWrite_frame]
@[simp] theorem State.logWrite_flash (s : State) (m : MirrorMsg) : (State.logWrite s m).flash = s.flash := by rw [State.logWrite_frame]
@[simp] theorem State.logWrite_irq (s : State) (m : MirrorMsg) : (State.logWrite s m).irq = s.irq := by rw [State.logWrite_frame]
@[simp] theorem State.logWrite_rg (s : State) (m : MirrorMsg) : (State.logWrite s m).rg = s.rg := by rw [State.logWrite_frame]
@[simp] theorem State.logWrite_tx (s : State) (m : MirrorMsg) : (State.logWrite s m).tx = s.tx := by rw [State.logWrite_frame]
@[simp] theorem State.logWrite_freeCtr (s : State) (m : MirrorMsg) : (State.logWrite s m).freeCtr = s.freeCtr := by rw [State.logWrite_frame]
@[simp] theorem State.logWrite_pending (s : State) (m : MirrorMsg) : (State.logWrite s m).pending = s.pending := by rw [State.logWrite_frame]

/-- All that it changes. -/
theorem State.mirror_frame (s : State) (m : MirrorMsg) : State.mirror s m = { s with tx := (State.mirror s m).tx, scriv := (State.mirror s m).scriv } := by
  unfold State.mirror
  split
  · dsimp only
    split
    · rw [State.logWrite_frame]
    · rw [State.sendChord_frame, State.logWrite_frame]
  · rfl
@[simp] theorem State.mirror_params (s : State) (m : MirrorMsg) : (State.mirror s m).params = s.params := by rw [State.mirror_frame]
@[simp] theorem State.mirror_time (s : State) (m : MirrorMsg) : (State.mirror s m).time = s.time := by rw [State.mirror_frame]
@[simp] theorem State.mirror_dpll (s : State) (m : MirrorMsg) : (State.mirror s m).dpll = s.dpll := by rw [State.mirror_frame]
@[simp] theorem State.mirror_tdc (s : State) (m : MirrorMsg) : (State.mirror s m).tdc = s.tdc := by rw [State.mirror_frame]
@[simp] theorem State.mirror_ports (s : State) (m : MirrorMsg) : (State.mirror s m).ports = s.ports := by rw [State.mirror_frame]
@[simp] theorem State.mirror_tsrc (s : State) (m : MirrorMsg) : (State.mirror s m).tsrc = s.tsrc := by rw [State.mirror_frame]
@[simp] theorem State.mirror_docket (s : State) (m : MirrorMsg) : (State.mirror s m).docket = s.docket := by rw [State.mirror_frame]
@[simp] theorem State.mirror_sync (s : State) (m : MirrorMsg) : (State.mirror s m).sync = s.sync := by rw [State.mirror_frame]
@[simp] theorem State.mirror_tiles (s : State) (m : MirrorMsg) : (State.mirror s m).tiles = s.tiles := by rw [State.mirror_frame]
@[simp] theorem State.mirror_coll (s : State) (m : MirrorMsg) : (State.mirror s m).coll = s.coll := by rw [State.mirror_frame]
@[simp] theorem State.mirror_sched (s : State) (m : MirrorMsg) : (State.mirror s m).sched = s.sched := by rw [State.mirror_frame]
@[simp] theorem State.mirror_hm (s : State) (m : MirrorMsg) : (State.mirror s m).hm = s.hm := by rw [State.mirror_frame]
@[simp] theorem State.mirror_flt (s : State) (m : MirrorMsg) : (State.mirror s m).flt = s.flt := by rw [State.mirror_frame]
@[simp] theorem State.mirror_jm (s : State) (m : MirrorMsg) : (State.mirror s m).jm = s.jm := by rw [State.mirror_frame]
@[simp] theorem State.mirror_test (s : State) (m : MirrorMsg) : (State.mirror s m).test = s.test := by rw [State.mirror_frame]
@[simp] theorem State.mirror_pwr (s : State) (m : MirrorMsg) : (State.mirror s m).pwr = s.pwr := by rw [State.mirror_frame]
@[simp] theorem State.mirror_pair (s : State) (m : MirrorMsg) : (State.mirror s m).pair = s.pair := by rw [State.mirror_frame]
@[simp] theorem State.mirror_ctx (s : State) (m : MirrorMsg) : (State.mirror s m).ctx = s.ctx := by rw [State.mirror_frame]
@[simp] theorem State.mirror_sec (s : State) (m : MirrorMsg) : (State.mirror s m).sec = s.sec := by rw [State.mirror_frame]
@[simp] theorem State.mirror_boot (s : State) (m : MirrorMsg) : (State.mirror s m).boot = s.boot := by rw [State.mirror_frame]
@[simp] theorem State.mirror_flash (s : State) (m : MirrorMsg) : (State.mirror s m).flash = s.flash := by rw [State.mirror_frame]
@[simp] theorem State.mirror_irq (s : State) (m : MirrorMsg) : (State.mirror s m).irq = s.irq := by rw [State.mirror_frame]
@[simp] theorem State.mirror_rg (s : State) (m : MirrorMsg) : (State.mirror s m).rg = s.rg := by rw [State.mirror_frame]
@[simp] theorem State.mirror_freeCtr (s : State) (m : MirrorMsg) : (State.mirror s m).freeCtr = s.freeCtr := by rw [State.mirror_frame]
@[simp] theorem State.mirror_pending (s : State) (m : MirrorMsg) : (State.mirror s m).pending = s.pending := by rw [State.mirror_frame]

/-- All that it changes. -/
theorem State.record_frame (s : State) (r : RecArgs) : State.record s r = { s with flt := (State.record s r).flt, freeCtr := (State.record s r).freeCtr, tx := (State.record s r).tx } := by
  unfold State.record
  dsimp only
  split
  · rfl
  · rw [State.sendUp_frame]
    unfold State.pushNotice
    dsimp only
    split <;> rfl
@[simp] theorem State.record_params (s : State) (r : RecArgs) : (State.record s r).params = s.params := by rw [State.record_frame]
@[simp] theorem State.record_time (s : State) (r : RecArgs) : (State.record s r).time = s.time := by rw [State.record_frame]
@[simp] theorem State.record_dpll (s : State) (r : RecArgs) : (State.record s r).dpll = s.dpll := by rw [State.record_frame]
@[simp] theorem State.record_tdc (s : State) (r : RecArgs) : (State.record s r).tdc = s.tdc := by rw [State.record_frame]
@[simp] theorem State.record_ports (s : State) (r : RecArgs) : (State.record s r).ports = s.ports := by rw [State.record_frame]
@[simp] theorem State.record_tsrc (s : State) (r : RecArgs) : (State.record s r).tsrc = s.tsrc := by rw [State.record_frame]
@[simp] theorem State.record_docket (s : State) (r : RecArgs) : (State.record s r).docket = s.docket := by rw [State.record_frame]
@[simp] theorem State.record_sync (s : State) (r : RecArgs) : (State.record s r).sync = s.sync := by rw [State.record_frame]
@[simp] theorem State.record_tiles (s : State) (r : RecArgs) : (State.record s r).tiles = s.tiles := by rw [State.record_frame]
@[simp] theorem State.record_coll (s : State) (r : RecArgs) : (State.record s r).coll = s.coll := by rw [State.record_frame]
@[simp] theorem State.record_sched (s : State) (r : RecArgs) : (State.record s r).sched = s.sched := by rw [State.record_frame]
@[simp] theorem State.record_hm (s : State) (r : RecArgs) : (State.record s r).hm = s.hm := by rw [State.record_frame]
@[simp] theorem State.record_jm (s : State) (r : RecArgs) : (State.record s r).jm = s.jm := by rw [State.record_frame]
@[simp] theorem State.record_test (s : State) (r : RecArgs) : (State.record s r).test = s.test := by rw [State.record_frame]
@[simp] theorem State.record_pwr (s : State) (r : RecArgs) : (State.record s r).pwr = s.pwr := by rw [State.record_frame]
@[simp] theorem State.record_pair (s : State) (r : RecArgs) : (State.record s r).pair = s.pair := by rw [State.record_frame]
@[simp] theorem State.record_ctx (s : State) (r : RecArgs) : (State.record s r).ctx = s.ctx := by rw [State.record_frame]
@[simp] theorem State.record_sec (s : State) (r : RecArgs) : (State.record s r).sec = s.sec := by rw [State.record_frame]
@[simp] theorem State.record_scriv (s : State) (r : RecArgs) : (State.record s r).scriv = s.scriv := by rw [State.record_frame]
@[simp] theorem State.record_boot (s : State) (r : RecArgs) : (State.record s r).boot = s.boot := by rw [State.record_frame]
@[simp] theorem State.record_flash (s : State) (r : RecArgs) : (State.record s r).flash = s.flash := by rw [State.record_frame]
@[simp] theorem State.record_irq (s : State) (r : RecArgs) : (State.record s r).irq = s.irq := by rw [State.record_frame]
@[simp] theorem State.record_rg (s : State) (r : RecArgs) : (State.record s r).rg = s.rg := by rw [State.record_frame]
@[simp] theorem State.record_pending (s : State) (r : RecArgs) : (State.record s r).pending = s.pending := by rw [State.record_frame]

/-- All that it changes. -/
theorem State.hist_frame (s : State) (n : Nat) : State.hist s n = { s with dpll := (State.hist s n).dpll, flt := (State.hist s n).flt, freeCtr := (State.hist s n).freeCtr, tx := (State.hist s n).tx } := by
  unfold State.hist
  split
  · rw [State.record_frame]
  · rfl
@[simp] theorem State.hist_params (s : State) (n : Nat) : (State.hist s n).params = s.params := by rw [State.hist_frame]
@[simp] theorem State.hist_time (s : State) (n : Nat) : (State.hist s n).time = s.time := by rw [State.hist_frame]
@[simp] theorem State.hist_tdc (s : State) (n : Nat) : (State.hist s n).tdc = s.tdc := by rw [State.hist_frame]
@[simp] theorem State.hist_ports (s : State) (n : Nat) : (State.hist s n).ports = s.ports := by rw [State.hist_frame]
@[simp] theorem State.hist_tsrc (s : State) (n : Nat) : (State.hist s n).tsrc = s.tsrc := by rw [State.hist_frame]
@[simp] theorem State.hist_docket (s : State) (n : Nat) : (State.hist s n).docket = s.docket := by rw [State.hist_frame]
@[simp] theorem State.hist_sync (s : State) (n : Nat) : (State.hist s n).sync = s.sync := by rw [State.hist_frame]
@[simp] theorem State.hist_tiles (s : State) (n : Nat) : (State.hist s n).tiles = s.tiles := by rw [State.hist_frame]
@[simp] theorem State.hist_coll (s : State) (n : Nat) : (State.hist s n).coll = s.coll := by rw [State.hist_frame]
@[simp] theorem State.hist_sched (s : State) (n : Nat) : (State.hist s n).sched = s.sched := by rw [State.hist_frame]
@[simp] theorem State.hist_hm (s : State) (n : Nat) : (State.hist s n).hm = s.hm := by rw [State.hist_frame]
@[simp] theorem State.hist_jm (s : State) (n : Nat) : (State.hist s n).jm = s.jm := by rw [State.hist_frame]
@[simp] theorem State.hist_test (s : State) (n : Nat) : (State.hist s n).test = s.test := by rw [State.hist_frame]
@[simp] theorem State.hist_pwr (s : State) (n : Nat) : (State.hist s n).pwr = s.pwr := by rw [State.hist_frame]
@[simp] theorem State.hist_pair (s : State) (n : Nat) : (State.hist s n).pair = s.pair := by rw [State.hist_frame]
@[simp] theorem State.hist_ctx (s : State) (n : Nat) : (State.hist s n).ctx = s.ctx := by rw [State.hist_frame]
@[simp] theorem State.hist_sec (s : State) (n : Nat) : (State.hist s n).sec = s.sec := by rw [State.hist_frame]
@[simp] theorem State.hist_scriv (s : State) (n : Nat) : (State.hist s n).scriv = s.scriv := by rw [State.hist_frame]
@[simp] theorem State.hist_boot (s : State) (n : Nat) : (State.hist s n).boot = s.boot := by rw [State.hist_frame]
@[simp] theorem State.hist_flash (s : State) (n : Nat) : (State.hist s n).flash = s.flash := by rw [State.hist_frame]
@[simp] theorem State.hist_irq (s : State) (n : Nat) : (State.hist s n).irq = s.irq := by rw [State.hist_frame]
@[simp] theorem State.hist_rg (s : State) (n : Nat) : (State.hist s n).rg = s.rg := by rw [State.hist_frame]
@[simp] theorem State.hist_pending (s : State) (n : Nat) : (State.hist s n).pending = s.pending := by rw [State.hist_frame]

/-- All that it changes. -/
theorem State.refreshWord_frame (s : State) : State.refreshWord s = { s with time := (State.refreshWord s).time, irq := (State.refreshWord s).irq, tx := (State.refreshWord s).tx, scriv := (State.refreshWord s).scriv } := by
  unfold State.refreshWord
  dsimp only
  split
  · rfl
  · rw [State.mirror_frame]
@[simp] theorem State.refreshWord_params (s : State) : (State.refreshWord s).params = s.params := by rw [State.refreshWord_frame]
@[simp] theorem State.refreshWord_dpll (s : State) : (State.refreshWord s).dpll = s.dpll := by rw [State.refreshWord_frame]
@[simp] theorem State.refreshWord_tdc (s : State) : (State.refreshWord s).tdc = s.tdc := by rw [State.refreshWord_frame]
@[simp] theorem State.refreshWord_ports (s : State) : (State.refreshWord s).ports = s.ports := by rw [State.refreshWord_frame]
@[simp] theorem State.refreshWord_tsrc (s : State) : (State.refreshWord s).tsrc = s.tsrc := by rw [State.refreshWord_frame]
@[simp] theorem State.refreshWord_docket (s : State) : (State.refreshWord s).docket = s.docket := by rw [State.refreshWord_frame]
@[simp] theorem State.refreshWord_sync (s : State) : (State.refreshWord s).sync = s.sync := by rw [State.refreshWord_frame]
@[simp] theorem State.refreshWord_tiles (s : State) : (State.refreshWord s).tiles = s.tiles := by rw [State.refreshWord_frame]
@[simp] theorem State.refreshWord_coll (s : State) : (State.refreshWord s).coll = s.coll := by rw [State.refreshWord_frame]
@[simp] theorem State.refreshWord_sched (s : State) : (State.refreshWord s).sched = s.sched := by rw [State.refreshWord_frame]
@[simp] theorem State.refreshWord_hm (s : State) : (State.refreshWord s).hm = s.hm := by rw [State.refreshWord_frame]
@[simp] theorem State.refreshWord_flt (s : State) : (State.refreshWord s).flt = s.flt := by rw [State.refreshWord_frame]
@[simp] theorem State.refreshWord_jm (s : State) : (State.refreshWord s).jm = s.jm := by rw [State.refreshWord_frame]
@[simp] theorem State.refreshWord_test (s : State) : (State.refreshWord s).test = s.test := by rw [State.refreshWord_frame]
@[simp] theorem State.refreshWord_pwr (s : State) : (State.refreshWord s).pwr = s.pwr := by rw [State.refreshWord_frame]
@[simp] theorem State.refreshWord_pair (s : State) : (State.refreshWord s).pair = s.pair := by rw [State.refreshWord_frame]
@[simp] theorem State.refreshWord_ctx (s : State) : (State.refreshWord s).ctx = s.ctx := by rw [State.refreshWord_frame]
@[simp] theorem State.refreshWord_sec (s : State) : (State.refreshWord s).sec = s.sec := by rw [State.refreshWord_frame]
@[simp] theorem State.refreshWord_boot (s : State) : (State.refreshWord s).boot = s.boot := by rw [State.refreshWord_frame]
@[simp] theorem State.refreshWord_flash (s : State) : (State.refreshWord s).flash = s.flash := by rw [State.refreshWord_frame]
@[simp] theorem State.refreshWord_rg (s : State) : (State.refreshWord s).rg = s.rg := by rw [State.refreshWord_frame]
@[simp] theorem State.refreshWord_freeCtr (s : State) : (State.refreshWord s).freeCtr = s.freeCtr := by rw [State.refreshWord_frame]
@[simp] theorem State.refreshWord_pending (s : State) : (State.refreshWord s).pending = s.pending := by rw [State.refreshWord_frame]

/-- All that it changes. -/
theorem State.ctxIrq_frame (s : State) (c b : Nat) : State.ctxIrq s c b = { s with ctx := (State.ctxIrq s c b).ctx } := by
  unfold State.ctxIrq
  split <;> rfl
@[simp] theorem State.ctxIrq_params (s : State) (c b : Nat) : (State.ctxIrq s c b).params = s.params := by rw [State.ctxIrq_frame]
@[simp] theorem State.ctxIrq_time (s : State) (c b : Nat) : (State.ctxIrq s c b).time = s.time := by rw [State.ctxIrq_frame]
@[simp] theorem State.ctxIrq_dpll (s : State) (c b : Nat) : (State.ctxIrq s c b).dpll = s.dpll := by rw [State.ctxIrq_frame]
@[simp] theorem State.ctxIrq_tdc (s : State) (c b : Nat) : (State.ctxIrq s c b).tdc = s.tdc := by rw [State.ctxIrq_frame]
@[simp] theorem State.ctxIrq_ports (s : State) (c b : Nat) : (State.ctxIrq s c b).ports = s.ports := by rw [State.ctxIrq_frame]
@[simp] theorem State.ctxIrq_tsrc (s : State) (c b : Nat) : (State.ctxIrq s c b).tsrc = s.tsrc := by rw [State.ctxIrq_frame]
@[simp] theorem State.ctxIrq_docket (s : State) (c b : Nat) : (State.ctxIrq s c b).docket = s.docket := by rw [State.ctxIrq_frame]
@[simp] theorem State.ctxIrq_sync (s : State) (c b : Nat) : (State.ctxIrq s c b).sync = s.sync := by rw [State.ctxIrq_frame]
@[simp] theorem State.ctxIrq_tiles (s : State) (c b : Nat) : (State.ctxIrq s c b).tiles = s.tiles := by rw [State.ctxIrq_frame]
@[simp] theorem State.ctxIrq_coll (s : State) (c b : Nat) : (State.ctxIrq s c b).coll = s.coll := by rw [State.ctxIrq_frame]
@[simp] theorem State.ctxIrq_sched (s : State) (c b : Nat) : (State.ctxIrq s c b).sched = s.sched := by rw [State.ctxIrq_frame]
@[simp] theorem State.ctxIrq_hm (s : State) (c b : Nat) : (State.ctxIrq s c b).hm = s.hm := by rw [State.ctxIrq_frame]
@[simp] theorem State.ctxIrq_flt (s : State) (c b : Nat) : (State.ctxIrq s c b).flt = s.flt := by rw [State.ctxIrq_frame]
@[simp] theorem State.ctxIrq_jm (s : State) (c b : Nat) : (State.ctxIrq s c b).jm = s.jm := by rw [State.ctxIrq_frame]
@[simp] theorem State.ctxIrq_test (s : State) (c b : Nat) : (State.ctxIrq s c b).test = s.test := by rw [State.ctxIrq_frame]
@[simp] theorem State.ctxIrq_pwr (s : State) (c b : Nat) : (State.ctxIrq s c b).pwr = s.pwr := by rw [State.ctxIrq_frame]
@[simp] theorem State.ctxIrq_pair (s : State) (c b : Nat) : (State.ctxIrq s c b).pair = s.pair := by rw [State.ctxIrq_frame]
@[simp] theorem State.ctxIrq_sec (s : State) (c b : Nat) : (State.ctxIrq s c b).sec = s.sec := by rw [State.ctxIrq_frame]
@[simp] theorem State.ctxIrq_scriv (s : State) (c b : Nat) : (State.ctxIrq s c b).scriv = s.scriv := by rw [State.ctxIrq_frame]
@[simp] theorem State.ctxIrq_boot (s : State) (c b : Nat) : (State.ctxIrq s c b).boot = s.boot := by rw [State.ctxIrq_frame]
@[simp] theorem State.ctxIrq_flash (s : State) (c b : Nat) : (State.ctxIrq s c b).flash = s.flash := by rw [State.ctxIrq_frame]
@[simp] theorem State.ctxIrq_irq (s : State) (c b : Nat) : (State.ctxIrq s c b).irq = s.irq := by rw [State.ctxIrq_frame]
@[simp] theorem State.ctxIrq_rg (s : State) (c b : Nat) : (State.ctxIrq s c b).rg = s.rg := by rw [State.ctxIrq_frame]
@[simp] theorem State.ctxIrq_tx (s : State) (c b : Nat) : (State.ctxIrq s c b).tx = s.tx := by rw [State.ctxIrq_frame]
@[simp] theorem State.ctxIrq_freeCtr (s : State) (c b : Nat) : (State.ctxIrq s c b).freeCtr = s.freeCtr := by rw [State.ctxIrq_frame]
@[simp] theorem State.ctxIrq_pending (s : State) (c b : Nat) : (State.ctxIrq s c b).pending = s.pending := by rw [State.ctxIrq_frame]

/-- All that it changes. -/
theorem State.fabricWrite_frame (s : State) (a : Nat) (l : List Byte) (p : Bool) (q : Nat) : State.fabricWrite s a l p q = { s with tx := (State.fabricWrite s a l p q).tx } := by
  unfold State.fabricWrite
  generalize fabricPieces (l.length + 1) a l = k
  induction k generalizing s with
  | nil => rfl
  | cons e r ih => rw [List.foldl, ih, State.send_frame]
@[simp] theorem State.fabricWrite_params (s : State) (a : Nat) (l : List Byte) (p : Bool) (q : Nat) : (State.fabricWrite s a l p q).params = s.params := by rw [State.fabricWrite_frame]
@[simp] theorem State.fabricWrite_time (s : State) (a : Nat) (l : List Byte) (p : Bool) (q : Nat) : (State.fabricWrite s a l p q).time = s.time := by rw [State.fabricWrite_frame]
@[simp] theorem State.fabricWrite_dpll (s : State) (a : Nat) (l : List Byte) (p : Bool) (q : Nat) : (State.fabricWrite s a l p q).dpll = s.dpll := by rw [State.fabricWrite_frame]
@[simp] theorem State.fabricWrite_tdc (s : State) (a : Nat) (l : List Byte) (p : Bool) (q : Nat) : (State.fabricWrite s a l p q).tdc = s.tdc := by rw [State.fabricWrite_frame]
@[simp] theorem State.fabricWrite_ports (s : State) (a : Nat) (l : List Byte) (p : Bool) (q : Nat) : (State.fabricWrite s a l p q).ports = s.ports := by rw [State.fabricWrite_frame]
@[simp] theorem State.fabricWrite_tsrc (s : State) (a : Nat) (l : List Byte) (p : Bool) (q : Nat) : (State.fabricWrite s a l p q).tsrc = s.tsrc := by rw [State.fabricWrite_frame]
@[simp] theorem State.fabricWrite_docket (s : State) (a : Nat) (l : List Byte) (p : Bool) (q : Nat) : (State.fabricWrite s a l p q).docket = s.docket := by rw [State.fabricWrite_frame]
@[simp] theorem State.fabricWrite_sync (s : State) (a : Nat) (l : List Byte) (p : Bool) (q : Nat) : (State.fabricWrite s a l p q).sync = s.sync := by rw [State.fabricWrite_frame]
@[simp] theorem State.fabricWrite_tiles (s : State) (a : Nat) (l : List Byte) (p : Bool) (q : Nat) : (State.fabricWrite s a l p q).tiles = s.tiles := by rw [State.fabricWrite_frame]
@[simp] theorem State.fabricWrite_coll (s : State) (a : Nat) (l : List Byte) (p : Bool) (q : Nat) : (State.fabricWrite s a l p q).coll = s.coll := by rw [State.fabricWrite_frame]
@[simp] theorem State.fabricWrite_sched (s : State) (a : Nat) (l : List Byte) (p : Bool) (q : Nat) : (State.fabricWrite s a l p q).sched = s.sched := by rw [State.fabricWrite_frame]
@[simp] theorem State.fabricWrite_hm (s : State) (a : Nat) (l : List Byte) (p : Bool) (q : Nat) : (State.fabricWrite s a l p q).hm = s.hm := by rw [State.fabricWrite_frame]
@[simp] theorem State.fabricWrite_flt (s : State) (a : Nat) (l : List Byte) (p : Bool) (q : Nat) : (State.fabricWrite s a l p q).flt = s.flt := by rw [State.fabricWrite_frame]
@[simp] theorem State.fabricWrite_jm (s : State) (a : Nat) (l : List Byte) (p : Bool) (q : Nat) : (State.fabricWrite s a l p q).jm = s.jm := by rw [State.fabricWrite_frame]
@[simp] theorem State.fabricWrite_test (s : State) (a : Nat) (l : List Byte) (p : Bool) (q : Nat) : (State.fabricWrite s a l p q).test = s.test := by rw [State.fabricWrite_frame]
@[simp] theorem State.fabricWrite_pwr (s : State) (a : Nat) (l : List Byte) (p : Bool) (q : Nat) : (State.fabricWrite s a l p q).pwr = s.pwr := by rw [State.fabricWrite_frame]
@[simp] theorem State.fabricWrite_pair (s : State) (a : Nat) (l : List Byte) (p : Bool) (q : Nat) : (State.fabricWrite s a l p q).pair = s.pair := by rw [State.fabricWrite_frame]
@[simp] theorem State.fabricWrite_ctx (s : State) (a : Nat) (l : List Byte) (p : Bool) (q : Nat) : (State.fabricWrite s a l p q).ctx = s.ctx := by rw [State.fabricWrite_frame]
@[simp] theorem State.fabricWrite_sec (s : State) (a : Nat) (l : List Byte) (p : Bool) (q : Nat) : (State.fabricWrite s a l p q).sec = s.sec := by rw [State.fabricWrite_frame]
@[simp] theorem State.fabricWrite_scriv (s : State) (a : Nat) (l : List Byte) (p : Bool) (q : Nat) : (State.fabricWrite s a l p q).scriv = s.scriv := by rw [State.fabricWrite_frame]
@[simp] theorem State.fabricWrite_boot (s : State) (a : Nat) (l : List Byte) (p : Bool) (q : Nat) : (State.fabricWrite s a l p q).boot = s.boot := by rw [State.fabricWrite_frame]
@[simp] theorem State.fabricWrite_flash (s : State) (a : Nat) (l : List Byte) (p : Bool) (q : Nat) : (State.fabricWrite s a l p q).flash = s.flash := by rw [State.fabricWrite_frame]
@[simp] theorem State.fabricWrite_irq (s : State) (a : Nat) (l : List Byte) (p : Bool) (q : Nat) : (State.fabricWrite s a l p q).irq = s.irq := by rw [State.fabricWrite_frame]
@[simp] theorem State.fabricWrite_rg (s : State) (a : Nat) (l : List Byte) (p : Bool) (q : Nat) : (State.fabricWrite s a l p q).rg = s.rg := by rw [State.fabricWrite_frame]
@[simp] theorem State.fabricWrite_freeCtr (s : State) (a : Nat) (l : List Byte) (p : Bool) (q : Nat) : (State.fabricWrite s a l p q).freeCtr = s.freeCtr := by rw [State.fabricWrite_frame]
@[simp] theorem State.fabricWrite_pending (s : State) (a : Nat) (l : List Byte) (p : Bool) (q : Nat) : (State.fabricWrite s a l p q).pending = s.pending := by rw [State.fabricWrite_frame]

/-- All that it changes. -/
theorem completeMb_frame (s : State) (m opcode : Nat) (c : St) (out : List Byte) : completeMb s m opcode c out = { s with scriv := (completeMb s m opcode c out).scriv, ctx := (completeMb s m opcode c out).ctx } := by
  unfold completeMb
  dsimp only
  split
  · split
    · rw [State.ctxIrq_frame]; rfl
    · rfl
  · rfl
@[simp] theorem completeMb_params (s : State) (m opcode : Nat) (c : St) (out : List Byte) : (completeMb s m opcode c out).params = s.params := by rw [completeMb_frame]
@[simp] theorem completeMb_time (s : State) (m opcode : Nat) (c : St) (out : List Byte) : (completeMb s m opcode c out).time = s.time := by rw [completeMb_frame]
@[simp] theorem completeMb_dpll (s : State) (m opcode : Nat) (c : St) (out : List Byte) : (completeMb s m opcode c out).dpll = s.dpll := by rw [completeMb_frame]
@[simp] theorem completeMb_tdc (s : State) (m opcode : Nat) (c : St) (out : List Byte) : (completeMb s m opcode c out).tdc = s.tdc := by rw [completeMb_frame]
@[simp] theorem completeMb_ports (s : State) (m opcode : Nat) (c : St) (out : List Byte) : (completeMb s m opcode c out).ports = s.ports := by rw [completeMb_frame]
@[simp] theorem completeMb_tsrc (s : State) (m opcode : Nat) (c : St) (out : List Byte) : (completeMb s m opcode c out).tsrc = s.tsrc := by rw [completeMb_frame]
@[simp] theorem completeMb_docket (s : State) (m opcode : Nat) (c : St) (out : List Byte) : (completeMb s m opcode c out).docket = s.docket := by rw [completeMb_frame]
@[simp] theorem completeMb_sync (s : State) (m opcode : Nat) (c : St) (out : List Byte) : (completeMb s m opcode c out).sync = s.sync := by rw [completeMb_frame]
@[simp] theorem completeMb_tiles (s : State) (m opcode : Nat) (c : St) (out : List Byte) : (completeMb s m opcode c out).tiles = s.tiles := by rw [completeMb_frame]
@[simp] theorem completeMb_coll (s : State) (m opcode : Nat) (c : St) (out : List Byte) : (completeMb s m opcode c out).coll = s.coll := by rw [completeMb_frame]
@[simp] theorem completeMb_sched (s : State) (m opcode : Nat) (c : St) (out : List Byte) : (completeMb s m opcode c out).sched = s.sched := by rw [completeMb_frame]
@[simp] theorem completeMb_hm (s : State) (m opcode : Nat) (c : St) (out : List Byte) : (completeMb s m opcode c out).hm = s.hm := by rw [completeMb_frame]
@[simp] theorem completeMb_flt (s : State) (m opcode : Nat) (c : St) (out : List Byte) : (completeMb s m opcode c out).flt = s.flt := by rw [completeMb_frame]
@[simp] theorem completeMb_jm (s : State) (m opcode : Nat) (c : St) (out : List Byte) : (completeMb s m opcode c out).jm = s.jm := by rw [completeMb_frame]
@[simp] theorem completeMb_test (s : State) (m opcode : Nat) (c : St) (out : List Byte) : (completeMb s m opcode c out).test = s.test := by rw [completeMb_frame]
@[simp] theorem completeMb_pwr (s : State) (m opcode : Nat) (c : St) (out : List Byte) : (completeMb s m opcode c out).pwr = s.pwr := by rw [completeMb_frame]
@[simp] theorem completeMb_pair (s : State) (m opcode : Nat) (c : St) (out : List Byte) : (completeMb s m opcode c out).pair = s.pair := by rw [completeMb_frame]
@[simp] theorem completeMb_sec (s : State) (m opcode : Nat) (c : St) (out : List Byte) : (completeMb s m opcode c out).sec = s.sec := by rw [completeMb_frame]
@[simp] theorem completeMb_boot (s : State) (m opcode : Nat) (c : St) (out : List Byte) : (completeMb s m opcode c out).boot = s.boot := by rw [completeMb_frame]
@[simp] theorem completeMb_flash (s : State) (m opcode : Nat) (c : St) (out : List Byte) : (completeMb s m opcode c out).flash = s.flash := by rw [completeMb_frame]
@[simp] theorem completeMb_irq (s : State) (m opcode : Nat) (c : St) (out : List Byte) : (completeMb s m opcode c out).irq = s.irq := by rw [completeMb_frame]
@[simp] theorem completeMb_rg (s : State) (m opcode : Nat) (c : St) (out : List Byte) : (completeMb s m opcode c out).rg = s.rg := by rw [completeMb_frame]
@[simp] theorem completeMb_tx (s : State) (m opcode : Nat) (c : St) (out : List Byte) : (completeMb s m opcode c out).tx = s.tx := by rw [completeMb_frame]
@[simp] theorem completeMb_freeCtr (s : State) (m opcode : Nat) (c : St) (out : List Byte) : (completeMb s m opcode c out).freeCtr = s.freeCtr := by rw [completeMb_frame]
@[simp] theorem completeMb_pending (s : State) (m opcode : Nat) (c : St) (out : List Byte) : (completeMb s m opcode c out).pending = s.pending := by rw [completeMb_frame]

/-- All that it changes. -/
theorem completeFwd_frame (s : State) (block m seq : Nat) (c : St) (out : List Byte) : completeFwd s block m seq c out = { s with scriv := (completeFwd s block m seq c out).scriv, tx := (completeFwd s block m seq c out).tx } := by
  unfold completeFwd
  dsimp only
  split
  · rw [State.send_frame, State.mirror_frame]
  · rw [State.mirror_frame]
@[simp] theorem completeFwd_params (s : State) (block m seq : Nat) (c : St) (out : List Byte) : (completeFwd s block m seq c out).params = s.params := by rw [completeFwd_frame]
@[simp] theorem completeFwd_time (s : State) (block m seq : Nat) (c : St) (out : List Byte) : (completeFwd s block m seq c out).time = s.time := by rw [completeFwd_frame]
@[simp] theorem completeFwd_dpll (s : State) (block m seq : Nat) (c : St) (out : List Byte) : (completeFwd s block m seq c out).dpll = s.dpll := by rw [completeFwd_frame]
@[simp] theorem completeFwd_tdc (s : State) (block m seq : Nat) (c : St) (out : List Byte) : (completeFwd s block m seq c out).tdc = s.tdc := by rw [completeFwd_frame]
@[simp] theorem completeFwd_ports (s : State) (block m seq : Nat) (c : St) (out : List Byte) : (completeFwd s block m seq c out).ports = s.ports := by rw [completeFwd_frame]
@[simp] theorem completeFwd_tsrc (s : State) (block m seq : Nat) (c : St) (out : List Byte) : (completeFwd s block m seq c out).tsrc = s.tsrc := by rw [completeFwd_frame]
@[simp] theorem completeFwd_docket (s : State) (block m seq : Nat) (c : St) (out : List Byte) : (completeFwd s block m seq c out).docket = s.docket := by rw [completeFwd_frame]
@[simp] theorem completeFwd_sync (s : State) (block m seq : Nat) (c : St) (out : List Byte) : (completeFwd s block m seq c out).sync = s.sync := by rw [completeFwd_frame]
@[simp] theorem completeFwd_tiles (s : State) (block m seq : Nat) (c : St) (out : List Byte) : (completeFwd s block m seq c out).tiles = s.tiles := by rw [completeFwd_frame]
@[simp] theorem completeFwd_coll (s : State) (block m seq : Nat) (c : St) (out : List Byte) : (completeFwd s block m seq c out).coll = s.coll := by rw [completeFwd_frame]
@[simp] theorem completeFwd_sched (s : State) (block m seq : Nat) (c : St) (out : List Byte) : (completeFwd s block m seq c out).sched = s.sched := by rw [completeFwd_frame]
@[simp] theorem completeFwd_hm (s : State) (block m seq : Nat) (c : St) (out : List Byte) : (completeFwd s block m seq c out).hm = s.hm := by rw [completeFwd_frame]
@[simp] theorem completeFwd_flt (s : State) (block m seq : Nat) (c : St) (out : List Byte) : (completeFwd s block m seq c out).flt = s.flt := by rw [completeFwd_frame]
@[simp] theorem completeFwd_jm (s : State) (block m seq : Nat) (c : St) (out : List Byte) : (completeFwd s block m seq c out).jm = s.jm := by rw [completeFwd_frame]
@[simp] theorem completeFwd_test (s : State) (block m seq : Nat) (c : St) (out : List Byte) : (completeFwd s block m seq c out).test = s.test := by rw [completeFwd_frame]
@[simp] theorem completeFwd_pwr (s : State) (block m seq : Nat) (c : St) (out : List Byte) : (completeFwd s block m seq c out).pwr = s.pwr := by rw [completeFwd_frame]
@[simp] theorem completeFwd_pair (s : State) (block m seq : Nat) (c : St) (out : List Byte) : (completeFwd s block m seq c out).pair = s.pair := by rw [completeFwd_frame]
@[simp] theorem completeFwd_ctx (s : State) (block m seq : Nat) (c : St) (out : List Byte) : (completeFwd s block m seq c out).ctx = s.ctx := by rw [completeFwd_frame]
@[simp] theorem completeFwd_sec (s : State) (block m seq : Nat) (c : St) (out : List Byte) : (completeFwd s block m seq c out).sec = s.sec := by rw [completeFwd_frame]
@[simp] theorem completeFwd_boot (s : State) (block m seq : Nat) (c : St) (out : List Byte) : (completeFwd s block m seq c out).boot = s.boot := by rw [completeFwd_frame]
@[simp] theorem completeFwd_flash (s : State) (block m seq : Nat) (c : St) (out : List Byte) : (completeFwd s block m seq c out).flash = s.flash := by rw [completeFwd_frame]
@[simp] theorem completeFwd_irq (s : State) (block m seq : Nat) (c : St) (out : List Byte) : (completeFwd s block m seq c out).irq = s.irq := by rw [completeFwd_frame]
@[simp] theorem completeFwd_rg (s : State) (block m seq : Nat) (c : St) (out : List Byte) : (completeFwd s block m seq c out).rg = s.rg := by rw [completeFwd_frame]
@[simp] theorem completeFwd_freeCtr (s : State) (block m seq : Nat) (c : St) (out : List Byte) : (completeFwd s block m seq c out).freeCtr = s.freeCtr := by rw [completeFwd_frame]
@[simp] theorem completeFwd_pending (s : State) (block m seq : Nat) (c : St) (out : List Byte) : (completeFwd s block m seq c out).pending = s.pending := by rw [completeFwd_frame]

/-- All that it changes. -/
theorem complete_frame (s : State) (src : CmdSrc) (opcode : Nat) (c : St) (out : List Byte) : complete s src opcode c out = { s with scriv := (complete s src opcode c out).scriv, ctx := (complete s src opcode c out).ctx, tx := (complete s src opcode c out).tx } := by
  unfold complete
  dsimp only
  split
  all_goals split
  all_goals first
    | (rw [completeMb_frame]; split <;> first | rfl | rw [State.fabricWrite_frame])
    | (rw [completeFwd_frame]; split <;> first | rfl | rw [State.fabricWrite_frame])
    | rw [completeMb_frame]
    | rw [completeFwd_frame]
@[simp] theorem complete_params (s : State) (src : CmdSrc) (opcode : Nat) (c : St) (out : List Byte) : (complete s src opcode c out).params = s.params := by rw [complete_frame]
@[simp] theorem complete_time (s : State) (src : CmdSrc) (opcode : Nat) (c : St) (out : List Byte) : (complete s src opcode c out).time = s.time := by rw [complete_frame]
@[simp] theorem complete_dpll (s : State) (src : CmdSrc) (opcode : Nat) (c : St) (out : List Byte) : (complete s src opcode c out).dpll = s.dpll := by rw [complete_frame]
@[simp] theorem complete_tdc (s : State) (src : CmdSrc) (opcode : Nat) (c : St) (out : List Byte) : (complete s src opcode c out).tdc = s.tdc := by rw [complete_frame]
@[simp] theorem complete_ports (s : State) (src : CmdSrc) (opcode : Nat) (c : St) (out : List Byte) : (complete s src opcode c out).ports = s.ports := by rw [complete_frame]
@[simp] theorem complete_tsrc (s : State) (src : CmdSrc) (opcode : Nat) (c : St) (out : List Byte) : (complete s src opcode c out).tsrc = s.tsrc := by rw [complete_frame]
@[simp] theorem complete_docket (s : State) (src : CmdSrc) (opcode : Nat) (c : St) (out : List Byte) : (complete s src opcode c out).docket = s.docket := by rw [complete_frame]
@[simp] theorem complete_sync (s : State) (src : CmdSrc) (opcode : Nat) (c : St) (out : List Byte) : (complete s src opcode c out).sync = s.sync := by rw [complete_frame]
@[simp] theorem complete_tiles (s : State) (src : CmdSrc) (opcode : Nat) (c : St) (out : List Byte) : (complete s src opcode c out).tiles = s.tiles := by rw [complete_frame]
@[simp] theorem complete_coll (s : State) (src : CmdSrc) (opcode : Nat) (c : St) (out : List Byte) : (complete s src opcode c out).coll = s.coll := by rw [complete_frame]
@[simp] theorem complete_sched (s : State) (src : CmdSrc) (opcode : Nat) (c : St) (out : List Byte) : (complete s src opcode c out).sched = s.sched := by rw [complete_frame]
@[simp] theorem complete_hm (s : State) (src : CmdSrc) (opcode : Nat) (c : St) (out : List Byte) : (complete s src opcode c out).hm = s.hm := by rw [complete_frame]
@[simp] theorem complete_flt (s : State) (src : CmdSrc) (opcode : Nat) (c : St) (out : List Byte) : (complete s src opcode c out).flt = s.flt := by rw [complete_frame]
@[simp] theorem complete_jm (s : State) (src : CmdSrc) (opcode : Nat) (c : St) (out : List Byte) : (complete s src opcode c out).jm = s.jm := by rw [complete_frame]
@[simp] theorem complete_test (s : State) (src : CmdSrc) (opcode : Nat) (c : St) (out : List Byte) : (complete s src opcode c out).test = s.test := by rw [complete_frame]
@[simp] theorem complete_pwr (s : State) (src : CmdSrc) (opcode : Nat) (c : St) (out : List Byte) : (complete s src opcode c out).pwr = s.pwr := by rw [complete_frame]
@[simp] theorem complete_pair (s : State) (src : CmdSrc) (opcode : Nat) (c : St) (out : List Byte) : (complete s src opcode c out).pair = s.pair := by rw [complete_frame]
@[simp] theorem complete_sec (s : State) (src : CmdSrc) (opcode : Nat) (c : St) (out : List Byte) : (complete s src opcode c out).sec = s.sec := by rw [complete_frame]
@[simp] theorem complete_boot (s : State) (src : CmdSrc) (opcode : Nat) (c : St) (out : List Byte) : (complete s src opcode c out).boot = s.boot := by rw [complete_frame]
@[simp] theorem complete_flash (s : State) (src : CmdSrc) (opcode : Nat) (c : St) (out : List Byte) : (complete s src opcode c out).flash = s.flash := by rw [complete_frame]
@[simp] theorem complete_irq (s : State) (src : CmdSrc) (opcode : Nat) (c : St) (out : List Byte) : (complete s src opcode c out).irq = s.irq := by rw [complete_frame]
@[simp] theorem complete_rg (s : State) (src : CmdSrc) (opcode : Nat) (c : St) (out : List Byte) : (complete s src opcode c out).rg = s.rg := by rw [complete_frame]
@[simp] theorem complete_freeCtr (s : State) (src : CmdSrc) (opcode : Nat) (c : St) (out : List Byte) : (complete s src opcode c out).freeCtr = s.freeCtr := by rw [complete_frame]
@[simp] theorem complete_pending (s : State) (src : CmdSrc) (opcode : Nat) (c : St) (out : List Byte) : (complete s src opcode c out).pending = s.pending := by rw [complete_frame]

/-- The history bit that it sets (R92). -/
@[simp] theorem State.hist_dpll (s : State) (n : Nat) :
    (s.hist n).dpll = if s.isHub then { s.dpll with hist := s.dpll.hist ||| (1#22 <<< n) } else s.dpll := by
  unfold State.hist
  split
  · rw [State.record_frame]
  · rfl

/-- A message that a port can carry waits behind those already handed over (R279). -/
theorem State.send_tx (s : State) (p : Nat) (m : TxMsg) (h : (m.numbered && !((s.port p).up && (!decide (s.pair.role = .isolated) || s.params.isChord p))) = false) :
    (s.send p m).tx = s.tx ++ [({ port := p, msg := m } : TxItem)] := by
  unfold State.send
  rw [if_neg (by rw [h]; decide)]

/-- Stamping leaves the Docket and the outputs alone. -/
@[simp] theorem State.takeLevel_docket (s : State) (ch : Nat) (rising : Bool) (stamp : Nat) : (s.takeLevel ch rising stamp).docket = s.docket := by
  unfold State.takeLevel State.calStamp
  dsimp only
  (repeat' split) <;> rfl

/-- An output that is set to a level has it, and no other output changes (R113). -/
@[simp] theorem State.setPo_po (s : State) (n : Nat) (level : Bool) (t : HT) (j : Nat) :
    (s.setPo n level t).po j = if j = n then { s.po n with high := level } else s.po j := by
  unfold State.setPo
  split
  · rename_i h
    split
    · subst_vars; rfl
    · rfl
  · dsimp only
    have k : ∀ (l : List Nat) (f : State → Nat → State) (hf : ∀ s c, (f s c).docket = s.docket) (s : State), (l.foldl f s).docket = s.docket := by
      intro l f hf
      induction l with
      | nil => intro s; rfl
      | cons a r ih => intro s; rw [List.foldl, ih, hf]
    have e := State.modPo_po s n (fun o => { o with high := level }) j
    unfold State.po at e ⊢
    rw [k, e]
    intro s c
    (repeat' split) <;> simp

/-- A numbered flit that is the next in order is delivered (R129): the row has its effect. -/
theorem State.received_done {s t : State} {l : Link} {c : Nat} (h : s.takeFlit l c = (t, true)) (k : State → Out) : s.received l c k = k t := by
  simp [State.received, h]

/-- The same on a port on which the row has a meaning. -/
theorem State.receivedIf_done {s t : State} {l : Link} {c : Nat} {b : Bool} (h : s.takeFlit l c = (t, true)) (hb : b = true) (k : State → Out) :
    s.receivedIf b l c k = k t := by
  simp [State.receivedIf, State.received, h, hb]

/-- A numbered flit that is not the next in order, or that a port down takes, has no effect but on its port (R129). -/
theorem State.received_dropped {s t : State} {l : Link} {c : Nat} (h : s.takeFlit l c = (t, false)) (k : State → Out) : s.received l c k = .next t := by
  simp [State.received, h]

end Sys2Proof.Machine
end

