-- ==== Sys2Proof/Laws/Symbol.lean ====
section
/-! SUPPORT. The journal's symbol code (R346): doubling and the product are linear over the field's addition, and Table 14.1 read both ways. -/

namespace Sys2Proof.Machine

/-- Doubling is linear. -/
theorem gfDouble_xor (a b : Sym) : gfDouble (a ^^^ b) = gfDouble a ^^^ gfDouble b := by
  unfold gfDouble
  rw [BitVec.msb_xor, BitVec.shiftLeft_xor_distrib]
  cases a.msb <;> cases b.msb <;> simp
  · ac_rfl
  · ac_rfl
  · rw [show a <<< 1 ^^^ 29#8 ^^^ (b <<< 1 ^^^ 29#8) = (a <<< 1 ^^^ b <<< 1) ^^^ (29#8 ^^^ 29#8) by ac_rfl]; simp

/-- The product is linear in its first factor. -/
theorem gfMul_xor_left (a b c : Sym) : gfMul (a ^^^ b) c = gfMul a c ^^^ gfMul b c := by
  unfold gfMul
  induction List.range 8 with
  | nil => simp
  | cons i l ih =>
    simp only [List.foldr_cons, ih, gfDouble_xor]
    split
    · ac_rfl
    · simp

/-- The product is linear in its second factor. -/
theorem gfMul_xor_right (a b c : Sym) : gfMul a (b ^^^ c) = gfMul a b ^^^ gfMul a c := by
  unfold gfMul
  induction List.range 8 with
  | nil => simp
  | cons i l ih =>
    simp only [List.foldr_cons, ih, gfDouble_xor]
    rw [show (if (b ^^^ c).getLsbD i then a else 0#8) = (if b.getLsbD i then a else 0#8) ^^^ (if c.getLsbD i then a else 0#8) by
      rw [BitVec.getLsbD_xor]; cases b.getLsbD i <;> cases c.getLsbD i <;> simp]
    ac_rfl

@[simp] theorem gfMul_zero_left (a : Sym) : gfMul 0#8 a = 0#8 := by
  have h := gfMul_xor_left 0#8 0#8 a
  simpa using h

end Sys2Proof.Machine
end

