-- ==== Sys2Proof/Laws/Sync.lean ====
section
/-! SUPPORT. What storing a sync word can change. -/

set_option linter.all false

namespace Sys2Proof.Machine
open Sys2Proof

/-- Waking waiters changes the waiters alone. -/
theorem State.wake_frame (s : State) (p : Nat) : s.wake p = { s with sync := { s.sync with waiters := (s.wake p).sync.waiters } } := by
  have h : ∀ (l : List Nat) (s : State), (l.foldl (fun s w =>
      let x := s.waiter w
      if x.watching = true ∧ x.phys = p ∧ meets x.counter (s.word p) x.thr then
        s.modWaiter w (fun x => { x with metAt := some (max s.cycle (x.gateAt - 1)), deadline := none })
      else s) s) = { s with sync := { s.sync with waiters := (l.foldl (fun s w =>
      let x := s.waiter w
      if x.watching = true ∧ x.phys = p ∧ meets x.counter (s.word p) x.thr then
        s.modWaiter w (fun x => { x with metAt := some (max s.cycle (x.gateAt - 1)), deadline := none })
      else s) s).sync.waiters } } := by
    intro l
    induction l with
    | nil => intro s; rfl
    | cons w r ih =>
      intro s
      simp only [List.foldl]
      split
      · rw [ih]; rfl
      · exact ih s
  unfold State.wake
  generalize List.range 64 = l
  exact h l s

/-- Sending an arrival changes the barriers of the Leaf, what leaves it and what waits for a link. -/
theorem State.arrive_frame (s : State) (c id : Nat) :
    s.arrive c id = { s with sync := { s.sync with bars := (s.arrive c id).sync.bars }, tx := (s.arrive c id).tx, flt := (s.arrive c id).flt } := by
  unfold State.arrive
  split
  · rfl
  · dsimp only
    split
    · rw [State.sendOrHold_frame, State.sendOrHold_frame]; rfl
    · rfl

/-- Looking at the barriers of a slot changes the barriers of the Leaf, what leaves it and what waits for a link. -/
theorem State.arrivals_frame (s : State) (c p : Nat) :
    s.arrivals c p = { s with sync := { s.sync with bars := (s.arrivals c p).sync.bars }, flt := (s.arrivals c p).flt, tx := (s.arrivals c p).tx } := by
  have h : ∀ (l : List Nat) (s : State), (l.foldl (fun s id =>
      match s.lbar c id with
      | some b => if (s.tr c b.d.arriveId).phys = p then s.arrive c id else s
      | none => s) s) = { s with
        sync := { s.sync with bars := (l.foldl (fun s id =>
          match s.lbar c id with
          | some b => if (s.tr c b.d.arriveId).phys = p then s.arrive c id else s
          | none => s) s).sync.bars }
        flt := (l.foldl (fun s id =>
          match s.lbar c id with
          | some b => if (s.tr c b.d.arriveId).phys = p then s.arrive c id else s
          | none => s) s).flt
        tx := (l.foldl (fun s id =>
          match s.lbar c id with
          | some b => if (s.tr c b.d.arriveId).phys = p then s.arrive c id else s
          | none => s) s).tx } := by
    intro l
    induction l with
    | nil => intro s; rfl
    | cons w r ih =>
      intro s
      simp only [List.foldl]
      rw [ih]
      split
      · split
        · rw [State.arrive_frame]
        · rfl
      · rfl
  unfold State.arrivals
  generalize List.range 64 = l
  exact h l s

/-- All that storing a word changes. -/
theorem State.store_frame (s : State) (c p : Nat) (v : Word) :
    s.store c p v = { s with
      sync := { s.sync with
        words := s.sync.words.set 0 p v, used := addNew s.sync.used p, usedNext := if s.sync.used.contains p then addNew s.sync.usedNext p else s.sync.usedNext, waiters := (s.store c p v).sync.waiters, bars := (s.store c p v).sync.bars }
      flt := (s.store c p v).flt, tx := (s.store c p v).tx } := by
  have h : ∀ (s t : State), t = { s with sync := { s.sync with waiters := t.sync.waiters } } → t.arrivals c p = { s with
      sync := { s.sync with waiters := (t.arrivals c p).sync.waiters, bars := (t.arrivals c p).sync.bars }
      flt := (t.arrivals c p).flt, tx := (t.arrivals c p).tx } := by
    intro s t ht
    have ha := State.arrivals_frame t c p
    rw [ha, ht]
  have k : ∀ t : State, t = { (s.setWord p v).markWord p with
      sync := { ((s.setWord p v).markWord p).sync with waiters := t.sync.waiters, bars := t.sync.bars }
      flt := t.flt, tx := t.tx } → t = { s with
      sync := { s.sync with
        words := s.sync.words.set 0 p v, used := addNew s.sync.used p, usedNext := if s.sync.used.contains p then addNew s.sync.usedNext p else s.sync.usedNext, waiters := t.sync.waiters, bars := t.sync.bars }
      flt := t.flt, tx := t.tx } := fun t ht => ht
  have d : s.store c p v = (((s.setWord p v).markWord p).wake p).arrivals c p := by unfold State.store; rfl
  rw [d]
  exact k _ (h _ _ (State.wake_frame _ p))

/-- Storing a word writes that word and no other. -/
@[simp] theorem State.store_word (s : State) (c p q : Nat) (v : Word) : (s.store c p v).word q = if q = p then v else s.word q := by
  have k : ∀ t : State, t = { s with
      sync := { s.sync with words := s.sync.words.set 0 p v, used := addNew s.sync.used p, usedNext := if s.sync.used.contains p then addNew s.sync.usedNext p else s.sync.usedNext, waiters := t.sync.waiters, bars := t.sync.bars }
      flt := t.flt, tx := t.tx } → t.sync.words = s.sync.words.set 0 p v := by
    intro t ht
    rw [ht]
  have h := k _ (State.store_frame s c p v)
  unfold State.word
  rw [h, Tbl.get_set]

/-- An answer leaves the words alone. -/
@[simp] theorem State.answer_word (s : State) (x : Word) (e : Bool) (q : Nat) : (s.answer x e).word q = s.word q := rfl

/-- Storing a word and answering a register access: the words afterwards and the frame. -/
theorem State.store_answer (s : State) (c p : Nat) (v x : Word) (e : Bool) :
    (∀ q, ((s.store c p v).answer x e).word q = if q = p then v else s.word q) ∧
    (s.store c p v).answer x e = { s with
      sync := ((s.store c p v).answer x e).sync, flt := ((s.store c p v).answer x e).flt, tx := ((s.store c p v).answer x e).tx
      rg := ((s.store c p v).answer x e).rg } := by
  refine ⟨fun q => by rw [State.answer_word, State.store_word], ?_⟩
  have k : ∀ t : State, t = { s with sync := t.sync, flt := t.flt, tx := t.tx } →
      t.answer x e = { s with sync := (t.answer x e).sync, flt := (t.answer x e).flt, tx := (t.answer x e).tx, rg := (t.answer x e).rg } := by
    intro t ht
    unfold State.answer
    rw [ht]
  apply k
  have j : ∀ t : State, t = { s with
      sync := { s.sync with words := s.sync.words.set 0 p v, used := addNew s.sync.used p, usedNext := if s.sync.used.contains p then addNew s.sync.usedNext p else s.sync.usedNext, waiters := t.sync.waiters, bars := t.sync.bars }
      flt := t.flt, tx := t.tx } → t = { s with sync := t.sync, flt := t.flt, tx := t.tx } := by
    intro t ht
    rw [ht]
  exact j _ (State.store_frame s c p v)

end Sys2Proof.Machine
end

