-- ==== Sys2Proof/Tests/Slice0.lean ====
section
/-! SUPPORT. Tests of the model: an ill-formed term for each check of WellFormed, the manual's
worked examples, and for each statement with hypotheses a concrete state that meets them. -/

namespace Sys2Proof.Tests

open Sys2Proof Sys2Proof.Machine

set_option maxRecDepth 100000
set_option exponentiation.threshold 1000
set_option Elab.async false

/-- A Leaf in service at 1 s of HT. -/
def leafUp : State :=
  { State.resetOf { config := .leaf4 } {} with
    time := { ht48 := 1000000000 * 2 ^ 48, valid := true }
    boot := { stage := 7, cfgValid := true } }

/-- A Leaf at the end of block reset. -/
def leafNew : State := State.resetOf { config := .leaf4 } {}

/-- A Hub in service at 1000 s of HT, alone primary of a top pair. -/
def hubUp : State :=
  { State.resetOf { config := .hub64 } {} with
    time := { ht48 := 1000000000000 * 2 ^ 48, valid := true }
    boot := { stage := 7, cfgValid := true }
    pair := { role := .primary, solo := true, epoch := 1, newest := 1 } }

/-- A command of host mailbox 0 with operator rights that names no context. -/
def hdr0 : CmdHdr := { src := .host 0 }

/-- Hubs at corners of chapter 3: an external sensor that has gone silent, a reference that waits to restore, a Disputed pair
that has agreed, and the states of the DPLL. -/
def hubTemp : State := { hubUp with dpll := { hubUp.dpll with cfg := { hubUp.dpll.cfg with tempExternal := true } } }
def hubWtr : State :=
  { hubUp with dpll := { hubUp.dpll with cfg := { hubUp.dpll.cfg with prio := [1, 1, 1, 1] }, refs := [(3, { rank := 0, wtrStart := some 0 })] } }
def hubDisp : State := { hubUp with dpll := { hubUp.dpll with disp := [(11, { marked := true, agreeSince := some 0 })] } }
def hubAcq : State := { hubUp with dpll := { hubUp.dpll with state := .acquiring, lockRun := 10000000000 } }
def hubLock : State := { hubUp with dpll := { hubUp.dpll with state := .locked, pull := true, fslew := true, unlockRun := 2000000000 } }
def hubHold : State := { hubUp with time := { hubUp.time with ht48 := 10 ^ 15 * 2 ^ 48 }, dpll := { hubUp.dpll with state := .holdover, holdEntry := some 0 } }
def hubOpen : State := { hubUp with dpll := { hubUp.dpll with mode := 4 } }
def hubSettle : State := { hubUp with time := { hubUp.time with ht48 := 10 ^ 13 * 2 ^ 48 }, dpll := { hubUp.dpll with warmN := false, settleStart := some 0 } }
def hubNoOcxo : State := { hubUp with dpll := { hubUp.dpll with ocxoRun := false } }
def hubBins : State := { hubTemp with dpll := { hubTemp.dpll with binN := 60000000000 } }
def hubLearn : State :=
  { hubTemp with dpll := { hubTemp.dpll with state := .locked, binClean := true, binN := 60000000000, modelLoaded := true, trusted := true, usable := true, bins := [{ t := 0, y := 0, at_ := 0 }] } }

/-- Leaves with a pending mapping and with a synthesizer that locked again. -/
def leafMap : State := { leafUp with time := { leafUp.time with pend := some { ofs := 0, utc := 5, leap := 0, eff := 7 } } }
def leafSyn : State := { leafUp with time := { leafUp.time with synBack := some 5, synLost := true } }

/-- A status message of the REF2 receiver with time valid, SSM 0 and no enhanced code. -/
def xsMsg : List Byte := [0xD5, 0x58, 1, 0, 0xFF, 0, 0, 0, 0, 0, 0, 1, 0, 0, 0xE7, 0x8B]

/-- The premise of the statements about mailbox commands, as something that can be computed. -/
def Here (i : Instr) (s : State) : Bool :=
  match cmdOf i s with
  | some (inf, h) => decide (gate inf h s = none) && decide (route s inf h = .here) && (!inf.flash || h.flashOk) && decide (h.param = .ok ()) && h.guard.isNone && !h.wrErr
  | none => false

/-- Leaves whose first uplink is at each step of bring-up. -/
def leafKeys : State := { leafUp with sec := { leafUp.sec with keysValid := true }, pwr := { leafUp.pwr with doms := (List.range 80).map (fun d => (d, { on := true })) } }
def leafLocking : State := { leafUp with ports := [(0, { bring := .locking })] }
def leafWaiting : State := { leafUp with ports := [(0, { bring := .waiting })] }
def leafExch : State := { leafUp with ports := [(0, { bring := .exchanging })] }
/-- A Leaf whose first uplink is up. -/
def leafPort : State := { leafUp with ports := [(0, { bring := .complete, up := true, rxSeq := 4095, timeUsable := true })] }
/-- The same with a timing flit on this tick. -/
def leafTimed : State := { leafUp with ports := [(0, { bring := .complete, up := true, rxSeq := 4095, lastTiming := 1000000000 })] }
/-- A flit of its first uplink that is the next in order. -/
def lk0 : Link := { port := 0, seq := 4095 }
/-- The first flit of a port. -/
def lkz : Link := { port := 0, seq := 0 }
def lk1 : Link := { port := 1, seq := 0 }
def lk3 : Link := { port := 3, seq := 0 }
def lkc : Link := { port := 288, seq := 0 }
def hubIdent : Ident := { hub := true, config := 3, tier := 1, pairId := 0, pos := 0, port := 0 }
def exchOk : Exchange := { nonce := 1, share := 2, chainOk := true, reportOk := true, userDataOk := true, ownerDigest := 0, fwSvn := 0, ident := hubIdent }
def plumb0 : PlumbArgs := { port := 0, poChild := 3, chChild := 7, poParent := 3, chParent := 7, count := 4096 }
def leafPlumb : State := { leafPort with tsrc := { leafPort.tsrc with plumb := some { args := plumb0, src := some (.host 0), start := 0, ext := (4096, 0), got := (4096, 8192), peer := some (512, 2) } } }
def leafPlumbP : State := { leafPort with tsrc := { leafPort.tsrc with plumb := some { args := plumb0, start := 0, ext := (4096, 0), got := (4096, 8192) } } }
def leafPlumbF : State := { leafPort with tsrc := { leafPort.tsrc with plumb := some { args := plumb0, src := some (.host 0), start := 0, ext := (4096, 0), got := (4095, 8192) } } }
def leafStep : State := { leafUp with time := { leafUp.time with step := some { d := 5, eff := 7 } } }
/-- Leaves at corners of chapter 4: a channel that is on, one in hold-off, a calibration, an anchor instant. -/
def leafTdc : State := { leafUp with tdc := { leafUp.tdc with coarse := 10, ch := [(6, { holdEnd := some 0 }), (7, { cfg := { en := true } })] } }
def leafCal : State := { leafUp with tdc := { leafUp.tdc with cal := some { ch := 7, po := 3, path := .internal, count := 16, start := 0, src := .host 0, got := (16, 320) } } }
def leafCalX : State := { leafUp with tdc := { leafUp.tdc with cal := some { ch := 7, po := 3, path := .ext0, count := 16, start := 0, src := .host 0, got := (16, 320) } } }
def leafCalF : State := { leafUp with tdc := { leafUp.tdc with cal := some { ch := 7, po := 3, path := .internal, count := 16, start := 0, src := .host 0, got := (15, 320) } } }
def leafAnc : State := { leafUp with time := { leafUp.time with ht48 := 2 ^ 30 * 2 ^ 48 } }

/-- An entry of the Docket with no wait, no action and a strike time far ahead. -/
def dkAt : BitVec 256 := 2 ^ 40
/-- Leaves at corners of chapter 6. -/
def leafDk : State :=
  { leafUp with
    ctx := [(1, { open_ := true, lastGen := 1 })]
    docket := { leafUp.docket with queues := [
      (11, { owner := some (.ctx 1 1), entries := [{ bits := 0, armed := some 7 }] }),
      (12, { owner := some (.ctx 1 1), entries := [{ bits := dkAt }] }),
      (13, { owner := some (.ctx 1 1), halted := true }),
      (14, { owner := some (.ctx 1 1), entries := List.replicate 256 { bits := 0 } }),
      (15, { owner := some (.ctx 1 1), entries := [{ bits := 0 }] })] } }
def leafDkFw : State := { leafUp with docket := { leafUp.docket with queues := [(15, { owner := some .firmware, entries := [{ bits := 0 }] })] } }
def leafFrame : State :=
  { leafUp with docket := { leafUp.docket with
      frames := [(2, { mode := 1, armed := some 7 }), (3, { mode := 1 })]
      pos := [(2, { mode := 1, period := 1000000000, width := 8, fallAt := some 7 }), (3, { mode := 1, period := 1000000000, width := 8 })] } }
def hubPo : State :=
  { hubUp with docket := { hubUp.docket with pos := [(2, { mode := 1, alignPend := some 7, alignSrc := some (.host 0) }), (3, { mode := 1 })] } }
def pulse0 : PulseArgs := { target := .output 3, mode := 0, period := 0, offset := 0, width := 0, slot := 0, gen := 0 }
/-- An operator's command for context 1, generation 1. -/
def hdr1 : CmdHdr := { src := .host 0, slot := 1, gen := 1 }
/-- A Leaf whose context 1 is open and maps a plain word that holds 7, three counters, and a pair. -/
def leafMapped : State :=
  { leafUp with
    ctx := [(1, { open_ := true, lastGen := 1 })]
    sync := { leafUp.sync with
      words := [(5, 7)]
      trans := [(4096, { valid := true, phys := 0, counter := true }), (4097, { valid := true, phys := 1, counter := true }),
        (4098, { valid := true, phys := 2, counter := true, role := 1, partner := 3, limit := 4 }),
        (4099, { valid := true, phys := 3, counter := true, role := 2, partner := 2, limit := 4 }), (8191, { valid := true, phys := 5 })] } }
def leafSync : State :=
  { leafMapped with tdc := { leafMapped.tdc with coarse := 100 }, sync := { leafMapped.sync with
      waiters := [(62, { state := 1, slot := 1, deadline := some 7 })]
      queue := [{ slot := 1, vid := 4095, phys := 5, amount := 1, source := 1, arrived := 0 }] } }

/-- Headers of commands issued to the span pair of tier 1. -/
def hdrSpan : CmdHdr := { src := .host 0, slot := 1, gen := 1, route := 1 }
def hdr0r : CmdHdr := { src := .host 0, route := 1 }
/-- A barrier of tier 1 whose plan is child 3. -/
def bar0 : BarrierDef := { id := 63, spanTier := 1, mask := 8, arriveId := 4095, step := 1, releaseId := 0 }
def open0 : CtxOpenArgs := { spanTier := 1, mask := 8, radio := false, enc := false, tenantKeyed := false }
/-- A Hub with child 3 up, whose context 1 spans it and has a barrier. -/
def hubBar : State :=
  { hubUp with
    ports := [(3, { bring := .complete, up := true, everUp := true })]
    ctx := [(1, { open_ := true, lastGen := 1, spanHere := true, ports := [3] })]
    sync := { hubUp.sync with hbars := [(127, some { d := bar0, gen := 1 })] } }
def hubCtx : State := { hubBar with sec := { hubBar.sec with keysValid := true } }
/-- Leaves at corners of chapters 7 and 18. -/
def leafBar : State :=
  { leafUp with
    ports := [(1, { bring := .complete, up := true })]
    ctx := [(1, { open_ := true, lastGen := 1 })]
    sync := { leafUp.sync with bars := [(127, some { d := bar0, gen := 1, a0 := 0 })] } }
def leafRel : State :=
  { leafBar with sync := { leafBar.sync with rels := [{ slot := 1, gen := 1, id := 63, inst := 0, s := 7, fireAt := 7, port := 1, rid := 0, launch := 0 }] } }
def leafPort2 : State := { leafUp with ports := [(0, { bring := .complete, up := true, keys := some { down := 1, up := 2, saltDown := 4, saltUp := 5, wrap := 3 } })] }
def leafClear : State :=
  { leafUp with
    ctx := [(1, { open_ := true, clearReq := true }), (2, { open_ := true, clearing := true }), (3, { resetting := true, lastGen := 65535 })]
    tiles := [(3, { panes := [(255, { dirty := true })] })] }

/-- A descriptor of context 1, generation 1, class tenant: SUM of FP32 into FP32, one pane a chunk. -/
def desc (span mask handle count : Nat) : BitVec 512 :=
  BitVec.ofNat 512 (mask + 2 ^ 256 + 2 ^ 272 + span * 2 ^ 280 + 3 * 2 ^ 282 + count * 2 ^ 352 + handle * 2 ^ 416 + 2 ^ 425)
def key0 (handle : Nat) : ChunkKey := { slot := 1, gen := 1, handle := handle, inst := 0, chunk := 0 }
/-- One flit of a result: its four bytes, the last flit. -/
def data0 : CollData := { partialKind := false, ofs := 0, last := true, poison := false, aux := 0, data := [1, 2, 3, 4] }
/-- A Leaf with planned collectives of context 1: 511 idle, 0 to 7 with one chunk at the stages of a contribution. -/
def leafColl : State :=
  { leafMapped with
    ports := [(0, { bring := .complete, up := true, peerPrimary := true })]
    tiles := [(0, { state := 1, panes := [(0, { cnt := 1 })] })]
    coll := { leafMapped.coll with leaf := [
      (512, some { desc := desc 0 0 0 256, w := 1, src := some 0, started := 1, running := true, acc := [(0, 0)] }),
      (513, some { desc := desc 1 8 1 1, w := 1, src := some 0, started := 1, running := true }),
      (514, some { desc := desc 1 8 2 1, w := 1, src := some 0, started := 1, running := true, chunks := [(0, { stream := some [0, 0, 128, 63] })] }),
      (515, some { desc := desc 1 8 3 1, w := 1, src := some 0, started := 1, running := true, chunks := [(0, { stream := some [0, 0, 128, 63], sent := true, result := { bytes := [1, 2, 3, 4] } })] }),
      (516, some { desc := desc 0 0 4 1, w := 1, src := some 0, started := 1, running := true, chunks := [(0, { writing := true })] }),
      (517, some { desc := desc 0 0 5 1, w := 1, src := some 0, started := 1, running := true, acc := [(0, 0)], chunks := [(0, { panes := [(0, 0)] })] }),
      (1023, some { desc := desc 0 0 511 1, w := 1, src := some 0 })] } }
/-- A Hub with planned collectives of context 1 that span child 3, each with its chunk at one of the stages of Table 10.5. -/
def hubColl : State :=
  { hubBar with
    ports := [(3, { bring := .complete, up := true, everUp := true }), (288, { bring := .complete, up := true })]
    tiles := [(0, { state := 1 }), (1, { state := 2 })]
    pwr := { hubBar.pwr with doms := (List.range 80).map (fun d => (d, { on := true })) }
    coll := { hubBar.coll with
      hub := (List.range 8).map (fun h => (512 + h, some { desc := desc 1 8 h 1, w := 1 }))
      chunks := [
        { key := key0 1, rx := [{ child := 3, bytes := [0, 0, 128, 63], len := some 4 }] },
        { key := key0 2, state := .reloading, panes := [1] },
        { key := key0 3, state := .spilling, panes := [2] },
        { key := key0 4, state := .gated, result := [0, 0, 128, 63], msg := some { key := key0 4, code := .ok, flags := 0, resultBytes := 4, hallmark := 0 } },
        { key := key0 5, state := .replay, attempt := 1, discard := [3] },
        { key := key0 6, state := .committed },
        { key := key0 7, state := .draining, panes := [] }] } }
/-- One flit of a contribution that others follow. -/
def data1 : CollData := { partialKind := false, ofs := 0, last := false, poison := false, aux := 0, data := [0, 0] }
/-- That Hub once a message has come on its port 3. -/
def hubTook (m : TxMsg) : State × Bool := hubColl.takeFlit lk3 (hubColl.classOf m)
/-- The partner Hub of the pair. -/
def hubPartner : State := { hubColl with pair := { hubColl.pair with role := .partner, solo := false } }
/-- States at corners of chapters 11 to 13. -/
def hubSched : State := { hubUp with sched := { hubUp.sched with slotsPend := some (5, 7), tilesPend := some (3, 7) } }
def leafHeld : State := { leafUp with sched := { leafUp.sched with shape := [(1, { held := true })] } }
def hubBatch : State :=
  { hubUp with
    sec := { hubUp.sec with keysValid := true }
    hm := { hubUp.hm with batch := [{ hallmark := 1, label := 2, step := 3, chunk := 4, flags := 0, key := key0 0 }]
                          archive := [{ seq := 5, htFirst := 0, htLast := 0, pairId := 0, pos := 0, prev := 0, recs := [], sig := 0 }] } }
def leafMan : State := { leafMapped with ports := [(0, { bring := .complete, up := true })] }
def leafMan2 : State := { leafMan with hm := { leafMan.hm with manifests := [(256, some (9, 7))] } }
/-- A manifest file of one entry, which describes the segment of one byte 1. -/
def manFile : List Byte := le 4 0x464D5844 ++ le 4 1 ++ le 4 1 ++ List.replicate 52 0 ++ le 8 0 ++ le 8 1 ++ be 48 (Config.sha384 [1])
def leafMan3 : State := { leafMan with hm := { leafMan.hm with manifests := [(256, some (Config.sha384 manFile, 7))] } }
def hubTiles : State :=
  { hubBar with
    tiles := [(0, { state := 1 }), (5, { state := 3, testPassed := true })]
    flt := { hubBar.flt with portsMap := 2 ^ 9, buf := [{ ht := 0, seq := 0, unit := 0, event := 0x0502 }] }
    flash := { hubBar.flash with daybook := [{ ht := 0, seq := 9, unit := 0, event := 0x0502 }] } }
/-- A Hub whose journal is ready, with a saved state and a staged set of context 1. -/
def save0 : Save := { slot := 1, desc := desc 1 8 0 1, inst := 0, step := 0, committed := [], chunks := [], pages := [6], tenantKeyed := false }
def stage0 : Stage := { slot := 1, desc := desc 1 8 0 1, chunks := [], k := 1, m := none, pages := [7] }
def hubJm : State :=
  { hubColl with
    time := { hubColl.time with ht48 := 10 ^ 12 * 2 ^ 48 }
    jm := { hubColl.jm with ready := true, chans := [(0, { trained := true, mark := some 3 }), (1, { trained := true })]
                            pages := [(0, { state := .inUse 1, valid := true }), (6, { state := .inUse 3 }), (7, { state := .inUse 3 })]
                            saves := [(7, some save0)], stages := [(9, some stage0)] } }
/-- States at corners of chapters 15 and 16. -/
def pack0 : Pack := { magic := 0x4B505844, pver := 1, blockVersion := 0x00030002, packId := 1, target := 1, packSeq := 1, patterns := 1, chains := 1, chainLen := 1,
                      march := false, reservedZero := true, length := 224, sigOk := true, digestOk := true }
def hubTest : State :=
  { hubTiles with
    boot := { hubTiles.boot with cfg := { hubTiles.boot.cfg with packStoreBytes := 3584 } }
    tiles := [(0, { state := 1 }), (1, { state := 4 }), (2, { state := 2 }), (3, { state := 2 }), (5, { state := 3 })]
    test := { hubTiles.test with packs := [(15, some pack0)], runs := [{ unit := { kind := 1, idx := 1 }, packSlot := 14, prev := 1, src := .host 0 }] } }
def freqs0 : List Nat := List.replicate 16 0
def leafPwr : State :=
  { leafUp with
    tiles := [(0, { state := 1 })]
    pwr := { leafUp.pwr with
      groups := [(0, { pend := some (1, 7) })]
      syncPend := some ([0], 7)
      doms := [(0, { on := true, setting := .auto, idle := 10000 }), (77, { turningOn := true }), (78, { turningOff := true })]
      plan := some { magic := 0x504D5844, version := 1, reservedZero := true, steps := [(0, 2)], stepsReservedZero := true, actions := [3 + 1 * 2 ^ 32, 6 + 1 * 2 ^ 32] }
      pmReq := 1
      waiting := [0] }
    docket := { leafUp.docket with queues := [(15, { owner := some .firmware })] } }
def leafPwr2 : State := { leafPwr with pwr := { leafPwr.pwr with groups := [(0, { stopping := true })], run := some { step := 0, act := 0, since := some 0 }, waiting := [] } }
def leafPwr3 : State := { leafPwr with pwr := { leafPwr.pwr with run := some { step := 0, act := 1, since := some 0 } } }
/-- States at corners of chapters 17 and 18. -/
def leafVote : State := { leafPort with pair := { leafPort.pair with gEpoch := 5, gPos := 0, gLastRenew := 0 } }
def lease5 : LeaseFlit := { epoch := 5, sendHt := 7 }
def hubPair : State :=
  { hubUp with
    ports := [(3, { bring := .complete, up := true }), (288, { bring := .complete, up := true })]
    boot := { hubUp.boot with cfg := { hubUp.boot.cfg with roster := 8 } }
    pair := { hubUp.pair with solo := false, peerRole := .partner, leaseEnd := some (10 ^ 13) } }
def hubClaim : State := { hubPair with pair := { hubPair.pair with role := .claiming, epoch := 6, newest := 5, peerRole := .syncing, leaseEnd := none } }
def hubPart : State := { hubPair with pair := { hubPair.pair with role := .partner, peerRole := .primary } }
def hubLapse : State := { hubPair with pair := { hubPair.pair with leaseEnd := some 7 } }
def hubAlone : State := { hubPair with ports := [], pair := { hubPair.pair with chordDownAt := some 0 } }
def hubEpoch : State := { hubPair with scriv := { hubPair.scriv with epochAt := 0 } }
def hubIso : State := { hubPair with pair := { hubPair.pair with peerRole := .isolated } }
def hubHand : State := { hubPair with pair := { hubPair.pair with handover := some { eff := 7, src := .host 0 } } }
def hubAtt : State := { hubUp with sec := { hubUp.sec with keysValid := true, attKey := 5, challenge := some 9, certs := some (3, 0x010203) } }
def token0 (s : State) : Token := { magic := 0x54445844, tver := 1, deviceId := s.deviceId, challenge := 9, licHash := s.params.licRootHash, sigOk := true }
def hubDist : State :=
  { hubUp with
    ports := [(288, { bring := .complete, up := true }), (3, { bring := .complete, up := true })]
    scriv := { hubUp.scriv with dists := [{ id := 7, cmd := .htStep 1 2000000, src := .host 0, waiting := [3], deadline := some 5 }] } }
/-- States at corners of chapters 19 and 20. -/
def leafMbBad : State := { leafUp with scriv := { leafUp.scriv with mbs := [(0, { state := 1 }), (1, { state := 3 })], order := [0] } }
def leafMb : State := { leafUp with scriv := { leafUp.scriv with mbs := [(0, { state := 1, copy := [(0, 0x0803)] }), (1, { state := 3 })], order := [0] } }
def img0 : Image :=
  { hdr := { magic := 0x49465844, kind := 0, blockVersion := 0x00030002, fwVersion := 2, svn := 1, mirrorVer := 0, reservedZero := true, length := 160, digest := 0, sigOk := true } }
def cfgImg : Image :=
  { hdr := { magic := 0x49465844, kind := 1, blockVersion := 0x00030002, fwVersion := 0, svn := 0, mirrorVer := 0, reservedZero := true, length := 160, digest := 0, sigOk := true } }
def leafFw : State :=
  { leafUp with
    flash := { leafUp.flash with fw := [(0, some img0), (1, some img0)], boots := [(0, some { leafUp.flash.boot with trial := true })] }
    time := { leafUp.time with ht48 := 10 ^ 15 * 2 ^ 48 }
    scriv := { leafUp.scriv with staged := [0], watchdog := 0 } }
def leafAct : State := { leafFw with scriv := { leafFw.scriv with act := some { kind := 0, eff := 7, src := .host 0 } } }
def leafActRun : State := { leafFw with scriv := { leafFw.scriv with act := some { kind := 0, eff := 7, src := .host 0, effective := true } } }
def leafRestart : State := { leafFw with scriv := { leafFw.scriv with restarting := true } }
def hubFwd : State :=
  { hubPair with
    time := { hubPair.time with ht48 := 10 ^ 15 * 2 ^ 48 }
    scriv := { hubPair.scriv with fwds := [{ src := .host 0, seq := 5, sentAt := 0, tier := 1, opcode := 0x0801, slot := 0, msg := .copyAck (key0 0) }] } }
def leafBoot : State :=
  { State.resetOf { config := .leaf4 } {} with
    flash := { (State.resetOf { config := .leaf4 } {}).flash with helper := some 5, fw := [(0, some img0)], cfg := [(0, some cfgImg)] } }
def hubSoloStart : State :=
  { hubUp with
    time := { hubUp.time with valid := false, ht48 := 10 ^ 12 * 2 ^ 48 }
    boot := { hubUp.boot with stage := 5 } }
def leafFifo : State :=
  { leafUp with
    tdc := { leafUp.tdc with ch := [(7, { fifo := [(80, 2), (160, 0)] })] }
    flt := { leafUp.flt with notices := [{ event := 0x0502, unit := 3, port := 1, self := false, seqLo := 9 }] } }

/-- A Hub that was unlocked, and a header whose tag does not verify. -/
def hubUnlocked : State := { hubUp with sec := { hubUp.sec with unlocked := true, pufOn := false, tapLocked := false } }
def hdrTag : CmdHdr := { src := .host 0, tagOk := false }

/-- An empty Ledger element, and the three addends of the manual's example of one sum in six orders (Table 8.10). -/
def elemA : Elem := {}
def termA : Term := decodeTerm 0x4B800000 0
def termB : Term := decodeTerm 0x3F800000 0
def termC : Term := decodeTerm 0xCB800000 0

/-! ## Well-formedness: for each check a term that it refuses -/

def h0 : CmdHdr := { src := .host 0 }
def k0 : ChunkKey := { slot := 1, gen := 1, handle := 0, inst := 0, chunk := 0 }
def i0 : Ident := { hub := true, config := 3, tier := 1, pairId := 0, pos := 0, port := 0 }
def b0 : BarrierDef := { id := 0, spanTier := 1, mask := 1, arriveId := 0, step := 1, releaseId := 0 }
def m0 : CommitMsg := { key := k0, code := .ok, flags := 0, resultBytes := 0, hallmark := 0 }
def c0 : CtxMsg := { slot := 1, gen := 1, radio := false, enc := false, tenantKeyed := false, key := 0 }

theorem test_wf_cmdSrc : ([.host 16, .page 256, .forward (2 ^ 32) 0 0, .forward 0 65536 0, .forward 0 0 (2 ^ 32)] : List CmdSrc).all (fun x => !x.wf) = true := by decide +kernel

theorem test_wf_cmdHdr : ([{ h0 with src := .host 16 }, { h0 with access := 256 }, { h0 with slot := 256 }, { h0 with gen := 65536 },
    { h0 with guard := some (65536, 0) }, { h0 with guard := some (0, 2 ^ 32) }] : List CmdHdr).all (fun x => !x.wf) = true := by decide +kernel

theorem test_wf_chunkKey : ([{ k0 with slot := 256 }, { k0 with gen := 65536 }, { k0 with handle := 512 }, { k0 with inst := 2 ^ 32 },
    { k0 with chunk := 2 ^ 32 }] : List ChunkKey).all (fun x => !x.wf) = true := by decide +kernel

theorem test_wf_taiMap : ([{ ofs := 2 ^ 63, utc := 0, leap := 0, eff := 0 }, { ofs := -(2 ^ 63) - 1, utc := 0, leap := 0, eff := 0 },
    { ofs := 0, utc := 256, leap := 0, eff := 0 }, { ofs := 0, utc := 0, leap := 4, eff := 0 },
    { ofs := 0, utc := 0, leap := 0, eff := 2 ^ 64 }] : List TaiMap).all (fun x => !x.wf) = true := by decide +kernel

theorem test_wf_ident : ([{ i0 with config := 4 }, { i0 with tier := 16 }, { i0 with pairId := 2 ^ 32 }, { i0 with pos := 2 }, { i0 with port := 1024 }] : List Ident).all (fun x => !x.wf) = true := by decide +kernel

theorem test_wf_leaseFlit : ([{ epoch := 2 ^ 32, sendHt := 0 }, { epoch := 0, sendHt := 2 ^ 64 }] : List LeaseFlit).all (fun x => !x.wf) = true := by decide +kernel

theorem test_wf_commitMsg : ([{ m0 with key := { k0 with slot := 256 } }, { m0 with flags := 2 ^ 32 }, { m0 with resultBytes := 2 ^ 32 },
    { m0 with hallmark := 2 ^ 384 }] : List CommitMsg).all (fun x => !x.wf) = true := by decide +kernel

theorem test_wf_unitId : ([{ kind := 16, idx := 0 }, { kind := 0, idx := 4096 }] : List UnitId).all (fun x => !x.wf) = true := by decide +kernel

theorem test_wf_notice : ([{ event := 65536, unit := 0, seqLo := 0 }, { event := 0, unit := 65536, seqLo := 0 },
    { event := 0, unit := 0, seqLo := 2 ^ 32 }] : List Notice).all (fun x => !x.wf) = true := by decide +kernel

theorem test_wf_ctxMsg : ([{ c0 with slot := 256 }, { c0 with gen := 65536 }, { c0 with key := 2 ^ 384 }, { c0 with span := 4 },
    { c0 with mask := some (2 ^ 4096) }] : List CtxMsg).all (fun x => !x.wf) = true := by decide +kernel

theorem test_wf_barrierDef : ([{ b0 with id := 256 }, { b0 with spanTier := 256 }, { b0 with mask := 2 ^ 256 }, { b0 with arriveId := 65536 },
    { b0 with step := 2 ^ 32 }, { b0 with releaseId := 65536 }, { b0 with launch := 2 ^ 64 }, { b0 with margin := 2 ^ 32 }] : List BarrierDef).all (fun x => !x.wf) = true := by decide +kernel

theorem test_wf_waitReq : ([{ waiter := 1024, ctx := 0, vid := 0, thr := 0, gate := false, tmo := 0 },
    { waiter := 0, ctx := 256, vid := 0, thr := 0, gate := false, tmo := 0 },
    { waiter := 0, ctx := 0, vid := 4096, thr := 0, gate := false, tmo := 0 },
    { waiter := 0, ctx := 0, vid := 0, thr := 0, gate := false, tmo := 2 ^ 32 }] : List WaitReq).all (fun x => !x.wf) = true := by decide +kernel

theorem test_wf_owner : ([.ctx 256 0, .ctx 0 65536] : List Owner).all (fun x => !x.wf) = true := by decide +kernel

theorem test_wf_pulseArgs : ([{ target := .output 0, mode := 0, period := 2 ^ 64 }, { target := .output 0, mode := 0, offset := 2 ^ 63 },
    { target := .output 0, mode := 0, width := 2 ^ 32 }, { target := .output 0, mode := 0, slot := 256 },
    { target := .output 0, mode := 0, gen := 65536 }, { target := .output 0, mode := 256 }] : List PulseArgs).all (fun x => !x.wf) = true := by decide +kernel

theorem test_wf_tdcCfg : ([{ src := 256 }, { edge := 256 }, { hyst := 256 }, { holdoff := 2 ^ 32 }, { div := 2 ^ 32 }, { gateMs := 2 ^ 32 },
    { fnom := 2 ^ 32 }] : List TdcCfg).all (fun x => !x.wf) = true := by decide +kernel

theorem test_wf_plumbArgs : ([{ port := 1024, poChild := 0, chChild := 0, poParent := 0, chParent := 0, count := 0 },
    { port := 0, poChild := 256, chChild := 0, poParent := 0, chParent := 0, count := 0 },
    { port := 0, poChild := 0, chChild := 256, poParent := 0, chParent := 0, count := 0 },
    { port := 0, poChild := 0, chChild := 0, poParent := 256, chParent := 0, count := 0 },
    { port := 0, poChild := 0, chChild := 0, poParent := 0, chParent := 256, count := 0 },
    { port := 0, poChild := 0, chChild := 0, poParent := 0, chParent := 0, count := 65536 }] : List PlumbArgs).all (fun x => !x.wf) = true := by decide +kernel

theorem test_wf_link : ([{ port := 0, seq := 4096 }, { port := 0, ack := 4096 }, { port := 0, crCtl := 64 }, { port := 0, crRadio := 64 },
    { port := 0, crTen := 64 }, { port := 0, corr := 65536 }, { port := 1024 }] : List Link).all (fun x => !x.wf) = true := by decide +kernel

theorem test_wf_timingBody : ([{ txHt := 2 ^ 80, echoTx := 0, echoDwell := 0, status := .locked, primary := true, stepCnt := 0, epoch := 0 },
    { txHt := 0, echoTx := 0, echoDwell := 0, status := .locked, primary := true, stepCnt := 256, epoch := 0 },
    { txHt := 0, echoTx := 0, echoDwell := 0, status := .locked, primary := true, stepCnt := 0, epoch := 2 ^ 32 },
    { txHt := 0, echoTx := 2 ^ 80, echoDwell := 0, status := .locked, primary := true },
    { txHt := 0, echoTx := 0, echoDwell := 2 ^ 32, status := .locked, primary := true }] : List TimingBody).all (fun x => !x.wf) = true := by decide +kernel

theorem test_wf_distCmd : ([.barrierDefine 256 0 b0, .barrierDefine 0 65536 b0, .barrierDefine 0 0 { b0 with id := 256 }, .barrierDelete 256 0 0,
    .barrierDelete 0 65536 0, .barrierDelete 0 0 64, .collOpen 0 65536, .collClose 256 0 0, .collClose 0 65536 0,
    .collClose 0 0 512, .ctxOpen { c0 with slot := 256 }, .ctxClose 256 0 0, .ctxClose 0 65536 0, .ctxClose 0 0 65536,
    .ctxShape 256 0 0 0 0 false, .ctxShape 0 65536 0 0 0 false, .ctxShape 0 0 65536 0 0 false, .classConfig 256 0,
    .classConfig 0 (2 ^ 64), .htStep (2 ^ 63) 0, .htStep 0 (2 ^ 64), .slotReset 256, .withdraw (2 ^ 40), .confirm (2 ^ 40)] : List DistCmd).all (fun x => !x.wf) = true := by decide +kernel

theorem test_wf_ackInfo : ([{ digest := 2 ^ 384 }, { label := 2 ^ 64 }, { panes := 65536 }, { leaves := 2 ^ 32 }] : List AckInfo).all (fun x => !x.wf) = true := by decide +kernel

theorem test_wf_ctxOpenArgs : ([{ spanTier := 256, mask := 1, radio := false, enc := false, tenantKeyed := false },
    { spanTier := 1, mask := 2 ^ 4096, radio := false, enc := false, tenantKeyed := false }] : List CtxOpenArgs).all (fun x => !x.wf) = true := by decide +kernel

theorem test_wf_refCfg : ([{ prio := [1] }, { ssmII := [] }] : List RefCfg).all (fun x => !x.wf) = true := by decide +kernel

theorem test_wf_collData : ([{ partialKind := false, ofs := 2 ^ 32, last := true, data := [] }] : List CollData).all (fun x => !x.wf) = true := by decide +kernel

theorem test_wf_ctlBody : ([.manifest 1024 0 0 0 0, .manifest 0 256 0 0 0, .manifest 0 0 65536 0 0, .manifest 0 0 0 (2 ^ 384) 0, .manifest 0 0 0 0 (2 ^ 64),
    .saveStop 256 0 0 0 false, .saveStop 0 65536 0 0 false, .saveStop 0 0 512 0 false, .saveStop 0 0 0 256 false,
    .owed 256 0 0 0 0 [] [], .owed 0 65536 0 0 0 [] [], .owed 0 0 512 0 0 [] [], .owed 0 0 0 256 0 [] [],
    .owed 0 0 0 0 (2 ^ 32) [] [], .owed 0 0 0 0 0 [2 ^ 32] [], .owed 0 0 0 0 0 [] [2 ^ 32], .plumbStart 256 0 0 0,
    .plumbStart 0 256 0 0, .plumbStart 0 0 65536 0, .plumbStart 0 0 0 (2 ^ 64), .plumbEnd (some (2 ^ 31)), .released 256 0 0 0 [],
    .released 0 65536 0 0 [], .released 0 0 512 0 [], .released 0 0 0 (2 ^ 32) [], .released 0 0 0 0 [2 ^ 32],
    .plumbMeans (2 ^ 63) 0, .plumbMeans 0 (2 ^ 63)] : List CtlBody).all (fun x => !x.wf) = true := by decide +kernel

theorem test_wf_journalErr : ([{ errs := [{ cw := 8, dev := 0, bits := 1 }] }, { errs := [{ cw := 0, dev := 20, bits := 1 }] }] : List JournalErr).all (fun x => !x.wf) = true := by decide +kernel

theorem test_wf_tileCheck : ([some { check := 256, pane := 0, lane := 0, limb := 0, expected := 0, observed := 0 },
    some { check := 0, pane := 1024, lane := 0, limb := 0, expected := 0, observed := 0 }] : List (Option TileCheck)).all (fun x => !TileCheck.optWf x) = true := by decide +kernel

theorem test_wf_refuses_1 : ([.refLoss 4, .qlTimeout 4, .waitToRestoreExpiry 4, .disputeClear 4 0, .disputeClear 0 4,
    .cmdTaiMap { h0 with slot := 256 } 0 0 0 0, .cmdTaiMap h0 0 256 0 0, .cmdTaiMap h0 0 0 4 0, .cmdTaiMap h0 0 0 0 (2 ^ 64),
    .taiMapReceive { port := 1024 } { ofs := 0, utc := 37, leap := 0, eff := 0 },
    .taiMapReceive { port := 0 } { ofs := 0, utc := 256, leap := 0, eff := 0 }, .cmdRefConfig { h0 with slot := 256 } {},
    .cmdRefConfig h0 { prio := [1] }, .cmdRefReport { h0 with slot := 256 } {}, .cmdDpllMode { h0 with slot := 256 } 0 0,
    .cmdDpllMode h0 8 0, .cmdDpllMode h0 0 8, .cmdDpllFcw { h0 with slot := 256 } 0 0, .cmdDpllFcw h0 0 8,
    .holdoverModelRead { h0 with slot := 256 }, .holdoverModelLoad { h0 with slot := 256 } {},
    .holdoverModelClear { h0 with slot := 256 }, .holdoverModelFreeze { h0 with slot := 256 },
    .holdoverModelResume { h0 with slot := 256 }, .tdcEdgeAccept 32 true 0 0, .holdoffEnd 32 true, .tdcGateEnd 32,
    .cmdTdcConfig { h0 with slot := 256 } 0 {}, .cmdTdcConfig h0 256 {}, .cmdTdcConfig h0 0 { src := 256 },
    .cmdTdcCal { h0 with slot := 256 } 0 0 .internal 0, .cmdTdcCal h0 256 0 .internal 0, .cmdTdcCal h0 0 256 .internal 0,
    .cmdTdcCal h0 0 0 .internal (2 ^ 16),
    .plumbMeasure { h0 with slot := 256 } { port := 0, poChild := 0, chChild := 0, poParent := 0, chParent := 0, count := 16 },
    .plumbMeasure h0 { port := 1024, poChild := 0, chChild := 0, poParent := 0, chParent := 0, count := 16 },
    .plumbLoad { h0 with slot := 256 } 0 0, .plumbLoad h0 1024 0, .plumbRead { h0 with slot := 256 } 0, .plumbRead h0 1024,
    .plumbClearSuspect { h0 with slot := 256 } 0, .plumbClearSuspect h0 1024, .cmdTsrcConfig { h0 with slot := 256 } 0 0 0,
    .cmdTsrcConfig h0 8 0 0, .cmdTsrcConfig h0 0 (2 ^ 16) 0, .cmdTsrcConfig h0 0 0 (2 ^ 16),
    .cmdHtStep { h0 with slot := 256 } true 0 0, .cmdHtStep h0 true 0 (2 ^ 64), .portBringUpStart 1024, .bringUpFlitReceive 1024 i0,
    .bringUpFlitReceive 0 { i0 with pos := 2 }, .keyExchangeStart 1024,
    .keyExchangeReceive 1024 { nonce := 0, share := 0, chainOk := true, reportOk := true, userDataOk := true, ownerDigest := 0, fwSvn := 0, ident := i0 } true,
    .phyDown 1024, .timingFlitSend 1024 0, .timingFlitSend 0 256,
    .timingFlitReceive { port := 1024 } { txHt := 0, echoTx := 0, echoDwell := 0, status := .locked, primary := true } 0 0 0,
    .timingFlitReceive { port := 0 } { txHt := 2 ^ 80, echoTx := 0, echoDwell := 0, status := .locked, primary := true } 0 0 0,
    .timingFlitReceive { port := 0 } { txHt := 0, echoTx := 0, echoDwell := 0, status := .locked, primary := true } 0 0 256,
    .controlFlitReceive { port := 1024 } 0 0 .idle] : List Instr).all (fun i => !i.wf) = true := by decide +kernel

theorem test_wf_refuses_2 : ([.controlFlitReceive { port := 0 } 256 0 .idle, .controlFlitReceive { port := 0 } 0 (2 ^ 16) .idle,
    .controlFlitReceive { port := 0 } 0 0 (.manifest 1024 0 0 0 0), .corruptFlitReceive 1024 [] true true 0,
    .corruptFlitReceive 0 [] true true (2 ^ 16), .portNoFlitTimeout 1024, .portTimingLoss 1024, .rttEstimateUpdate 1024,
    .docketPushWord 64 0 0 0, .docketPushWord 0 8 0 0, .docketPushWord 0 0 0 256, .docketPushCommit 64 0 0,
    .docketPushCommit 0 0 256, .docketEntryReady 64, .docketStrike 64, .docketFlush 64 0, .docketFlush 0 256, .docketResume 64 0,
    .docketResume 0 256, .docketBind { h0 with slot := 256 } 0 .firmware true, .docketBind h0 64 .firmware true,
    .docketBind h0 0 (.ctx 256 0) true, .docketLoad { h0 with slot := 256 } 0 .firmware .err 0 true,
    .docketLoad h0 64 .firmware .err 0 true, .docketLoad h0 0 (.ctx 256 0) .err 0 true,
    .docketLoad h0 0 .firmware .err (2 ^ 16) true, .docketUnbind { h0 with slot := 256 } 0 .firmware, .docketUnbind h0 64 .firmware,
    .docketUnbind h0 0 (.ctx 256 0), .frameStrikeArm 4 0 0, .frameStrikeArm 0 0 256, .frameDirectStrike 4, .pulseEdge 8,
    .pulseWidthEnd 8, .cmdPulseConfig { h0 with slot := 256 } { target := .output 0, mode := 0 },
    .cmdPulseConfig h0 { target := .output 0, mode := 256 }, .cmdPulseAlign { h0 with slot := 256 } 0 0,
    .cmdPulseAlign h0 (2 ^ 32) 0, .cmdPulseAlign h0 0 (2 ^ 64), .pulseAlignApply 8, .syncSet 256 0 0, .syncSet 0 (2 ^ 12) 0,
    .syncAdd 256 0 0, .syncAdd 0 (2 ^ 12) 0, .syncSubtract 256 0 0, .syncSubtract 0 (2 ^ 12) 0, .syncReadIncrement (2 ^ 32) 0 0,
    .syncReadIncrement 0 256 0, .syncReadIncrement 0 0 (2 ^ 12), .syncUpdateApply (2 ^ 16),
    .waitRequest { waiter := 0, ctx := 1, vid := 4096, thr := 0, gate := false, tmo := 0 }, .waitTimeout 1024, .waitCancel 1024 0,
    .waitCancel 0 256, .syncMap { h0 with slot := 256 } 0 0 true true, .syncMap h0 (2 ^ 12) 0 true true,
    .syncMap h0 0 (2 ^ 16) true true, .syncUnmap { h0 with slot := 256 } 0 0, .syncUnmap h0 (2 ^ 12) 0, .syncUnmap h0 0 (2 ^ 16)] : List Instr).all (fun i => !i.wf) = true := by decide +kernel

theorem test_wf_refuses_3 : ([.syncMapRead { h0 with slot := 256 } 0 0, .syncMapRead h0 (2 ^ 12) 0, .syncMapRead h0 0 (2 ^ 16),
    .syncSetMode { h0 with slot := 256 } 0 0 true true, .syncSetMode h0 (2 ^ 12) 0 true true, .syncSetMode h0 0 (2 ^ 16) true true,
    .syncPairDefine { h0 with slot := 256 } 0 0 0, .syncPairDefine h0 (2 ^ 12) 0 0, .syncPairDefine h0 0 (2 ^ 12) 0,
    .syncPairDefine h0 0 0 (2 ^ 32), .syncPairDelete { h0 with slot := 256 } 0 0, .syncPairDelete h0 (2 ^ 12) 0,
    .syncPairDelete h0 0 (2 ^ 12), .contextClear 256, .contextClearComplete 256, .paneClearAfterTeardown 64 0,
    .paneClearAfterTeardown 0 1024, .slotResetComplete 256, .cmdBarrierDefine { h0 with slot := 256 } b0,
    .cmdBarrierDefine h0 { b0 with id := 256 }, .cmdBarrierDelete { h0 with slot := 256 } 0, .cmdBarrierDelete h0 64,
    .barrierArrivalReceive { port := 1024 } 0 0 0 0 none, .barrierArrivalReceive { port := 0 } 256 0 0 0 none,
    .barrierArrivalReceive { port := 0 } 0 (2 ^ 16) 0 0 none, .barrierArrivalReceive { port := 0 } 0 0 64 0 none,
    .barrierArrivalReceive { port := 0 } 0 0 0 (2 ^ 32) none, .barrierReleaseReceive { port := 1024 } 0 0 0 0 0,
    .barrierReleaseReceive { port := 0 } 256 0 0 0 0, .barrierReleaseReceive { port := 0 } 0 (2 ^ 16) 0 0 0,
    .barrierReleaseReceive { port := 0 } 0 0 64 0 0, .barrierReleaseReceive { port := 0 } 0 0 0 (2 ^ 32) 0,
    .barrierReleaseReceive { port := 0 } 0 0 0 0 (2 ^ 64), .collPlanOpen { h0 with slot := 256 } 0 .err 0,
    .collPlanOpen h0 (2 ^ 64) .err 0, .collPlanOpen h0 0 .err (2 ^ 16), .collPlanClose { h0 with slot := 256 } 0,
    .collPlanClose h0 512, .cmdCollBind { h0 with slot := 256 } 0 0, .cmdCollBind h0 512 0, .cmdCollBind h0 0 (2 ^ 64),
    .collStart 256 0, .collQuery 256 0, .chunkSend 256 0 0, .chunkSend 0 512 0, .chunkSend 0 0 (2 ^ 32),
    .contributionFlitReceive { port := 1024 } k0 { partialKind := false, ofs := 0, last := true, data := [] } none,
    .contributionFlitReceive { port := 0 } { k0 with handle := 512 } { partialKind := false, ofs := 0, last := true, data := [] } none,
    .contributionFlitReceive { port := 0 } k0 { partialKind := false, ofs := 2 ^ 32, last := true, data := [] } none,
    .contributionFlitReceive { port := 0 } k0 { partialKind := false, ofs := 0, last := true, data := [] } (some { check := 256, pane := 0, lane := 0, limb := 0, expected := 0, observed := 0 }),
    .chunkMap { k0 with handle := 512 }, .spillReloadComplete { k0 with handle := 512 } true,
    .contributionNoticeReceive { port := 1024 } k0 .ok, .contributionNoticeReceive { port := 0 } { k0 with handle := 512 } .ok,
    .drainComplete { k0 with handle := 512 } none,
    .drainComplete k0 (some { check := 256, pane := 0, lane := 0, limb := 0, expected := 0, observed := 0 }),
    .resultCopyReceive { port := 1024 } { msg := m0, bytes := [], fwVersion := 0 },
    .resultCopyReceive { port := 0 } { msg := { m0 with flags := 2 ^ 32 }, bytes := [], fwVersion := 0 },
    .resultCopyAck { port := 1024 } k0, .resultCopyAck { port := 0 } { k0 with handle := 512 }] : List Instr).all (fun i => !i.wf) = true := by decide +kernel

theorem test_wf_refuses_4 : ([.replayRequestReceive { port := 1024 } k0 0 true, .replayRequestReceive { port := 0 } { k0 with handle := 512 } 0 true,
    .replayRequestReceive { port := 0 } k0 256 true, .replayMarkReceive { port := 1024 } k0 0,
    .replayMarkReceive { port := 0 } { k0 with handle := 512 } 0, .replayMarkReceive { port := 0 } k0 256,
    .resultFlitReceive { port := 1024 } k0 { partialKind := false, ofs := 0, last := true, data := [] },
    .resultFlitReceive { port := 0 } { k0 with handle := 512 } { partialKind := false, ofs := 0, last := true, data := [] },
    .resultFlitReceive { port := 0 } k0 { partialKind := false, ofs := 2 ^ 32, last := true, data := [] },
    .commitMessageReceive { port := 1024 } 0 m0, .commitMessageReceive { port := 0 } (2 ^ 32) m0,
    .commitMessageReceive { port := 0 } 0 { m0 with flags := 2 ^ 32 }, .resultAckReceive { port := 1024 } k0,
    .resultAckReceive { port := 0 } { k0 with handle := 512 }, .fabricReadResponse { k0 with handle := 512 } 0 none none,
    .fabricReadResponse k0 (2 ^ 64) none none,
    .fabricReadResponse k0 0 none (some { check := 256, pane := 0, lane := 0, limb := 0, expected := 0, observed := 0 }),
    .fabricWriteResponse { k0 with handle := 512 } true, .cmdClassConfig { h0 with slot := 256 } 0 0 0 0,
    .cmdClassConfig h0 0 (2 ^ 16) 0 0, .cmdClassConfig h0 0 0 (2 ^ 16) 0, .cmdClassConfig h0 0 0 0 (2 ^ 64),
    .cmdCtxShape { h0 with slot := 256 } 0 0 0 true, .cmdCtxShape h0 (2 ^ 16) 0 0 true, .shaperEligible 256,
    .cmdHallmarkRead { h0 with slot := 256 } 0 0 0 0 none true, .cmdHallmarkRead h0 (2 ^ 64) 0 0 0 none true,
    .cmdHallmarkRead h0 0 (2 ^ 16) 0 0 none true, .cmdHallmarkRead h0 0 0 (2 ^ 64) 0 none true,
    .cmdHallmarkRead h0 0 0 0 (2 ^ 32) none true, .manifestRegister { h0 with slot := 256 } 0 .err [],
    .manifestVerify { h0 with slot := 256 } .err [], .manifestRead { h0 with slot := 256 },
    .fenceTileFence { h0 with slot := 256 } { kind := 1, idx := 0 }, .fenceTileFence h0 { kind := 16, idx := 0 },
    .fenceTileUnfence { h0 with slot := 256 } { kind := 1, idx := 0 }, .fenceTileUnfence h0 { kind := 16, idx := 0 },
    .fenceTileRead { h0 with slot := 256 }, .cmdDaybookRead { h0 with slot := 256 } 0 0 0 0 true,
    .cmdDaybookRead h0 (2 ^ 64) 0 0 0 true, .cmdDaybookRead h0 0 (2 ^ 16) 0 0 true, .cmdDaybookRead h0 0 0 (2 ^ 64) 0 true,
    .cmdDaybookRead h0 0 0 0 (2 ^ 32) true, .faultNoticeReceive { port := 1024 } { event := 1, unit := 0, seqLo := 0 },
    .faultNoticeReceive { port := 0 } { event := 65536, unit := 0, seqLo := 0 }, .journalRead 8 0 0 {},
    .journalRead 0 (2 ^ 32) 0 {}, .journalRead 0 0 32 {}, .journalRead 0 0 0 { errs := [{ cw := 8, dev := 0, bits := 1 }] },
    .scrubRead (2 ^ 32) 0 {}, .scrubRead 0 32 {}, .scrubRead 0 0 { errs := [{ cw := 8, dev := 0, bits := 1 }] }, .channelFailure 10,
    .dramRefresh 10, .mr4Read 10 true, .zqCalibration 10, .phyUpdateRequest 10, .ledgerSave { h0 with slot := 256 } 0 0,
    .ledgerSave h0 512 0, .ledgerSave h0 0 (2 ^ 16)] : List Instr).all (fun i => !i.wf) = true := by decide +kernel

theorem test_wf_refuses_5 : ([.ledgerSaveDelete { h0 with slot := 256 } 0, .ledgerSaveDelete h0 (2 ^ 16),
    .cmdLedgerResume { h0 with slot := 256 } 0 0 none true true, .cmdLedgerResume h0 (2 ^ 16) 0 none true true,
    .cmdLedgerResume h0 0 512 none true true, .journalStageOut { h0 with slot := 256 } 0 0, .journalStageOut h0 512 0,
    .journalStageOut h0 0 (2 ^ 16), .journalStageIn { h0 with slot := 256 } 0 0, .journalStageIn h0 512 0,
    .journalStageIn h0 0 (2 ^ 16), .journalStageDelete { h0 with slot := 256 } 0, .journalStageDelete h0 (2 ^ 16),
    .journalRetirePage { h0 with slot := 256 } 0 [], .journalRetirePage h0 (2 ^ 32) [],
    .journalRetireBank { h0 with slot := 256 } 0 0 [], .journalRetireBank h0 256 0 [], .journalRetireBank h0 0 256 [],
    .journalRetireMark { h0 with slot := 256 } 0 0, .journalRetireMark h0 256 0, .journalRetireMark h0 0 256,
    .journalRetireUnmark { h0 with slot := 256 } 0 0, .journalRetireUnmark h0 256 0, .journalRetireUnmark h0 0 256,
    .journalRetireRead { h0 with slot := 256 }, .cmdJournalConfig { h0 with slot := 256 } 0, .cmdJournalConfig h0 (2 ^ 16),
    .patternLoad { h0 with slot := 256 } .err true true,
    .packReceive { port := 1024 } { magic := 0, pver := 0, blockVersion := 0, packId := 0, target := 0, packSeq := 0, patterns := 0, chains := 0, chainLen := 0, march := false, reservedZero := true, length := 0, sigOk := true, digestOk := true },
    .patternDelete { h0 with slot := 256 } 0, .patternDelete h0 256, .patternRead { h0 with slot := 256 },
    .testTileRun { h0 with slot := 256 } { kind := 1, idx := 0 } 0, .testTileRun h0 { kind := 16, idx := 0 } 0,
    .testTileRun h0 { kind := 1, idx := 0 } (2 ^ 32), .testTileAbort { h0 with slot := 256 } { kind := 1, idx := 0 },
    .testTileAbort h0 { kind := 16, idx := 0 }, .testComplete { kind := 16, idx := 0 } { mismatches := 0 }, .monitorFire 64 0,
    .stretchIntervalEnd 16, .tallyClockSet { h0 with slot := 256 } 0 0 0, .tallyClockSet h0 256 0 0, .tallyClockSet h0 0 256 0,
    .tallyClockSet h0 0 0 (2 ^ 64), .tallyClockSync { h0 with slot := 256 } [] 0, .tallyClockSync h0 [] (2 ^ 64),
    .tallyClockMargin { h0 with slot := 256 } 0 0, .tallyClockMargin h0 256 0, .tallyClockMargin h0 0 256,
    .tallyClockRead { h0 with slot := 256 }, .tallySetEffective 16, .groupQuiesced 16,
    .cmdPowerSelf { h0 with slot := 256 } 0 .on 0, .cmdPowerSelf h0 128 .on 0, .tileAutoIdleOff 64, .domainPowerOnComplete 128,
    .powerPlanLoad { h0 with slot := 256 } .err, .powerPlanSchedule { h0 with slot := 256 } 0 0 0, .powerPlanSchedule h0 64 0 0,
    .powerPlanSchedule h0 0 256 0] : List Instr).all (fun i => !i.wf) = true := by decide +kernel

theorem test_wf_refuses_6 : ([.powerPlanSchedule h0 0 0 (2 ^ 64), .powerPlanRead { h0 with slot := 256 }, .pmAckChange 80 true,
    .leaseRenewalReceive { port := 1024 } { epoch := 1, sendHt := 0 },
    .leaseRenewalReceive { port := 0 } { epoch := 2 ^ 32, sendHt := 0 },
    .leaseClaimReceive { port := 1024 } { epoch := 1, sendHt := 0 },
    .leaseClaimReceive { port := 0 } { epoch := 2 ^ 32, sendHt := 0 },
    .leaseReleaseReceive { port := 1024 } { epoch := 1, sendHt := 0 },
    .leaseReleaseReceive { port := 0 } { epoch := 2 ^ 32, sendHt := 0 },
    .leaseConfirmationReceive { port := 1024 } { epoch := 1, sendHt := 0 },
    .leaseConfirmationReceive { port := 0 } { epoch := 2 ^ 32, sendHt := 0 },
    .leaseRefusalReceive { port := 1024 } 0 { epoch := 1, sendHt := 0 },
    .leaseRefusalReceive { port := 0 } (2 ^ 32) { epoch := 1, sendHt := 0 },
    .leaseRefusalReceive { port := 0 } 0 { epoch := 2 ^ 32, sendHt := 0 }, .mirrorFlitReceive { port := 1024 } .fullDone,
    .pairIsolate { h0 with slot := 256 }, .pairRejoin { h0 with slot := 256 }, .pairHandover { h0 with slot := 256 } 0,
    .pairHandover h0 (2 ^ 64), .pairRead { h0 with slot := 256 }, .attestEnroll { h0 with slot := 256 },
    .attestReport { h0 with slot := 256 } 0 0, .attestCertLoad { h0 with slot := 256 } 0 .err,
    .attestCertRead { h0 with slot := 256 },
    .cmdCtxOpen { h0 with slot := 256 } { spanTier := 1, mask := 1, radio := false, enc := false, tenantKeyed := false },
    .cmdCtxOpen h0 { spanTier := 256, mask := 1, radio := false, enc := false, tenantKeyed := false },
    .contextMessageReceive { port := 1024 } c0, .contextMessageReceive { port := 0 } { c0 with span := 4 },
    .cmdCtxClose { h0 with slot := 256 }, .debugChallenge { h0 with slot := 256 }, .debugUnlock { h0 with slot := 256 } .err,
    .mailboxGo none 256, .mailboxAbort none 256, .mailboxDoneClear none 256,
    .forwardedCommandReceive { port := 1024 } 0 0 0 0 0 true 0 true,
    .forwardedCommandReceive { port := 0 } (2 ^ 32) 0 0 0 0 true 0 true,
    .forwardedCommandReceive { port := 0 } 0 (2 ^ 16) 0 0 0 true 0 true,
    .forwardedCommandReceive { port := 0 } 0 0 (2 ^ 32) 0 0 true 0 true,
    .forwardedCommandReceive { port := 0 } 0 0 0 16 0 true 0 true,
    .forwardedCommandReceive { port := 0 } 0 0 0 0 (2 ^ 16) true 0 true,
    .forwardResponseReceive { port := 1024 } (.host 0) 0 .ok [], .forwardResponseReceive { port := 0 } (.host 16) 0 .ok [],
    .forwardResponseReceive { port := 0 } (.host 0) (2 ^ 32) .ok [], .forwardTimeout (.host 16),
    .distributionReceive { port := 1024 } 0 (.slotReset 1), .distributionReceive { port := 0 } (2 ^ 40) (.slotReset 1),
    .distributionReceive { port := 0 } 0 (.slotReset 256), .distributionAckReceive { port := 1024 } 0 .ok {},
    .distributionAckReceive { port := 0 } (2 ^ 40) .ok {}, .distributionAckReceive { port := 0 } 0 .ok { panes := 65536 },
    .cmdFwStage { h0 with slot := 256 } 0 0 .err, .cmdFwStage h0 256 0 .err, .cmdFwActivate { h0 with slot := 256 } 0 0,
    .cmdFwActivate h0 256 0, .cmdFwActivate h0 0 (2 ^ 64), .fcwLoRead 256, .tdcStampLoRead 32 0, .tdcStampLoRead 0 256,
    .hmSeqLoRead 256, .dbSeqLoRead 256] : List Instr).all (fun i => !i.wf) = true := by decide +kernel

theorem test_wf_refuses_7 : ([.noticeRead 256, .registerWrite (2 ^ 24) 0 0, .registerWrite 0 0 256, .htEvEdge 4, .paneSpillComplete { k0 with handle := 512 },
    .domainPowerOffComplete 128] : List Instr).all (fun i => !i.wf) = true := by decide +kernel

theorem test_wf_accepts_1 : ([.refLoss 0, .qlTimeout 0, .waitToRestoreExpiry 0, .disputeClear 0 0, .cmdTaiMap h0 0 0 0 0,
    .taiMapReceive { port := 0 } { ofs := 0, utc := 37, leap := 0, eff := 0 }, .cmdRefConfig h0 {}, .cmdRefReport h0 {},
    .cmdDpllMode h0 0 0, .cmdDpllFcw h0 0 0, .holdoverModelRead h0, .holdoverModelLoad h0 {}, .holdoverModelClear h0,
    .holdoverModelFreeze h0, .holdoverModelResume h0, .tdcEdgeAccept 0 true 0 0, .holdoffEnd 0 true, .tdcGateEnd 0,
    .cmdTdcConfig h0 0 {}, .cmdTdcCal h0 0 0 .internal 0,
    .plumbMeasure h0 { port := 0, poChild := 0, chChild := 0, poParent := 0, chParent := 0, count := 16 }, .plumbLoad h0 0 0,
    .plumbRead h0 0, .plumbClearSuspect h0 0, .cmdTsrcConfig h0 0 0 0, .cmdHtStep h0 true 0 0, .portBringUpStart 0,
    .bringUpFlitReceive 0 i0, .keyExchangeStart 0,
    .keyExchangeReceive 0 { nonce := 0, share := 0, chainOk := true, reportOk := true, userDataOk := true, ownerDigest := 0, fwSvn := 0, ident := i0 } true,
    .phyDown 0, .timingFlitSend 0 0,
    .timingFlitReceive { port := 0 } { txHt := 0, echoTx := 0, echoDwell := 0, status := .locked, primary := true } 0 0 0,
    .controlFlitReceive { port := 0 } 0 0 .idle, .corruptFlitReceive 0 [] true true 0, .portNoFlitTimeout 0, .portTimingLoss 0,
    .rttEstimateUpdate 0, .docketPushWord 0 0 0 0, .docketPushCommit 0 0 0, .docketEntryReady 0, .docketStrike 0, .docketFlush 0 0,
    .docketResume 0 0, .docketBind h0 0 .firmware true, .docketLoad h0 0 .firmware .err 0 true, .docketUnbind h0 0 .firmware,
    .frameStrikeArm 0 0 0, .frameDirectStrike 0, .pulseEdge 0, .pulseWidthEnd 0,
    .cmdPulseConfig h0 { target := .output 0, mode := 0 }, .cmdPulseAlign h0 0 0, .pulseAlignApply 0, .syncSet 0 0 0,
    .syncAdd 0 0 0, .syncSubtract 0 0 0, .syncReadIncrement 0 0 0, .syncUpdateApply 0,
    .waitRequest { waiter := 0, ctx := 1, vid := 0, thr := 0, gate := false, tmo := 0 }] : List Instr).all Instr.wf = true := by decide +kernel

theorem test_wf_accepts_2 : ([.waitTimeout 0, .waitCancel 0 0, .syncMap h0 0 0 true true, .syncUnmap h0 0 0, .syncMapRead h0 0 0,
    .syncSetMode h0 0 0 true true, .syncPairDefine h0 0 0 0, .syncPairDelete h0 0 0, .contextClear 0, .contextClearComplete 0,
    .paneClearAfterTeardown 0 0, .slotResetComplete 0, .cmdBarrierDefine h0 b0, .cmdBarrierDelete h0 0,
    .barrierArrivalReceive { port := 0 } 0 0 0 0 none, .barrierReleaseReceive { port := 0 } 0 0 0 0 0, .collPlanOpen h0 0 .err 0,
    .collPlanClose h0 0, .cmdCollBind h0 0 0, .collStart 0 0, .collQuery 0 0, .chunkSend 0 0 0,
    .contributionFlitReceive { port := 0 } k0 { partialKind := false, ofs := 0, last := true, data := [] } none, .chunkMap k0,
    .spillReloadComplete k0 true, .contributionNoticeReceive { port := 0 } k0 .ok, .drainComplete k0 none,
    .resultCopyReceive { port := 0 } { msg := m0, bytes := [], fwVersion := 0 }, .resultCopyAck { port := 0 } k0,
    .replayRequestReceive { port := 0 } k0 0 true, .replayMarkReceive { port := 0 } k0 0,
    .resultFlitReceive { port := 0 } k0 { partialKind := false, ofs := 0, last := true, data := [] },
    .commitMessageReceive { port := 0 } 0 m0, .resultAckReceive { port := 0 } k0, .fabricReadResponse k0 0 none none,
    .fabricWriteResponse k0 true, .cmdClassConfig h0 0 0 0 0, .cmdCtxShape h0 0 0 0 true, .shaperEligible 0,
    .cmdHallmarkRead h0 0 0 0 0 none true, .manifestRegister h0 0 .err [], .manifestVerify h0 .err [], .manifestRead h0,
    .fenceTileFence h0 { kind := 1, idx := 0 }, .fenceTileUnfence h0 { kind := 1, idx := 0 }, .fenceTileRead h0,
    .cmdDaybookRead h0 0 0 0 0 true, .faultNoticeReceive { port := 0 } { event := 1, unit := 0, seqLo := 0 }, .journalRead 0 0 0 {},
    .scrubRead 0 0 {}, .channelFailure 0, .dramRefresh 0, .mr4Read 0 true, .zqCalibration 0, .phyUpdateRequest 0,
    .ledgerSave h0 0 0, .ledgerSaveDelete h0 0, .cmdLedgerResume h0 0 0 none true true, .journalStageOut h0 0 0,
    .journalStageIn h0 0 0] : List Instr).all Instr.wf = true := by decide +kernel

theorem test_wf_accepts_3 : ([.journalStageDelete h0 0, .journalRetirePage h0 0 [], .journalRetireBank h0 0 0 [], .journalRetireMark h0 0 0,
    .journalRetireUnmark h0 0 0, .journalRetireRead h0, .cmdJournalConfig h0 0, .patternLoad h0 .err true true,
    .packReceive { port := 0 } { magic := 0, pver := 0, blockVersion := 0, packId := 0, target := 0, packSeq := 0, patterns := 0, chains := 0, chainLen := 0, march := false, reservedZero := true, length := 0, sigOk := true, digestOk := true },
    .patternDelete h0 0, .patternRead h0, .testTileRun h0 { kind := 1, idx := 0 } 0, .testTileAbort h0 { kind := 1, idx := 0 },
    .testComplete { kind := 1, idx := 0 } { mismatches := 0 }, .monitorFire 0 0, .stretchIntervalEnd 0, .tallyClockSet h0 0 0 0,
    .tallyClockSync h0 [] 0, .tallyClockMargin h0 0 0, .tallyClockRead h0, .tallySetEffective 0, .groupQuiesced 0,
    .cmdPowerSelf h0 0 .on 0, .tileAutoIdleOff 0, .domainPowerOnComplete 0, .powerPlanLoad h0 .err, .powerPlanSchedule h0 0 0 0,
    .powerPlanRead h0, .pmAckChange 0 true, .leaseRenewalReceive { port := 0 } { epoch := 1, sendHt := 0 },
    .leaseClaimReceive { port := 0 } { epoch := 1, sendHt := 0 }, .leaseReleaseReceive { port := 0 } { epoch := 1, sendHt := 0 },
    .leaseConfirmationReceive { port := 0 } { epoch := 1, sendHt := 0 },
    .leaseRefusalReceive { port := 0 } 0 { epoch := 1, sendHt := 0 }, .mirrorFlitReceive { port := 0 } .fullDone, .pairIsolate h0,
    .pairRejoin h0, .pairHandover h0 0, .pairRead h0, .attestEnroll h0, .attestReport h0 0 0, .attestCertLoad h0 0 .err,
    .attestCertRead h0, .cmdCtxOpen h0 { spanTier := 1, mask := 1, radio := false, enc := false, tenantKeyed := false },
    .contextMessageReceive { port := 0 } c0, .cmdCtxClose h0, .debugChallenge h0, .debugUnlock h0 .err, .mailboxGo none 0,
    .mailboxAbort none 0, .mailboxDoneClear none 0, .forwardedCommandReceive { port := 0 } 0 0 0 0 0 true 0 true,
    .forwardResponseReceive { port := 0 } (.host 0) 0 .ok [], .forwardTimeout (.host 0),
    .distributionReceive { port := 0 } 0 (.slotReset 1), .distributionAckReceive { port := 0 } 0 .ok {}, .cmdFwStage h0 0 0 .err,
    .cmdFwActivate h0 0 0, .fcwLoRead 0, .tdcStampLoRead 0 0] : List Instr).all Instr.wf = true := by decide +kernel

theorem test_wf_accepts_4 : ([.hmSeqLoRead 0, .dbSeqLoRead 0, .noticeRead 0, .registerWrite 0 0 0, .htEvEdge 0, .paneSpillComplete k0,
    .domainPowerOffComplete 0] : List Instr).all Instr.wf = true := by decide +kernel

/-! ## The manual's worked examples

Each expected value is the manual's own. -/

/-- The limbs after some FP32 addends in their order. -/
def sumLimbs (l : List Nat) : List Nat := ((l.foldl (fun e x => e.add (decodeTerm x 0)) ({} : Elem)).limbs.map BitVec.toNat)

-- Table 8.10: limbs 4 and 5 after each step of the third order, and the sum.
theorem test_ledger_deferred_borrow : sumLimbs [0xCB800000] = [0, 0, 0, 0, 0, 0xFFFFFFE000, 0, 0, 0, 0] := by decide +kernel
theorem test_ledger_six_orders : [[0x4B800000, 0x3F800000, 0xCB800000], [0xCB800000, 0x3F800000, 0x4B800000], [0x4B800000, 0xCB800000, 0x3F800000]].all
    (fun l => sumLimbs l == [0, 0, 0, 0, 0x200000, 0, 0, 0, 0, 0]) = true := by decide +kernel
theorem test_ledger_sum_rounds_to_one : (List.range 5).all (fun m => roundOut 0 m (2 ^ 149) 0 == (le 4 0x3F800000, 0)) = true := by decide +kernel
theorem test_ledger_residues : [resTerm (decodeTerm 0x4B800000 0), resTerm (decodeTerm 0x3F800000 0), resTerm (decodeTerm 0xCB800000 0)] = [8192, 32, 57343] := by decide +kernel

-- Table 8.11 and the packing of its two elements.
def exN : Int := -(2 ^ 149 + 2 ^ 141 + 1)
def exN' : Int := -257 * 2 ^ 141
theorem test_bf16_modes : (List.range 5).map (fun m => ((roundOut 1 m exN 0).1, (roundOut 1 m exN' 0).1)) =
    [(le 2 0xBF81, le 2 0xBF80), (le 2 0xBF81, le 2 0xBF81), (le 2 0xBF80, le 2 0xBF80), (le 2 0xBF80, le 2 0xBF80), (le 2 0xBF81, le 2 0xBF81)] := by decide +kernel
theorem test_canonical_residue : resElement (limbsOf 10 exN) = 57310 := by decide +kernel
theorem test_canonical_limbs : (limbsOf 10 exN).map BitVec.toNat =
    [0xFFFFFFFF, 0xFFFFFFFF, 0xFFFFFFFF, 0xFFFFFFFF, 0xFFDFDFFF, 0xFFFFFFFF, 0xFFFFFFFF, 0xFFFFFFFF, 0xFFFFFFFF, 0xFFFFFFFFFF] := by decide +kernel
theorem test_packed_escape : (packElem exN 0).length = 45 ∧ (packElem exN 0).head? = some 0xFF#8 := by decide +kernel
theorem test_packed_short : packElem exN' 0 = [0x8D, 0xFF, 0xFE, 0xFF, 0xFF, 0xFF, 0xFF, 0xFF, 0xFF, 0xFF, 0xFF, 0xFF, 0xFF] := by decide +kernel

-- Tables 9.7 and 9.8: the exponentials, one product in its limbs, and the three outputs.
theorem test_exp2 : [0x40400000, 0x40200000, 0xBF000000].map (fun s => (exp2Of s 0x40400000).1) = [0x3F800000, 0x3F3504F3, 0x3DB504F3] := by decide +kernel
theorem test_product_limbs : (({} : Elem).add (mulTerm (decodeTerm 0x3F3504F3 0) (decodeTerm 0xBF00 1)).1).limbs.map BitVec.toNat =
    [0, 0, 0, 0xFFD0000000, 0xFFFFF4AFB1, 0, 0, 0, 0, 0] := by decide +kernel
theorem test_scaled_mac_outputs : [(1, 358921667 * 2 ^ 120), (1, 327751871 * 2 ^ 122), (0, 240987275 * 2 ^ 122)].map (fun x => (roundOut x.1 0 x.2 0)) =
    [(le 2 0x3F2B, 1), (le 2 0x401C, 1), (le 4 0x3FE5D2C9, 1)] := by decide +kernel
theorem test_scaled_mac_sum : ((([(0x3F800000, 0x3F80), (0x3F3504F3, 0xBF00), (0x3DB504F3, 0x3E80)] : List (Nat × Nat)).foldl
    (fun e x => e.add (mulTerm (decodeTerm x.1 0) (decodeTerm x.2 1)).1) ({} : Elem))).n = 358921667 * 2 ^ 120 := by decide +kernel

-- Table 9.9: one sample from three antennas.
theorem test_csum16_shifts : [(54000 * 2 ^ 149, -41000 * 2 ^ 149), (54000 * 2 ^ 148, -41000 * 2 ^ 148), (54000 * 2 ^ 145, -41000 * 2 ^ 145)].map
    (fun (x : Int × Int) => ((roundOut 6 0 x.1 0).1 ++ (roundOut 6 0 x.2 0).1)) = [le 4 0x80007FFF, le 4 0xAFEC6978, le 4 0xF5FE0D2F] := by decide +kernel

-- The tickets across the wrap: the test of R186 at steps 1 to 4.
theorem test_tickets_wrap : [meets true 0xFFFFFFFE 0xFFFFFFFE, meets true 0xFFFFFFFE 0xFFFFFFFF, meets true 0xFFFFFFFE 0, meets true 0xFFFFFFFF 0xFFFFFFFF, meets true 0xFFFFFFFF 0] =
    [true, false, false, true, false] := by decide

-- Table 22.7: two notices at a Hub.
def hubNotices : State := { hubUp with flt := { hubUp.flt with
  notices := [{ event := 0x0506, unit := 0x5003, port := 17, self := false, seqLo := 0x2A41 }, { event := 0x0203, unit := 0x2011, port := 0, self := true, seqLo := 0 }] } }
theorem test_notice0 : (match exec (.noticeRead 0) hubNotices with
  | .next t => (t.rg.rdata, (t.regRead 0x20044 0).1, (t.regRead 0x20048 0).1) == (0x50030506, 0x00000811, 0x00002A41)
  | _ => false) = true := by decide
theorem test_notice_second : (match exec (.noticeRead 0) (hubNotices.withPending []) with
  | .next t => (match exec (.noticeRead 0) t with | .next u => (u.rg.rdata, (u.regRead 0x20044 0).1) == (0x20110203, 0x00000200) | _ => false)
  | _ => false) = true := by decide


-- Chapter 14's example: device 13 of a channel of a Hub-64 returns wrong data; where its page lies.
def dev13 : JournalErr := { errs := (List.range 8).map (fun j => { cw := j, dev := 13, bits := 0x5A }) }
theorem test_journal_device13 : decodeAcc none dev13 = some [13] ∧ cwMask dev13 = 0xFF ∧ devPos 13 = 11 := by decide +kernel
theorem test_journal_page : hubJm.pageChan 41943124 = 4 ∧ hubJm.chanPage 41943124 = 4194312 ∧ hubJm.pageBank 41943124 = 8 := by decide +kernel

/-! ## Witnesses: for each statement with hypotheses a state and operands that meet them -/

theorem witness_ReferenceEvents_1 : hubUp.isTop = true ∧ (2 : Nat) < 4 ∧ (2 = 2 → (hubUp.ref 2).lastEdge + 400 ≤ hubUp.htNs ∨ (hubUp.ref 2).lastPps + 1500000000 ≤ hubUp.htNs) := by decide

theorem witness_ReferenceEvents_1b : hubUp.isTop = true ∧ (3 : Nat) < 4 ∧ (3 = 3 → (hubUp.ref 3).lastEdge + hubUp.dpll.cfg.ref3TmoS * 1000000000 ≤ hubUp.htNs) := by decide

theorem witness_ReferenceEvents_2 : (2 : Nat) < 4 ∧ leafNew.htNs < (leafNew.ref 2).lastEdge + 400 ∧ leafNew.htNs < (leafNew.ref 2).lastPps + 1500000000 := by decide

theorem witness_ReferenceEvents_2b : (0 : Nat) < 4 ∧ (leafNew.htNs - (leafNew.ref 0).lastEdge) * leafNew.dpll.cfg.nomKhz0 < 4000000 := by decide

theorem witness_ReferenceEvents_3 : hubUp.isTop = true ∧ hubUp.dpll.lastMsg + hubUp.dpll.cfg.msgTmoS * 1000000000 ≤ hubUp.htNs := by decide

theorem witness_ReferenceEvents_4 : hubUp.isTop = true ∧ (1 : Nat) < 2 ∧ (hubUp.ref 1).lastReport + 5000000000 ≤ hubUp.htNs := by decide

theorem witness_ReferenceEvents_5 : leafUp.isTop = false := by decide

theorem witness_ReferenceEvents_6 : hubTemp.isHub = true ∧ hubTemp.dpll.cfg.tempExternal = true ∧ hubTemp.dpll.tempAt + 10000000000 ≤ hubTemp.htNs := by decide

theorem witness_ReferenceEvents_7 : hubWtr.isHub = true ∧ (3 : Nat) < 4 ∧ hubWtr.refCond 3 = true ∧ (hubWtr.ref 3).qualified = false ∧ (hubWtr.ref 3).wtrStart = some 0 ∧
    0 + hubWtr.dpll.cfg.wtrS * 1000000000 ≤ hubWtr.htNs := by decide +kernel

theorem witness_ReferenceEvents_8 : hubDisp.isHub = true ∧ (2 : Nat) < 3 ∧ (3 : Nat) < 4 ∧ (hubDisp.dpll.disp.get {} (4 * 2 + 3)).marked = true ∧
    (hubDisp.dpll.disp.get {} (4 * 2 + 3)).agreeSince = some 0 ∧ 0 + 60000000000 ≤ hubDisp.htNs := by decide

theorem witness_DpllStateEvents_1 : hubAcq.isHub = true ∧ hubAcq.dpll.state = .acquiring ∧ hubAcq.openLoop = false ∧ 10000000000 ≤ hubAcq.dpll.lockRun := by decide

theorem witness_DpllStateEvents_2 : hubLock.isHub = true ∧ hubLock.dpll.state = .locked ∧ hubLock.openLoop = false ∧ 2000000000 ≤ hubLock.dpll.unlockRun := by decide

theorem witness_DpllStateEvents_3 : hubHold.isHub = true ∧ hubHold.dpll.state = .holdover ∧ hubHold.dpll.holdEntry = some 0 ∧ hubHold.openLoop = false ∧ 0 + hubHold.dpll.cfg.holdLimitS * 1000000000 < hubHold.htNs := by decide

theorem witness_DpllStateEvents_4 : hubHold.isHub = true ∧ hubHold.dpll.cfg.tempExternal = false ∧ hubHold.dpll.state = .holdover ∧ hubHold.openLoop = false ∧
    (hubHold.dpll.cfg.tempExcC : Rat) < rabs (({ hubHold with dpll := { hubHold.dpll with tempDie := 1000 } } : State).tempC - hubHold.dpll.model.t0) := by decide +kernel

theorem witness_DpllStateEvents_5 : hubOpen.isHub = true ∧ hubOpen.dpll.mode = 4 ∧ hubOpen.dpll.openExpired = false ∧ hubOpen.dpll.openAt + hubOpen.dpll.cfg.openTmoS * 1000000000 ≤ hubOpen.htNs := by decide

theorem witness_DpllStateEvents_6 : hubLock.isHub = true ∧ hubLock.dpll.pull = true ∧ hubLock.dpll.pullLeft = 0 := by decide

theorem witness_DpllStateEvents_7 : ({ hubLock with dpll := { hubLock.dpll with pullLeft := -3 } } : State).dpll.pullLeft ≠ 0 := by decide

theorem witness_DpllStateEvents_8 : hubLock.isHub = true ∧ hubLock.dpll.fslew = true ∧ hubLock.dpll.fcw = hubLock.dpll.fcwTarget := by decide

theorem witness_OcxoAndLearning_1 : hubUp.isHub = true ∧ ({ hubUp with dpll := { hubUp.dpll with warmN := true } } : State).dpll.warmN = true := by decide

theorem witness_OcxoAndLearning_2 : hubSettle.isHub = true ∧ hubSettle.dpll.warmN = false := by decide

theorem witness_OcxoAndLearning_3 : hubSettle.isHub = true ∧ hubSettle.dpll.settleStart = some 0 ∧ hubSettle.dpll.warmN = false ∧ hubSettle.dpll.ocxoRun = true ∧
    hubSettle.dpll.trusted = false ∧ 0 + hubSettle.dpll.cfg.settleMin * 60000000000 ≤ hubSettle.htNs := by decide

theorem witness_OcxoAndLearning_4 : hubUp.isHub = true ∧ hubUp.dpll.ocxoRun = true := by decide

theorem witness_OcxoAndLearning_5 : hubNoOcxo.isHub = true ∧ hubNoOcxo.dpll.ocxoRun = false := by decide

theorem witness_OcxoAndLearning_6 : hubBins.isHub = true ∧ hubBins.dpll.cfg.tempExternal = true ∧ 60000000000 ≤ hubBins.dpll.binN ∧ hubBins.binCounts = false := by decide

theorem witness_OcxoAndLearning_7 : hubUp.dpll.binN < 60000000000 := by decide

theorem witness_OcxoAndLearning_8 : hubLearn.isHub = true ∧ hubLearn.dpll.cfg.tempExternal = true ∧ hubLearn.binCounts = true ∧ 60000000000 ≤ hubLearn.dpll.binN ∧ hubLearn.dpll.modelLoaded = true := by decide

theorem witness_OcxoAndLearning_9 : hubLearn.isHub = true ∧ hubLearn.dpll.usable = true ∧ hubLearn.scriv.restarting = false := by decide

theorem witness_OcxoAndLearning_10 : hubUp.checkpoints = true := by decide

theorem witness_TaiMappingAndSynthesizer_1 : leafPort.params.isUp lk0.port = true ∧ (leafPort.takeFlit lk0 1).2 = true ∧ (leafPort.takeFlit lk0 1).1.isTop = false ∧
    (leafPort.takeFlit lk0 1).1.htNs < ({ ofs := 0, utc := 0, leap := 0, eff := 10 ^ 12 } : TaiMap).eff := by decide

theorem witness_TaiMappingAndSynthesizer_2 : leafMap.time.pend = some { ofs := 0, utc := 5, leap := 0, eff := 7 } ∧ (7 : Nat) ≤ leafMap.htNs ∧ (0 : Int) = leafMap.time.ofs ∧ leafMap.isHub = false := by decide

theorem witness_TaiMappingAndSynthesizer_4 : leafSyn.time.synBack = some 5 ∧ 5 + 1000000 ≤ leafSyn.htNs := by decide

theorem witness_TaiMappingAndSynthesizer_5 : hubUp.isTop = true ∧ xsOk [] = false := by decide

theorem witness_TaiMappingAndSynthesizer_6 : hubUp.isTop = true ∧ xsOk xsMsg = true ∧ fieldAt xsMsg 11 1 % 2 = 1 ∧ fieldAt xsMsg 11 1 / 2 ≠ 1 ∧ fieldAt xsMsg 4 1 = 0xFF ∧ (hubUp.ref 2).lastPps = 0 := by decide

theorem witness_ReferenceCommands_1 : gate { opcode := 0x0102, leaf := false, mirrored := true } hdr0 hubUp = none ∧ route hubUp { opcode := 0x0102, leaf := false, mirrored := true } hdr0 = .here ∧ refCfgOk {} = true ∧
    hubUp.dpll.cfgBusyUntil ≤ hubUp.htNs := by decide

theorem witness_ReferenceCommands_2 : Here (.cmdRefReport hdr0 { ql0 := some { ssm := 2, eql := none }, ql1 := some { ssm := 15, eql := none } }) hubUp ∧ (2 : Nat) < 16 ∧ (15 : Nat) < 16 := by decide

theorem witness_ReferenceCommands_3 : Here (.cmdTaiMap hdr0 (-5) 255 2 1000001000000) hubUp ∧ hubUp.isTop = true ∧ hubUp.isPrimary = true ∧ hubUp.htNs + 1000000 ≤ 1000001000000 := by decide

theorem witness_ReferenceCommands_4 : Here (.cmdTsrcConfig hdr0 2 500 10000) leafUp := by decide

theorem witness_ReferenceCommands_5 : Here (.cmdDpllMode hdr0 4 0) hubUp ∧ hubUp.isTop = true := by decide

theorem witness_ReferenceCommands_6 : Here (.cmdDpllFcw hdr0 fcwLimit 4) hubOpen ∧ hubOpen.dpll.mode = 4 := by decide

theorem witness_HoldoverModelCommands_1 : Here (.holdoverModelRead hdr0) hubUp := by decide

theorem witness_HoldoverModelCommands_2 : Here (.holdoverModelLoad hdr0 {}) hubUp ∧ hubUp.modelOk {} = true ∧ hubUp.dpll.state ≠ .holdover := by decide +kernel

theorem witness_HoldoverModelCommands_3 : Here (.holdoverModelClear hdr0) hubUp ∧ hubUp.dpll.state ≠ .holdover := by decide

theorem witness_HoldoverModelCommands_4 : Here (.holdoverModelFreeze hdr0) hubUp := by decide

theorem witness_HoldoverModelCommands_5 : Here (.holdoverModelResume hdr0) hubUp := by decide

theorem witness_HoldoverModelCommands_6 : hubHold.dpll.state = .holdover ∧ Here (.holdoverModelLoad hdr0 {}) hubHold ∧ hubHold.modelOk {} = true ∧ Here (.holdoverModelClear hdr0) hubHold := by decide +kernel

theorem witness_PlumbAndHtStep_1 : Here (.plumbLoad hdr0 0 (-2147483648)) leafPort ∧ leafPort.plumbPort 0 = none ∧ leafPort.tsrc.plumb = none := by decide

theorem witness_PlumbAndHtStep_2 : Here (.plumbRead hdr0 0) leafPort ∧ leafPort.plumbPort 0 = none := by decide

theorem witness_PlumbAndHtStep_3 : Here (.plumbClearSuspect hdr0 0) leafPort ∧ leafPort.plumbPort 0 = none := by decide

theorem witness_PlumbAndHtStep_4 : Here (.plumbMeasure hdr0 plumb0) leafPort ∧ leafPort.plumbPort plumb0.port = none ∧ leafPort.plumbCheck plumb0.poChild plumb0.chChild = none := by decide

theorem witness_PlumbAndHtStep_5 : ∃ r, leafPlumb.tsrc.plumb = some r ∧ r.src = some (.host 0) ∧ r.peer = some (512, 2) ∧ r.args.count ≤ r.ext.1 ∧ r.args.count ≤ r.got.1 ∧
    r.second + (r.args.count - 1) * 1024 + 64 ≤ leafPlumb.htNs := ⟨_, rfl, by decide⟩

theorem witness_PlumbAndHtStep_6 : ∃ r, leafPlumbP.tsrc.plumb = some r ∧ r.src = none ∧ r.peer = none ∧ r.args.count ≤ r.ext.1 ∧ r.args.count ≤ r.got.1 ∧
    r.second + (r.args.count - 1) * 1024 + 64 ≤ leafPlumbP.htNs := ⟨_, rfl, by decide⟩

theorem witness_PlumbAndHtStep_7 : ∃ r, leafPlumbF.tsrc.plumb = some r ∧ r.src = some (.host 0) ∧ r.got.1 < r.args.count ∧ r.second + (r.args.count - 1) * 1024 + 64 ≤ leafPlumbF.htNs := ⟨_, rfl, by decide⟩

theorem witness_PlumbAndHtStep_8 : leafStep.time.step = some { d := 5, eff := 7 } ∧ 7 ≤ leafStep.htNs := by decide

theorem witness_EdgeMeasurement_1 : (leafTdc.tdcCh 7).cfg.en = true ∧ (leafTdc.tdcCh 7).holdEnd = none ∧ (leafTdc.tdcCh 7).level ≠ true ∧ (leafTdc.tdcCh 7).cfg.hyst + 1 ≤ 1 + (leafTdc.tdcCh 7).cfg.hyst ∧
    leafTdc.seesInput 7 = true ∧ (leafTdc.tdcCh 7).loop = false ∧ 70 + (leafTdc.tdcCh 7).cfg.hyst ≤ leafTdc.tickBins ∧ leafTdc.tickBins < 70 + (leafTdc.tdcCh 7).cfg.hyst + 32 ∧
    edgeSelected 1 true = true ∧ edgeSelected 2 true = false := by decide

theorem witness_EdgeMeasurement_2 : (leafTdc.tdcCh 6).holdEnd = some 0 ∧ 0 ≤ leafTdc.tdc.coarse * 8 := by decide

theorem witness_EdgeMeasurement_3 : (leafTdc.tdcCh 5).cfg.en = false ∧
    (leafTdc.tdcCh 5).gateHt / ((leafTdc.tdcCh 5).cfg.gateMs * 1000000) < leafTdc.htNs / ((leafTdc.tdcCh 5).cfg.gateMs * 1000000) := by decide

theorem witness_EdgeMeasurement_4 : (leafTdc.tdcCh 7).cfg.en = true ∧
    (leafTdc.tdcCh 7).gateHt / ((leafTdc.tdcCh 7).cfg.gateMs * 1000000) < leafTdc.htNs / ((leafTdc.tdcCh 7).cfg.gateMs * 1000000) := by decide

theorem witness_EdgeMeasurement_5 : leafAnc.time.ht48 % 2 ^ 68 = 0 ∧ leafAnc.tdc.ancHt ≠ BitVec.ofNat 32 (leafAnc.htNs / 2 ^ 20) := by decide

theorem witness_EdgeMeasurement_6 : Here (.cmdTdcConfig hdr0 7 { src := 7 }) leafUp ∧ tdcCfgOk { src := 7 } = true ∧ leafUp.tdcFixed 7 = false ∧ leafUp.inCal 7 = false := by decide

theorem witness_EdgeMeasurement_7 : Here (.cmdTdcCal hdr0 7 3 .internal 4096) leafUp ∧ leafUp.tdc.cal = none ∧ leafUp.tsrc.plumb = none ∧ leafUp.tdcFixed 7 = false ∧ leafUp.inCal 7 = false ∧ (leafUp.po 3).mode = 0 ∧
    leafUp.canAlloc 1 true = true := by decide

theorem witness_EdgeMeasurement_8 : ∃ c, leafCal.tdc.cal = some c ∧ c.start + (c.count - 1) * 1024 + 64 ≤ leafCal.htNs ∧ c.count ≤ c.got.1 ∧ c.path = .internal := ⟨_, rfl, by decide⟩

theorem witness_EdgeMeasurement_8b : ∃ c, leafCalX.tdc.cal = some c ∧ c.start + (c.count - 1) * 1024 + 64 ≤ leafCalX.htNs ∧ c.count ≤ c.got.1 ∧ c.path ≠ .internal := ⟨_, rfl, by decide⟩

theorem witness_EdgeMeasurement_8c : ∃ c, leafCalF.tdc.cal = some c ∧ c.start + (c.count - 1) * 1024 + 64 ≤ leafCalF.htNs ∧ c.got.1 < c.count := ⟨_, rfl, by decide⟩

theorem witness_EdgeMeasurement_9 : ∀ c, leafUp.tdc.cal = some c → leafUp.htNs < c.start + (c.count - 1) * 1024 + 64 := fun c h => by simp [leafUp, State.resetOf] at h

theorem witness_EdgeMeasurement_10 : leafTdc.tickBins < 81 := by decide

theorem witness_DocketPushAndCommit_1 : leafDk.isHub = false ∧ (leafDk.queue 15).owner.isSome = true ∧ leafDk.dkMay 15 1 = true := by decide

theorem witness_DocketPushAndCommit_2 : leafDk.isHub = false ∧ (leafDk.queue 15).owner.isSome = true ∧ leafDk.dkMay 15 1 = true ∧
    dkEntryOk (entryOfWords (leafDk.queue 15).staging 0) (leafDk.powerQueue 15) = true ∧ 0 < (leafDk.queue 15).entries.length ∧ (leafDk.queue 15).entries.length < 256 := by decide

theorem witness_DocketPushAndCommit_3 : dkEntryOk (entryOfWords (leafDk.queue 15).staging (2 ^ 31)) (leafDk.powerQueue 15) = false ∧ 256 ≤ (leafDk.queue 14).entries.length ∧
    dkEntryOk (entryOfWords (leafDk.queue 14).staging 0) (leafDk.powerQueue 14) = true ∧ (leafDk.queue 14).owner.isSome = true ∧ leafDk.dkMay 14 1 = true := by decide

theorem witness_DocketPushAndCommit_5 : leafDk.isHub = false ∧ (leafDk.queue 13).halted = true ∧ leafDk.dkMay 13 1 = true := by decide

theorem witness_DocketPushAndCommit_6 : leafDk.dkMay 15 2 = false := by decide

theorem witness_DocketArmsAndStrikes_1 : leafDk.isHub = false ∧ (leafDk.queue 15).owner.isSome = true ∧ (leafDk.queue 15).halted = false ∧ leafDk.time.valid = true ∧ (leafDk.queue 15).entries = [{ bits := 0 }] ∧
    dkWait 0 = false ∧ dkRel 0 = false ∧ (leafDk.queue 15).relH = none ∧ (leafDk.queue 15).lastStrike = none ∧ dkStrike 0 < leafDk.htNs + 16 := by decide

theorem witness_DocketArmsAndStrikes_1b : (leafDk.queue 12).entries = [{ bits := dkAt }] ∧ dkWait dkAt = false ∧ dkRel dkAt = false ∧ leafDk.htNs + 16 ≤ dkStrike dkAt ∧ leafDk.actionRefusal 12 dkAt = none ∧
    (leafDk.queue 12).owner.isSome = true ∧ (leafDk.queue 12).halted = false ∧ (leafDk.queue 12).lastStrike = none := by decide

theorem witness_DocketArmsAndStrikes_2 : leafDk.isHub = false ∧ leafDk.time.valid = true ∧ (leafDk.queue 11).entries = [{ bits := 0, armed := some 7 }] ∧ 7 ≤ leafDk.htNs ∧ dkDone 0 = false := by decide

theorem witness_DocketArmsAndStrikes_3 : Here (.docketBind hdr0 0 .firmware true) leafDk ∧ leafDk.ownerRefusal hdr0 0 .firmware = none ∧ (leafDk.queue 0).owner = none ∧
    leafDk.canAlloc 2 (leafDk.ownerTenant .firmware) = true := by decide

theorem witness_DocketArmsAndStrikes_4 : Here (.docketLoad hdr0 15 .firmware (.ok [0]) 256 false) leafDkFw ∧ leafDkFw.ownerRefusal hdr0 15 .firmware = none ∧ (leafDkFw.queue 15).owner = some .firmware ∧
    firstBad (leafDkFw.powerQueue 15) 0 [0] = none ∧ (leafDkFw.queue 15).entries ≠ [] ∧ (leafDkFw.queue 15).entries.length + 1 ≤ 256 := by decide

theorem witness_DocketArmsAndStrikes_5 : Here (.docketUnbind hdr0 15 .firmware) leafDkFw ∧ leafDkFw.ownerRefusal hdr0 15 .firmware = none ∧ (leafDkFw.queue 15).owner = some .firmware := by decide

theorem witness_FramesAndPulses_1 : leafFrame.isHub = false ∧ (leafFrame.frame 3).mode = 1 ∧ (leafFrame.frame 3).lo.toNat + (0 : Word).toNat * 2 ^ 32 < leafFrame.htNs + 16 ∧
    leafFrame.htNs + 16 ≤ (leafFrame.frame 3).lo.toNat + (1 : Word).toNat * 2 ^ 32 := by decide

theorem witness_FramesAndPulses_2 : leafFrame.isHub = false ∧ leafFrame.time.valid = true ∧ (leafFrame.frame 2).armed = some 7 ∧ 7 ≤ leafFrame.htNs := by decide

theorem witness_FramesAndPulses_3 : leafFrame.time.valid = true ∧ (leafFrame.po 3).mode = 1 ∧ leafFrame.edgeDue 3 = true := by decide

theorem witness_FramesAndPulses_4 : (leafFrame.po 2).fallAt = some 7 ∧ 7 ≤ leafFrame.htNs := by decide

theorem witness_FramesAndPulses_5 : Here (.cmdPulseConfig hdr0 pulse0) leafFrame ∧ (leafFrame.po 3).mode = 1 := by decide

theorem witness_FramesAndPulses_6 : Here (.cmdPulseAlign hdr0 (2 ^ 3) 1000001000000) hubPo ∧ hubPo.htNs + 1000000 ≤ 1000001000000 ∧ (hubPo.po 3).mode = 1 := by decide

theorem witness_FramesAndPulses_7 : hubPo.isHub = true ∧ (hubPo.po 2).alignPend = some 7 ∧ 7 ≤ hubPo.htNs ∧ (hubPo.po 2).alignSrc = some (.host 0) := by decide

theorem witness_SyncWindowWritesTheWord_1 : leafSync.isHub = false ∧ leafSync.syncRefusal 1 4095 = none ∧ (leafSync.tr 1 4095).counter = false := by decide

theorem witness_SyncWindowWritesTheWord_2 : leafSync.syncRefusal 1 0 = none ∧ ((leafSync.tr 1 0).counter = true ∧ (leafSync.tr 1 0).role = 0) ∧
    ((leafSync.tr 1 4095).counter = false ∧ (leafSync.word (leafSync.tr 1 4095).phys).toNat + (0xFFFFFFF8 : Word).toNat ≤ 0xFFFFFFFF) := by decide

theorem witness_SyncWindowWritesTheWord_3 : leafSync.syncRefusal 1 4095 = none ∧ (leafSync.tr 1 4095).counter = false ∧ (7 : Word).toNat ≤ (leafSync.word (leafSync.tr 1 4095).phys).toNat := by decide

theorem witness_SyncWindowWritesTheWord_4 : leafSync.syncRefusal 1 0 = none ∧ (leafSync.tr 1 0).counter = true ∧ (leafSync.tr 1 0).role = 0 := by decide

theorem witness_SyncWindowWritesTheWord_5 : leafSync.isHub = false ∧ leafSync.syncRefusal 1 4095 = none := by decide

theorem witness_SyncFailuresLeaveWords_1 : leafSync.isHub = false ∧ leafSync.syncRefusal 1 7 = some .range ∧ leafSync.syncRefusal 2 7 = some .genWrap := by decide

theorem witness_SyncFailuresLeaveWords_2 : leafSync.syncRefusal 1 4095 = none ∧ (leafSync.tr 1 4095).counter = false ∧ (leafSync.tr 1 4095).saturate = false ∧
    0xFFFFFFFF < (leafSync.word (leafSync.tr 1 4095).phys).toNat + (0xFFFFFFF9 : Word).toNat ∧ (leafSync.word (leafSync.tr 1 4095).phys).toNat < (8 : Word).toNat := by decide

theorem witness_WaitersAndQueuedUpdates_1 : leafSync.isHub = false ∧ leafSync.syncRefusal 1 4095 = none ∧ (leafSync.waiter 63).state = 0 ∧ (leafSync.waiter 63).abortAt = none := by decide

theorem witness_WaitersAndQueuedUpdates_2 : leafSync.isHub = false ∧ leafSync.syncRefusal 1 7 = some .range ∧ (leafSync.waiter 63).state = 0 ∧ (leafSync.waiter 63).abortAt = none := by decide

theorem witness_WaitersAndQueuedUpdates_3 : (leafSync.waiter 62).deadline = some 7 ∧ (leafSync.waiter 62).watching = true ∧ 7 < leafSync.cycle := by decide

theorem witness_WaitersAndQueuedUpdates_4 : leafSync.mayUse 1 (leafSync.waiter 62).slot = true ∧ (leafSync.waiter 62).watching = true := by decide

theorem witness_WaitersAndQueuedUpdates_5 : leafSync.sync.used.contains 5 = false ∧ nextUpd leafSync.htNs 5 leafSync.sync.queue = some { slot := 1, vid := 4095, phys := 5, amount := 1, source := 1, arrived := 0 } ∧
    (leafSync.tr 1 4095).valid = true ∧ (leafSync.tr 1 4095).phys = 5 := by decide

theorem witness_SyncCommands_1 : Here (.syncMap hdr1 7 1 true false) leafSync ∧ (leafSync.slot 1).clearing = false ∧ (leafSync.tr 1 7).valid = false ∧ 1 ≤ leafSync.freeWords ∧
    pickFree leafSync.usedWords 65536 1 0 = [4] := by decide

theorem witness_SyncCommands_2 : Here (.syncUnmap hdr1 4095 1) leafSync ∧ (leafSync.slot 1).clearing = false ∧ rangeOk 4095 1 = true ∧
    (vidsOf 4095 1).any (fun v => !(leafSync.tr 1 v).valid || (leafSync.tr 1 v).role != 0) = false := by decide

theorem witness_SyncCommands_3 : Here (.syncMapRead hdr1 0 4096) leafSync ∧ rangeOk 0 4096 = true := by decide

theorem witness_SyncCommands_4 : Here (.syncSetMode hdr1 4095 1 true true) leafMapped ∧ (leafMapped.tr 1 4095).valid = true ∧ (leafMapped.tr 1 4095).role = 0 := by decide

theorem witness_SyncCommands_5 : Here (.syncPairDefine hdr1 0 1 0x7FFFFFFF) leafSync ∧ (leafSync.tr 1 0).valid = true ∧ (leafSync.tr 1 1).valid = true ∧ (leafSync.tr 1 0).counter = true ∧
    (leafSync.tr 1 1).counter = true ∧ (leafSync.tr 1 0).role = 0 ∧ (leafSync.tr 1 1).role = 0 := by decide

theorem witness_SyncCommands_6 : Here (.syncPairDelete hdr1 2 3) leafSync ∧ (leafSync.tr 1 2).valid = true ∧ (leafSync.tr 1 3).valid = true ∧ (leafSync.tr 1 2).role = 1 ∧
    (leafSync.tr 1 3).role = 2 ∧ (leafSync.tr 1 2).partner = 3 := by decide

theorem witness_BarrierMessagesAndCommands_1 : (hubBar.takeFlit lk3 1).2 = true ∧ (hubBar.takeFlit lk3 1).1.params.isDown 3 = true ∧ ((hubBar.takeFlit lk3 1).1.port 3).up = true ∧ (hubBar.takeFlit lk3 1).1.openCtx 1 1 = true ∧
    ((hubBar.takeFlit lk3 1).1.hbar 1 63).isSome = true ∧ ((hubBar.takeFlit lk3 1).1.kidsOf 1 1 8).contains ((hubBar.takeFlit lk3 1).1.portChild 3) = true := by decide

theorem witness_BarrierMessagesAndCommands_2 : (leafBar.takeFlit lk1 1).2 = true ∧ (leafBar.takeFlit lk1 1).1.isHub = false ∧ (leafBar.takeFlit lk1 1).1.params.hasPort 1 = true ∧ (leafBar.takeFlit lk1 1).1.params.isDown 1 = false ∧
    ((leafBar.takeFlit lk1 1).1.port 1).up = true ∧ (leafBar.takeFlit lk1 1).1.openCtx 1 1 = true ∧
    ((leafBar.takeFlit lk1 1).1.lbar 1 63).map (·.lastInst) = some none ∧ (leafBar.takeFlit lk1 1).1.htNs + 4 ≤ leafBar.htNs + 4 := by decide

theorem witness_BarrierMessagesAndCommands_3 : leafRel.isHub = false ∧ leafRel.time.valid = true ∧ leafRel.sync.rels = [{ slot := 1, gen := 1, id := 63, inst := 0, s := 7, fireAt := 7, port := 1, rid := 0, launch := 0 }] ∧ 7 ≤ leafRel.htNs := by decide

theorem witness_BarrierMessagesAndCommands_4 : Here (.cmdBarrierDefine hdrSpan bar0) hubBar ∧ barDefOk bar0 = true ∧ bar0.spanTier = hubBar.tier := by decide

theorem witness_BarrierMessagesAndCommands_5 : Here (.cmdBarrierDelete hdrSpan 63) hubBar ∧ (hubBar.hbar 1 63) = some { d := bar0, gen := 1 } ∧ hubBar.instOpen { d := bar0, gen := 1 } = false := by decide

theorem witness_ContextLifecycle_1 : Here (.cmdCtxOpen hdr0r open0) hubCtx ∧ hubCtx.openRange open0 = false ∧ hubCtx.sec.keysValid = true ∧ (match hubCtx.chooseSlot open0 with | .ok c => c == 2 | _ => false) = true ∧ open0.tenantKeyed = false := by decide

theorem witness_ContextLifecycle_2 : Here (.cmdCtxShape hdrSpan 16 0 65536 true) hubBar ∧ shapeRange 16 0 65536 = true ∧ (hubBar.slot 1).spanHere = true := by decide

theorem witness_ContextLifecycle_3 : Here (.cmdCtxClose hdrSpan) hubBar ∧ hdrSpan.slot ≠ 0 ∧ (hubBar.slot 1).spanHere = true ∧ (hubBar.slot 1).clearing = false ∧ (hubBar.slot 1).clearReq = false := by decide

theorem witness_ContextLifecycle_4 : (leafPort2.takeFlit lkz 1).2 = true ∧ (leafPort2.takeFlit lkz 1).1.isHub = false ∧ (leafPort2.takeFlit lkz 1).1.params.isUp 0 = true ∧ ((leafPort2.takeFlit lkz 1).1.port 0).up = true ∧
    (((leafPort2.takeFlit lkz 1).1.port 0).keys.map (·.wrap)) = some 3 ∧ ((leafPort2.takeFlit lkz 1).1.slot 63).free = true ∧ 63 < (leafPort2.takeFlit lkz 1).1.params.contexts := by decide

theorem witness_ContextLifecycle_5 : (leafClear.slot 1).clearReq = true ∧ (leafClear.slot 1).open_ = true := by decide

theorem witness_ContextLifecycle_6 : (leafClear.slot 2).clearing = true ∧ (leafClear.slot 2).ackTo = none ∧ leafClear.sync.freeing.get [] 2 = [] ∧ leafClear.scriv.dists = [] := by decide

theorem witness_ContextLifecycle_7 : 3 < leafClear.params.tiles ∧ 255 < leafClear.params.tilePanes ∧ (leafClear.pane 3 255).dirty = true := by decide

theorem witness_ContextLifecycle_8 : (leafClear.slot 3).resetting = true ∧ (leafClear.slot 3).open_ = false ∧ (leafClear.slot 3).clearing = false ∧ leafClear.flushedSince (leafClear.slot 3).clearedAt = true := by decide

theorem witness_CollectivesOfALeaf_1 : Here (.collPlanOpen hdr1 64 (.ok (desc 0 0 9 1)) 1) leafColl ∧ leafColl.isHub = false ∧ leafColl.openCtx (dSlot (desc 0 0 9 1)) (dGen (desc 0 0 9 1)) = true ∧
    dRangeOk (desc 0 0 9 1) = true ∧ dSpan (desc 0 0 9 1) = 0 ∧ dMask (desc 0 0 9 1) = 0 ∧ dK (desc 0 0 9 1) 1 ≤ 2 ^ 31 ∧ (leafColl.leafTake (desc 0 0 9 1) 1).toBool = true := by decide

theorem witness_CollectivesOfALeaf_2 : Here (.collPlanClose hdr1 511) leafColl ∧ leafColl.isHub = false ∧ leafColl.lcoll 1 511 = some { desc := desc 0 0 511 1, w := 1, src := some 0 } ∧ dSpan (desc 0 0 511 1) = 0 ∧
    leafColl.armedColl 1 511 = false := by decide

theorem witness_CollectivesOfALeaf_3 : Here (.cmdCollBind hdr1 511 64) leafColl ∧ leafColl.lcoll 1 511 = some { desc := desc 0 0 511 1, w := 1, src := some 0 } := by decide

theorem witness_CollectivesOfALeaf_4 : leafColl.isHub = false ∧ leafColl.openCtx 1 (leafColl.slot 1).lastGen = true ∧ leafColl.lcoll 1 ((511 : Word).toNat % 512) = some { desc := desc 0 0 511 1, w := 1, src := some 0 } ∧ dCount (desc 0 0 511 1) ≠ 0 := by decide

theorem witness_CollectivesOfALeaf_5 : leafUp.isHub = false ∧ dCount (desc 0 0 511 0) = 0 ∧ dSigEn (desc 0 0 511 0) = false ∧
    ({ leafUp with coll := { leafUp.coll with leaf := [(511, some { desc := desc 0 0 511 0, w := 1, src := some 0 })] } } : State).lcoll 0 511 = some { desc := desc 0 0 511 0, w := 1, src := some 0 } := by decide

theorem witness_CollectivesOfALeaf_6 : leafColl.isHub = false ∧ (leafColl.slot 1).clearing = false ∧ leafColl.lcoll 1 ((511 : Word).toNat % 512) = some { desc := desc 0 0 511 1, w := 1, src := some 0 } := by decide

theorem witness_ContributionsAndResultsAtALeaf_1 : leafColl.isHub = false ∧ (leafColl.lrun (key0 0)).map (fun x => (x.w, x.owed, x.stopped, x.chunk 0)) = some (1, none, false, {}) ∧ srcRun (desc 0 0 0 256) 0 0 64 = true ∧ 64 ≠ srcLen (desc 0 0 0 256) 0 := by decide

theorem witness_ContributionsAndResultsAtALeaf_2 : leafColl.isHub = false ∧ (leafColl.lrun (key0 5)).map (fun x => ((x.chunk 0).tiles, (x.chunk 0).panes)) = some ([0], [(0, 0)]) ∧ dSpan (desc 0 0 5 1) = 0 ∧
    (leafColl.pane 0 0).check (desc 0 0 5 1) 0 1 = none := by decide

theorem witness_ContributionsAndResultsAtALeaf_3 : leafColl.sendPorts 0 ≠ [] ∧ leafColl.isHub = false ∧ (leafColl.lcoll 1 2).bind (fun x => leafColl.leafNext x) = some 0 ∧ leafColl.openCtx 1 (dGen (desc 1 8 2 1)) = true := by decide

theorem witness_ContributionsAndResultsAtALeaf_4 : (leafColl.takeFlit lkz (leafColl.classOf (.result (key0 3) data0))).2 = true ∧ (leafColl.takeFlit lkz (leafColl.classOf (.result (key0 3) data0))).1.isHub = false ∧
    ((leafColl.takeFlit lkz (leafColl.classOf (.result (key0 3) data0))).1.lrun (leafColl.formKey (key0 3))).map (fun x => (x.chunk 0).committed) = some false := by decide

theorem witness_ContributionsAndResultsAtALeaf_5 : (leafColl.takeFlit lkz 1).2 = true ∧ (leafColl.takeFlit lkz 1).1.isHub = false ∧ newerEpoch (leafColl.takeFlit lkz 1).1.pair.seenEpoch 0 = false ∧
    ((leafColl.takeFlit lkz 1).1.lrun ((leafColl.takeFlit lkz 1).1.formKey (key0 3))).map (fun x => ((x.chunk 0).committed, (x.chunk 0).result.bytes.length, (x.chunk 0).sent)) = some (false, 4, true) := by decide

theorem witness_ContributionsAndResultsAtALeaf_6 : leafColl.isHub = false ∧ (leafColl.lrun (key0 4)).map (fun x => (x.chunk 0).writing) = some true ∧ dSpan (desc 0 0 4 1) = 0 := by decide

theorem witness_ContributionsAndResultsAtALeaf_7 : (leafColl.takeFlit lkz 1).2 = true ∧ (leafColl.takeFlit lkz 1).1.isHub = false ∧ (leafColl.takeFlit lkz 1).1.params.isUp 0 = true ∧ ((leafColl.takeFlit lkz 1).1.port 0).up = true ∧
    ((leafColl.takeFlit lkz 1).1.lrun ((leafColl.takeFlit lkz 1).1.formKey (key0 3))).map (fun x => ((x.chunk 0).noticed, (x.chunk 0).sent)) = some (false, true) := by decide

theorem witness_ContributionsAtAHub_1 : (hubTook (.contribution (key0 0) data1)).2 = true ∧ (hubTook (.contribution (key0 0) data1)).1.isHub = true ∧ (hubTook (.contribution (key0 0) data1)).1.isPrimary = true ∧
    (hubTook (.contribution (key0 0) data1)).1.openCtx 1 1 = true ∧ (hubTook (.contribution (key0 0) data1)).1.formKey (key0 0) = key0 0 ∧
    (hubTook (.contribution (key0 0) data1)).1.plan 1 0 = some { desc := desc 1 8 0 1, w := 1 } ∧
    (hubTook (.contribution (key0 0) data1)).1.kplan (key0 0) = some { desc := desc 1 8 0 1, w := 1 } ∧ (hubTook (.contribution (key0 0) data1)).1.hchunk (key0 0) = none ∧
    ((hubTook (.contribution (key0 0) data1)).1.planKids (desc 1 8 0 1)).contains ((hubTook (.contribution (key0 0) data1)).1.portChild 3) = true ∧ dOp (desc 1 8 0 1) ≠ 6 ∧
    (({ child := 3, aux := 0, part := false } : RxBuf).put data1).whole = false := by decide +kernel

theorem witness_ContributionsAtAHub_2 : (hubTook (.failNotice (key0 1) .range)).2 = true ∧ (hubTook (.failNotice (key0 1) .range)).1.formKey (key0 1) = key0 1 ∧
    (hubTook (.failNotice (key0 1) .range)).1.plan 1 1 = some { desc := desc 1 8 1 1, w := 1 } ∧ (hubTook (.failNotice (key0 1) .range)).1.kplan (key0 1) = some { desc := desc 1 8 1 1, w := 1 } ∧
    ((hubTook (.failNotice (key0 1) .range)).1.hchunk (key0 1)).map (fun c => (c.state, c.heard, c.arrived)) = some (.waiting, [], []) ∧
    ((hubTook (.failNotice (key0 1) .range)).1.planKids (desc 1 8 1 1)).contains ((hubTook (.failNotice (key0 1) .range)).1.portChild 3) = true := by decide +kernel

theorem witness_ContributionsAtAHub_3 : hubColl.isPrimary = true ∧ (hubColl.hchunk (key0 1)).map (·.waits) = some true ∧ hubColl.pair.stopMapping = false ∧ (hubColl.dom 79).on = true ∧ dRadio (desc 1 8 1 1) = false ∧
    (hubColl.awaken 2000 hubColl.seqBacklog).pickFrom 2000 hubColl.seqBacklog = some 1 ∧ hubColl.tileFor (desc 1 8 1 1) = some 0 ∧ (hubColl.dom 0).on = true := by decide +kernel

theorem witness_ContributionsAtAHub_4 : (hubColl.hchunk (key0 3)).map (·.state) = some .spilling := by decide +kernel

theorem witness_ContributionsAtAHub_5 : (hubColl.hchunk (key0 2)).map (fun c => (c.state, c.fromSave)) = some (.reloading, false) ∧ hubColl.jm.spillPages = [] ∧ (hubColl.hchunk (key0 2)).map (fun c => c.image.all (·.imagesOk)) = some true := by decide +kernel

theorem witness_ContributionsAtAHub_6 : (hubTook (.replayMark (key0 5) 1)).2 = true ∧ ((hubTook (.replayMark (key0 5) 1)).1.hchunk ((hubTook (.replayMark (key0 5) 1)).1.formKey (key0 5))).isSome = true ∧
    (hubTook (.replayMark (key0 5) 1)).1.isPrimary = true := by decide +kernel

theorem witness_CommitAtAHub_1 : hubColl.isHub = true ∧ hubColl.isPrimary = true ∧ (hubColl.hchunk (key0 7)).map (fun c => (c.state, c.attempt, c.panes)) = some (.draining, 0, []) ∧
    hubColl.kplan (key0 7) = some { desc := desc 1 8 7 1, w := 1 } ∧ hubColl.spans (desc 1 8 7 1) = true := by decide +kernel

theorem witness_CommitAtAHub_2 : (hubPartner.takeFlit lkc 1).2 = true ∧ (hubPartner.takeFlit lkc 1).1.isHub = true ∧ (hubPartner.takeFlit lkc 1).1.isPrimary = false ∧ (hubPartner.takeFlit lkc 1).1.pair.role ≠ .isolated ∧
    ((hubPartner.takeFlit lkc 1).1.plan 1 4).isSome = true := by decide +kernel

theorem witness_CommitAtAHub_3 : (hubColl.takeFlit lkc 1).2 = true ∧ (hubColl.takeFlit lkc 1).1.isPrimary = true ∧ ((hubColl.takeFlit lkc 1).1.hchunk (key0 4)).map (fun c => (c.state, c.msg.isSome)) = some (.gated, true) ∧
    ((hubColl.takeFlit lkc 1).1.kplan (key0 4)).isSome = true := by decide +kernel

theorem witness_CommitAtAHub_4 : (hubTook (.resultAck (key0 0))).2 = true ∧ (hubTook (.resultAck (key0 0))).1.isPrimary = true ∧ (hubTook (.resultAck (key0 0))).1.formKey (key0 0) = key0 0 ∧ (hubTook (.resultAck (key0 0))).1.hchunk (key0 0) = none ∧
    (hubTook (.resultAck (key0 0))).1.kplan (key0 0) = some { desc := desc 1 8 0 1, w := 1 } ∧ ((hubTook (.resultAck (key0 0))).1.planKids (desc 1 8 0 1)).contains ((hubTook (.resultAck (key0 0))).1.portChild 3) = true ∧
    (key0 0).inst = 0 ∧ (hubTook (.resultAck (key0 0))).1.spans (desc 1 8 0 1) = true := by decide +kernel

theorem witness_CommitAtAHub_5 : (hubTook (.resultAck (key0 6))).2 = true ∧ (hubTook (.resultAck (key0 6))).1.portChild 3 = 3 ∧ (hubTook (.resultAck (key0 6))).1.formKey (key0 6) = key0 6 ∧
    ((hubTook (.resultAck (key0 6))).1.hchunk (key0 6)).map (fun c => (c.state, c.acked)) = some (.committed, []) ∧
    (hubTook (.resultAck (key0 6))).1.kplan (key0 6) = some { desc := desc 1 8 6 1, w := 1 } ∧
    ((hubTook (.resultAck (key0 6))).1.planKids (desc 1 8 6 1)).contains 3 = true ∧ subList ((hubTook (.resultAck (key0 6))).1.planKids (desc 1 8 6 1)) (addNew [] 3) = true ∧
    (hubTook (.resultAck (key0 6))).1.spans (desc 1 8 6 1) = true := by decide +kernel

theorem witness_PortBringUp_1 : (leafKeys.params.hasPort 0 = true ∧ (leafKeys.port 0).bring = .down ∧ leafKeys.portFenced 0 = false ∧
    leafKeys.test.runs.any (fun r => unitVal r.unit == leafKeys.portUnit 0) = false ∧ leafKeys.portPowered 0 = true ∧ 5 ≤ leafKeys.boot.stage ∧
    leafKeys.boot.stage < 8 ∧ leafKeys.sec.keysValid = true) := by decide

theorem witness_PortBringUp_2 : leafLocking.params.hasPort 0 = true ∧ leafLocking.isHub = false ∧ (leafLocking.port 0).up = false ∧ (leafLocking.port 0).bring = .locking ∧
    leafLocking.peerOk 0 hubIdent = true ∧ ({ leafLocking with boot := { leafLocking.boot with leafIndex := hubIdent.port, pairId := hubIdent.pairId, placeValid := true } } : State).storedAsym 0 hubIdent = none ∧ (leafLocking.port 0).asym = 0 := by decide

theorem witness_PortBringUp_4 : leafWaiting.params.portList.find? (fun q => decide ((leafWaiting.port q).bring = .waiting)) = some 0 ∧ leafWaiting.exchanging.length < 4 := by decide

theorem witness_PortBringUp_5 : leafExch.isHub = false ∧ leafExch.params.isChord 0 = false ∧ leafExch.params.isDown 0 = false ∧ leafExch.params.hasPort 0 = true ∧
    (leafExch.port 0).bring = .exchanging ∧ (leafExch.port 0).keys = none ∧ leafExch.exchangeFail false exchOk = none := by decide

theorem witness_PortBringUp_6 : hubUp.params.hasPort 295 = true := by decide

theorem witness_PortReceivesAndTimesOut_1 : leafPort.params.hasPort lk0.port = true ∧ (leafPort.port lk0.port).up = true ∧ lk0.nak = false ∧ lk0.seq = (leafPort.port lk0.port).rxSeq ∧ (leafPort.port lk0.port).rxSeq < 4096 := by decide

theorem witness_PortReceivesAndTimesOut_1b : (2046 + 4096 - (leafPort.port 0).rxSeq) % 4096 = 2047 := by decide

theorem witness_PortReceivesAndTimesOut_1c : (2047 + 4096 - (leafPort.port 0).rxSeq) % 4096 = 2048 := by decide

theorem witness_PortReceivesAndTimesOut_2 : (CtlBody.plumbEnd none) ≠ .idle ∧ (leafPort.takeFlit lk0 1).2 = true ∧ (leafPort.takeFlit lk0 1).1.openCtx 1 1 = false := by decide

theorem witness_PortReceivesAndTimesOut_3 : leafPort.params.hasPort lk0.port = true ∧ (leafPort.port lk0.port).up = true := by decide

theorem witness_PortReceivesAndTimesOut_4 : leafPort.params.hasPort lk0.port = true ∧ (leafPort.port lk0.port).up = true := by decide

theorem witness_PortReceivesAndTimesOut_5 : leafTimed.params.hasPort lk0.port = true ∧ (leafTimed.port lk0.port).up = true ∧ ((leafTimed.takeHeader lk0).port lk0.port).up = true ∧ ((leafTimed.takeHeader lk0).port lk0.port).nSamples < 16 := by decide

theorem witness_PortReceivesAndTimesOut_6 : leafPort.params.hasPort 0 = true ∧ (leafPort.port 0).up = true ∧ (leafPort.port 0).lastPeriod ≠ some (leafPort.htNs / 512) := by decide

theorem witness_PortReceivesAndTimesOut_7 : leafPort.params.hasPort 0 = true ∧ (leafPort.port 0).up = true := by decide

theorem witness_PortReceivesAndTimesOut_7b : crcGood (List.replicate 256 0) = false ∧ rawNumbered (3 :: List.replicate 255 0) = true := by decide +kernel

theorem witness_PortReceivesAndTimesOut_8 : leafPort.params.hasPort 0 = true ∧ (leafPort.port 0).up = true ∧ (leafPort.port 0).lastGood + 16384 ≤ leafPort.htNs := by decide

theorem witness_PortReceivesAndTimesOut_9 : leafPort.params.hasPort 0 = true ∧ (leafPort.port 0).up = true ∧ (leafPort.port 0).lastTiming + 4096 ≤ leafPort.htNs ∧ (leafPort.port 0).lostTiming = false := by decide

theorem witness_PortReceivesAndTimesOut_10 : leafPort.params.hasPort 0 = true ∧ (leafPort.port 0).up = true ∧ (leafPort.port 0).rttAt + 1048576 ≤ leafPort.htNs ∧ (leafPort.port 0).samples.length < 1024 := by decide

theorem witness_PortReceivesAndTimesOut_11 : leafUp.tsrc.lastUpdate + 8192 ≤ leafUp.htNs ∧ hubUp.tsrc.lastUpdate + 8192 ≤ hubUp.htNs ∧ leafUp.isHub = false ∧ hubUp.isHub = true := by decide

theorem witness_ClassesAndShaping_1 : Here (.cmdClassConfig hdr0 0 16 hubUp.params.maxRadioTiles (hubUp.htNs + 1000000)) hubUp ∧ hubUp.boot.cfg.pairId = 0 ∧ hubUp.radioGroups hubUp.params.maxRadioTiles = true ∧ hubUp.coll.hub = [] := by decide

theorem witness_ClassesAndShaping_2 : slotsDue hubSched.htNs hubSched.sched.slotsPend = some 5 ∧ hubSched.sched.upSlotsPend = none := by decide

theorem witness_ClassesAndShaping_3 : hubSched.isHub = true ∧ hubSched.sched.tilesPend = some (3, 7) ∧ 7 ≤ hubSched.htNs := by decide

theorem witness_ClassesAndShaping_4 : leafHeld.isHub = false ∧ (leafHeld.shapeOf 1).held = true ∧ (leafHeld.shapeOf 1).eligible = true := by decide

theorem witness_HallmarkBatchesAndManifests_1 : hubBatch.isPrimary = true ∧ hubBatch.batchDue = true ∧ hubBatch.sec.keysValid = true := by decide

theorem witness_HallmarkBatchesAndManifests_2 : Here (.cmdHallmarkRead hdr0 5 1 0 1000 none false) hubBatch ∧ (hubBatch.hm.archive.filter (fun b => decide (5 ≤ b.seq) && decide (b.seq < 5 + 1))).length = 1 ∧
    ((hubBatch.hm.archive.filter (fun b => decide (5 ≤ b.seq) && decide (b.seq < 5 + 1))).map batchSize).sum ≤ 1000 := by decide

theorem witness_HallmarkBatchesAndManifests_3 : Here (.manifestRegister hdr1 7 (.ok manFile) [(0, .ok [1])]) leafMan ∧ leafMan.manifest 1 = none ∧ leafMan.leafCollOpen 1 = false ∧ manifestEntries manFile = some 1 := ⟨by decide +kernel, by decide +kernel, by decide +kernel, rfl⟩

theorem witness_HallmarkBatchesAndManifests_3b : entryOk manFile 0 [1] = true := by
  have e : (manFile.drop 80).take 48 = be 48 (Config.sha384 [1]) := rfl
  have l : fieldAt manFile 72 8 = 1 := rfl
  simp [entryOk, e, l]

theorem witness_HallmarkBatchesAndManifests_4 : Here (.manifestVerify hdr1 (.ok manFile) [(0, .ok [1])]) leafMan3 ∧ leafMan3.manifest 1 = some (Config.sha384 manFile, 7) ∧ ascending ([(0, FabRead.ok [1])].map (·.1)) = true := ⟨by decide +kernel, rfl, by decide⟩

theorem witness_HallmarkBatchesAndManifests_5 : Here (.manifestRead hdr1) leafMan2 ∧ leafMan2.manifest 1 = some (9, 7) := by decide

theorem witness_FencesDaybookAndNotices_1 : Here (.fenceTileFence hdr0 { kind := 1, idx := 0 }) hubTiles ∧ hubTiles.unitTile { kind := 1, idx := 0 } = some 0 ∧ (hubTiles.tile 0).state = 1 := by decide

theorem witness_FencesDaybookAndNotices_2 : Here (.fenceTileUnfence hdr0 { kind := 1, idx := 5 }) hubTiles ∧ hubTiles.unitTile { kind := 1, idx := 5 } = some 5 ∧ (hubTiles.tile 5).state = 3 ∧ (hubTiles.tile 5).testPassed = true := by decide

theorem witness_FencesDaybookAndNotices_3 : Here (.fenceTileUnfence hdr0 { kind := 2, idx := 9 }) hubTiles ∧ hubTiles.unitTile { kind := 2, idx := 9 } = none ∧ hubTiles.unitPort { kind := 2, idx := 9 } = some 9 ∧ hubTiles.portFenced 9 = true := by decide

theorem witness_FencesDaybookAndNotices_4 : Here (.fenceTileRead hdr0) leafUp ∧ leafUp.isHub = false := by decide

theorem witness_FencesDaybookAndNotices_5 : Here (.cmdDaybookRead hdr0 9 1 0 64 false) hubTiles ∧ (hubTiles.flash.daybook.filter (fun r => decide (9 ≤ r.seq) && decide (r.seq < 9 + 1))).length = 1 := by decide

theorem witness_FencesDaybookAndNotices_6 : hubTiles.flt.buf = [{ ht := 0, seq := 0, unit := 0, event := 0x0502 }] ∧ hubTiles.scriv.restarting = false := by decide

theorem witness_FencesDaybookAndNotices_7 : (hubTiles.takeFlit lk3 1).2 = true ∧ (hubTiles.takeFlit lk3 1).1.params.isDown 3 = true ∧ ((hubTiles.takeFlit lk3 1).1.port 3).up = true ∧ (hubTiles.takeFlit lk3 1).1.flt.notices.length < 256 := by decide

theorem witness_JournalMaintenance_1 : hubColl.isHub = true ∧ (hubColl.dom 77).on = true ∧ hubColl.jm.ready = false ∧ hubColl.jm.fail = false := by decide

theorem witness_JournalMaintenance_2 : hubJm.jmLive 0 31 = true ∧ (hubJm.jpage 0).state = .inUse 1 := by decide

theorem witness_JournalMaintenance_3 : (70 : Nat) / 64 = 64 / 64 ∧ 70 < hubJm.pageCount := by decide

theorem witness_JournalMaintenance_4 : hubJm.jmLive 0 0 = true ∧ hubJm.nextScrub (hubJm.pageChan 0) = some (0, 0) ∧ hubJm.scrubDue (hubJm.pageChan 0) = true ∧ (hubJm.jmAccess 5 0 0 {}).2 = false := by decide

theorem witness_JournalMaintenance_5 : hubJm.chanLive 1 = true := by decide

theorem witness_JournalMaintenance_6 : hubJm.chanLive 1 = true ∧ (hubJm.chan 1).lastRefresh + (if (hubJm.chan 1).doubled = true then 1950 else 3900) ≤ hubJm.htNs := by decide

theorem witness_JournalMaintenance_7 : hubJm.chanLive 1 = true ∧ (hubJm.chan 1).lastMr4 + 32000000 ≤ hubJm.htNs := by decide

theorem witness_JournalMaintenance_8 : hubJm.chanLive 1 = true ∧ (hubJm.chan 1).lastZq + 128000000 ≤ hubJm.htNs := by decide

theorem witness_JournalRetirement_1 : Here (.journalRetirePage hdr0 5 []) hubJm ∧ 5 < hubJm.pageCount ∧ hubJm.jm.retired.length < 65536 ∧ (hubJm.retireOne 5 [] (fun _ => false)).isSome = true := by decide

theorem witness_JournalRetirement_2 : Here (.journalRetireBank hdr0 1 31 []) hubJm ∧ 1 < hubJm.params.channels ∧ hubJm.jm.banks.length < 32 ∧ hubJm.jm.banks.contains (1, 31) = false ∧ (∀ p ∈ hubColl.jm.pages, hubColl.pageChan p.1 ≠ 1) := by decide

theorem witness_JournalRetirement_3 : Here (.journalRetireMark hdr0 1 19) hubJm ∧ 1 < hubJm.params.channels ∧ (hubJm.chan 1).mark = none := by decide

theorem witness_JournalRetirement_4 : Here (.journalRetireUnmark hdr0 0 3) hubJm ∧ 0 < hubJm.params.channels ∧ (hubJm.chan 0).mark = some 3 := by decide

theorem witness_JournalRetirement_5 : Here (.journalRetireRead hdr0) hubJm := by decide

theorem witness_JournalRetirement_6 : Here (.cmdJournalConfig hdr0 1) hubJm := by decide

theorem witness_JournalRetirement_6b : Here (.cmdJournalConfig hdr0 168) hubJm := by decide

theorem witness_SavedStatesAndStagedSets_1 : Here (.ledgerSave hdrSpan 2 255) hubJm ∧ hubJm.plan 1 2 = some { desc := desc 1 8 2 1, w := 1 } ∧ hubJm.spans (desc 1 8 2 1) = true ∧ hubJm.jm.saves.get none 255 = none ∧
    hubJm.hubRunning { desc := desc 1 8 2 1, w := 1 } = true ∧ (hubJm.coll.hub.all (fun e => match e.2 with | some q => decide (q.saving = none) | none => true)) = true ∧ hubJm.jm.ready = true := by decide +kernel

theorem witness_SavedStatesAndStagedSets_2 : Here (.ledgerSaveDelete hdrSpan 7) hubJm ∧ hubJm.jm.saves.get none 7 = some save0 ∧ hubJm.jm.ready = true ∧ hubJm.saveInUse 7 = false := by decide +kernel

theorem witness_SavedStatesAndStagedSets_3 : Here (.cmdLedgerResume hdrSpan 7 0 none true false) hubJm ∧ hubJm.jm.saves.get none 7 = some save0 ∧ (hubJm.slot 1).tenantKeyed = false ∧ hubJm.plan 1 0 = some { desc := desc 1 8 0 1, w := 1 } ∧
    hubJm.hubRunning { desc := desc 1 8 0 1, w := 1 } = false ∧ hubJm.saveInUse 7 = false ∧ save0.pages.any hubJm.pageBad = false := by decide +kernel

theorem witness_SavedStatesAndStagedSets_4 : Here (.journalStageOut hdrSpan 7 255) hubJm ∧ hubJm.plan 1 7 = some { desc := desc 1 8 7 1, w := 1 } ∧ hubJm.spans (desc 1 8 7 1) = true ∧ hubJm.jm.stages.get none 255 = none := by decide +kernel

theorem witness_SavedStatesAndStagedSets_5 : Here (.journalStageIn hdrSpan 7 9) hubJm ∧ hubJm.jm.stages.get none 9 = some stage0 ∧ dOp (desc 1 8 7 1) = 0 ∧ dCount (desc 1 8 7 1) = dCount stage0.desc ∧ dPanes (desc 1 8 7 1) = dPanes stage0.desc ∧
    stage0.k + dK (desc 1 8 7 1) (hubJm.leavesOf (desc 1 8 7 1)) ≤ 2 ^ 31 ∧ hubJm.setInUse 9 = false := by decide +kernel

theorem witness_SavedStatesAndStagedSets_6 : Here (.journalStageDelete hdrSpan 9) hubJm ∧ hubJm.jm.stages.get none 9 = some stage0 ∧ hubJm.setInUse 9 = false := by decide +kernel

theorem witness_PatternPacksAndTests_1 : Here (.patternLoad hdr0 (.ok { pack0 with packId := 7 }) true false) hubTest ∧ (match hubTest.packCheck { pack0 with packId := 7 } with | .ok i => i == 0 | _ => false) = true := by decide +kernel

theorem witness_PatternPacksAndTests_2 : (leafPort.takeFlit lk0 1).2 = true ∧ (leafPort.takeFlit lk0 1).1.params.hasPort 0 = true ∧ ((leafPort.takeFlit lk0 1).1.port 0).up = true ∧ (leafPort.takeFlit lk0 1).1.params.isDown 0 = false ∧ ((leafPort.takeFlit lk0 1).1.params.isUp 0 && (leafPort.takeFlit lk0 1).1.isHub) = false := by decide

theorem witness_PatternPacksAndTests_3 : Here (.patternDelete hdr0 15) hubTest ∧ hubTest.packBusy 15 = false ∧ hubTest.packAt 15 = some pack0 := by decide

theorem witness_PatternPacksAndTests_4 : Here (.patternRead hdr0) hubTest := by decide

theorem witness_PatternPacksAndTests_5 : Here (.testTileRun hdr0 { kind := 1, idx := 5 } 1) hubTest ∧ hubTest.unitTile { kind := 1, idx := 5 } = some 5 ∧ hubTest.packSlot 1 1 = some 15 ∧ hubTest.testRefusal { kind := 1, idx := 5 } = none := by decide

theorem witness_PatternPacksAndTests_6 : Here (.testTileAbort hdr0 { kind := 1, idx := 1 }) hubTest ∧ hubTest.unitTile { kind := 1, idx := 1 } = some 1 ∧ (hubTest.testOf { kind := 1, idx := 1 }).isSome = true := by decide

theorem witness_PatternPacksAndTests_7 : (hubTest.testOf { kind := 1, idx := 1 }).map (fun r => (r.packSlot, r.prev, r.started)) = some (14, 1, 0) ∧ 0 + hubTest.testNs { pack0 with chainLen := 8192, march := true } ≤ hubTest.htNs ∧ hubTest.unitTile { kind := 1, idx := 1 } = some 1 ∧
    ({ hubTest with test := { hubTest.test with packs := [(14, some pack0)] } } : State).packAt 14 = some pack0 := by decide

theorem witness_ClocksAndStretching_1 : 3 < leafPwr.params.tiles ∧ 2 < (leafPwr.grp 0).margin ∧ (leafPwr.grp 0).stopped = false := by decide

theorem witness_ClocksAndStretching_2 : leafPwr.hasGrp 0 = true ∧ (leafPwr.grp 0).intervalAt / 1048576 < leafPwr.htNs / 1048576 ∧ 9 * (leafPwr.grp 0).interval * 2 ^ (leafPwr.grp 0).freq ≤ 4 * 1048576 := by decide

theorem witness_ClocksAndStretching_3 : Here (.tallyClockSet hdr0 0 3 (leafUp.htNs + 10000)) leafUp ∧ leafUp.hasGrp 0 = true ∧ leafUp.grpPinned 0 = false ∧ (grpTiles 0).all (fun t => (leafUp.tile t).state != 4) = true ∧ (leafUp.grp 0).pend = none := by decide

theorem witness_ClocksAndStretching_4 : Here (.tallyClockSync hdr0 (List.replicate leafUp.params.groups 3) 1048576000) leafUp ∧ leafUp.htNs + 10000 ≤ 1048576000 ∧ 1048576000 % 1024 = 0 ∧ leafUp.chunkMapped = false ∧
    (List.range leafUp.params.groups).all (fun g => !leafUp.grpPinned g || ((List.replicate leafUp.params.groups 3)[g]?).getD 0 == 0) = true := by decide

theorem witness_ClocksAndStretching_5 : Here (.tallyClockMargin hdr0 0 7) leafUp ∧ leafUp.hasGrp 0 = true := by decide

theorem witness_ClocksAndStretching_6 : Here (.tallyClockRead hdr0) leafUp := by decide

theorem witness_ClocksAndStretching_7 : (leafPwr.grp 0).pend = some (1, 7) ∧ 7 ≤ leafPwr.htNs := by decide

theorem witness_ClocksAndStretching_8 : (leafPwr2.grp 0).stopping = true ∧ leafPwr2.coll.chunks = [] := by decide

theorem witness_ClocksAndStretching_9 : leafPwr.pwr.syncPend = some ([0], 7) ∧ 7 ≤ leafPwr.htNs := by decide

theorem witness_PowerDomainsAndPlans_1 : Here (.cmdPowerSelf hdr0 0 .on 0) leafUp ∧ leafUp.params.hasDomain 0 = true := by decide

theorem witness_PowerDomainsAndPlans_2 : 0 < leafPwr.params.tiles ∧ (leafPwr.dom 0).setting = .auto ∧ (leafPwr.dom 0).on = true ∧ (leafPwr.dom 0).turningOff = false ∧ (leafPwr.tile 0).state = 1 ∧ (leafPwr.tile 0).radio = false ∧ (leafPwr.tile 0).panes = [] ∧ (leafPwr.tile 0).idleSince + (leafPwr.dom 0).idle ≤ leafPwr.htNs := by decide

theorem witness_PowerDomainsAndPlans_3 : (leafPwr.dom 77).turningOn = true := by decide

theorem witness_PowerDomainsAndPlans_4 : ({ leafPwr with pwr := { leafPwr.pwr with doms := [(63, { on := true, turningOff := true })] } } : State).dom 63 = { on := true, turningOff := true } := by decide

theorem witness_PowerDomainsAndPlans_5 : Here (.powerPlanLoad hdr0 (.ok { magic := 0x504D5844, version := 1, reservedZero := true, steps := [(0, 1)], stepsReservedZero := true, actions := [1] })) leafUp ∧ leafUp.pwr.run = none ∧
    planOk { magic := 0x504D5844, version := 1, reservedZero := true, steps := [(0, 1)], stepsReservedZero := true, actions := [1] } = true := by decide

theorem witness_PowerDomainsAndPlans_6 : Here (.powerPlanSchedule hdr0 15 0 7) leafPwr ∧ leafPwr.pwr.plan.isSome = true ∧ (leafPwr.queue 15).owner = some .firmware ∧ (leafPwr.queue 15).entries.length < 256 := by decide

theorem witness_PowerDomainsAndPlans_7 : Here (.powerPlanRead hdr0) leafPwr ∧ leafPwr.pwr.plan.isSome = true := by decide

theorem witness_PowerDomainsAndPlans_8 : leafPwr.pwr.run = none ∧ leafPwr.pwr.waiting = [0] := by decide

theorem witness_PowerDomainsAndPlans_9 : leafPwr2.isHub = false ∧ leafPwr2.pwr.pmAck.getLsbD 0 = false ∧ leafPwr2.pwr.pmReq.getLsbD 0 = true ∧ leafPwr2.pwr.run = some { step := 0, act := 0, since := some 0 } ∧
    ((leafPwr2.stepActions 0)[0]?).map (fun a => (paOpc a, paIndex a)) = some (3, 0) := by decide

theorem witness_PowerDomainsAndPlans_10 : leafPwr3.pwr.run = some { step := 0, act := 1, since := some 0 } ∧ ((leafPwr3.stepActions 0)[1]?).map (fun a => decide (paOpc a = 6 ∧ 0 + paTime a ≤ leafPwr3.htNs)) = some true := by decide

theorem witness_PowerDomainsAndPlans_11 : leafPwr2.pwr.run = some { step := 0, act := 0, since := some 0 } ∧ ((leafPwr2.stepActions 0)[0]?).map (fun a => decide (paOpc a = 3 ∧ 0 + paTime a ≤ leafPwr2.htNs)) = some true := by decide

theorem witness_LeasesAndVoters_1 : ({ hubPair with pair := { hubPair.pair with lastRenew := some 0 } } : State).isPrimary = true ∧ 0 + 10000 ≤ hubPair.htNs := by decide

theorem witness_LeasesAndVoters_2 : hubClaim.firstClaim = false ∧ hubClaim.pair.role = .claiming ∧ hubClaim.isHub = true ∧ hubClaim.time.valid = true ∧ hubClaim.pair.lastClaim = none ∧ newerEpoch hubClaim.pair.epoch hubClaim.pair.newest = true := by decide

theorem witness_LeasesAndVoters_3 : (leafVote.takeFlit lk0 1).2 = true ∧ ((leafVote.takeFlit lk0 1).1.port 0).up = true ∧ (leafVote.takeFlit lk0 1).1.params.isChord 0 = false ∧ (leafVote.takeFlit lk0 1).1.params.isUp 0 = true ∧ (leafVote.takeFlit lk0 1).1.votes = true ∧ lease5.epoch = (leafVote.takeFlit lk0 1).1.pair.gEpoch ∧ (leafVote.takeFlit lk0 1).1.hubOf 0 = (leafVote.takeFlit lk0 1).1.pair.gPos := by decide

theorem witness_LeasesAndVoters_3b : (leafPort.takeFlit lk0 1).2 = true ∧ ((leafPort.takeFlit lk0 1).1.port 0).up = true ∧ (leafPort.takeFlit lk0 1).1.params.isChord 0 = false ∧ (leafPort.takeFlit lk0 1).1.params.isUp 0 = true ∧ (leafPort.takeFlit lk0 1).1.votes = true ∧ lease5.epoch ≠ (leafPort.takeFlit lk0 1).1.pair.gEpoch := by decide

theorem witness_LeasesAndVoters_4 : (leafVote.takeFlit lk0 1).2 = true ∧ ((leafVote.takeFlit lk0 1).1.port 0).up = true ∧ (leafVote.takeFlit lk0 1).1.params.isUp 0 = true ∧ (leafVote.takeFlit lk0 1).1.votes = true ∧ ¬ (6 = (leafVote.takeFlit lk0 1).1.pair.gEpoch ∧ (leafVote.takeFlit lk0 1).1.hubOf 0 = (leafVote.takeFlit lk0 1).1.pair.gPos) ∧ (newerEpoch 6 (leafVote.takeFlit lk0 1).1.pair.gEpoch && (leafVote.takeFlit lk0 1).1.grantStale) = true := by decide

theorem witness_LeasesAndVoters_4b : (newerEpoch 4 (leafVote.takeFlit lk0 1).1.pair.gEpoch && (leafVote.takeFlit lk0 1).1.grantStale) = false ∧ ¬ (4 = (leafVote.takeFlit lk0 1).1.pair.gEpoch ∧ (leafVote.takeFlit lk0 1).1.hubOf 0 = (leafVote.takeFlit lk0 1).1.pair.gPos) := by decide

theorem witness_LeasesAndVoters_5 : (leafVote.takeFlit lk0 1).2 = true ∧ ((leafVote.takeFlit lk0 1).1.port 0).up = true ∧ (leafVote.takeFlit lk0 1).1.params.isChord 0 = false ∧ (leafVote.takeFlit lk0 1).1.params.isUp 0 = true ∧ (leafVote.takeFlit lk0 1).1.votes = true ∧ lease5.epoch = leafVote.pair.gEpoch ∧ leafVote.hubOf 0 = leafVote.pair.gPos := by decide

theorem witness_LeasesAndVoters_6 : (hubPair.takeFlit lk3 1).2 = true ∧ hubPair.params.isDown 3 = true ∧ (hubPair.takeFlit lk3 1).1.isHub = true ∧ (hubPair.takeFlit lk3 1).1.pair.role = .primary ∧ bit (hubPair.takeFlit lk3 1).1.boot.cfg.roster ((hubPair.takeFlit lk3 1).1.portChild 3) = true ∧ (hubPair.takeFlit lk3 1).1.quorum = 1 ∧ (hubPair.takeFlit lk3 1).1.pair.leaseEnd = some (10 ^ 13) ∧ (hubPair.takeFlit lk3 1).1.pair.epoch = 1 := by decide

theorem witness_LeasesAndVoters_7 : (hubClaim.takeFlit lk3 1).2 = true ∧ (hubClaim.takeFlit lk3 1).1.isHub = true ∧ ((hubClaim.takeFlit lk3 1).1.port 3).up = true ∧ (hubClaim.takeFlit lk3 1).1.params.isDown 3 = true ∧ (hubClaim.takeFlit lk3 1).1.pair.role = .claiming ∧ newerEpoch 9 (hubClaim.takeFlit lk3 1).1.pair.newest = true := by decide

theorem witness_LeasesAndVoters_8 : hubLapse.isPrimary = true ∧ hubLapse.pair.leaseEnd = some 7 ∧ 7 ≤ hubLapse.htNs ∧ hubLapse.pair.handover = none := by decide

theorem witness_LeasesAndVoters_9 : hubPart.isHub = true ∧ hubPart.pair.role = .partner ∧ hubPart.pair.chordRenewAt + 30000 ≤ hubPart.htNs := by decide

theorem witness_MirrorAndHandover_1 : hubAlone.pair.chordDownAt = some 0 ∧ hubAlone.isPrimary = true ∧ hubAlone.pair.solo = false ∧ hubAlone.chordUp = [] ∧ 0 + 16384 ≤ hubAlone.htNs := by decide

theorem witness_MirrorAndHandover_2 : (hubPart.takeFlit lkc 1).2 = true ∧ hubPart.params.isChord 288 = true ∧ (hubPart.takeFlit lkc 1).1.chordUp ≠ [] ∧ (hubPart.takeFlit lkc 1).1.pair.role = .partner := by decide

theorem witness_MirrorAndHandover_3 : hubEpoch.isHub = true ∧ hubEpoch.isPrimary = true ∧ hubEpoch.htNs / 1048576 ≠ hubEpoch.scriv.epochAt / 1048576 ∧ hubEpoch.pair.solo = false := by decide

theorem witness_MirrorAndHandover_4 : Here (.pairIsolate hdr0) hubPair ∧ hubPair.pairCheck = none ∧ hubPair.pair.peerRole ≠ .isolated := by decide

theorem witness_MirrorAndHandover_5 : Here (.pairRejoin hdr0) hubIso ∧ hubIso.pairCheck = none ∧ hubIso.pair.peerMirrorVer = hubIso.scriv.mirrorVer := by decide

theorem witness_MirrorAndHandover_6 : Here (.pairHandover hdr0 (hubPair.htNs + 1000000)) hubPair ∧ hubPair.pairCheck = none ∧ hubPair.pair.peerRole = .partner := by decide

theorem witness_MirrorAndHandover_7 : hubHand.pair.handover = some { eff := 7, src := .host 0 } ∧ hubHand.isPrimary = true ∧ 7 ≤ hubHand.htNs ∧ hubHand.coll.chunks = [] := by decide

theorem witness_MirrorAndHandover_8 : Here (.pairRead hdr0) hubPair ∧ hubPair.jm.saves = [] ∧ hubPair.jm.stages = [] := by decide

theorem witness_AttestationAndDebug_1 : Here (.attestEnroll hdr0) hubUp ∧ hubUp.flash.helper = none ∧ hubUp.sec.pufOn = true := by decide

theorem witness_AttestationAndDebug_2 : Here (.attestReport hdr0 1 2) hubAtt ∧ hubAtt.sec.keysValid = true := by decide

theorem witness_AttestationAndDebug_3 : Here (.attestCertLoad hdr0 8192 (.ok (1, true))) hubAtt ∧ hubAtt.sec.keysValid = true := by decide

theorem witness_AttestationAndDebug_4 : Here (.attestCertRead hdr0) hubAtt ∧ hubAtt.sec.certs = some (3, 0x010203) := by decide

theorem witness_AttestationAndDebug_5 : Here (.debugChallenge hdr0) hubAtt := by decide

theorem witness_AttestationAndDebug_6 : Here (.debugUnlock hdr0 (.ok (token0 hubAtt))) hubAtt ∧ (token0 hubAtt).licHash = hubAtt.params.licRootHash ∧ (token0 hubAtt).deviceId = hubAtt.deviceId ∧ hubAtt.sec.challenge = some (token0 hubAtt).challenge := by refine ⟨?_, rfl, rfl, ?_⟩ <;> decide

theorem witness_DistributedCommands_1 : (leafMan.takeFlit lkz 1).2 = true ∧ (leafMan.takeFlit lkz 1).1.isHub = false ∧ ((leafMan.takeFlit lkz 1).1.port 0).up = true ∧ (leafMan.takeFlit lkz 1).1.params.isDown 0 = false ∧ ((leafMan.takeFlit lkz 1).1.distApply ((leafMan.takeFlit lkz 1).1.params.isUp 0) (.barrierDefine 1 1 { bar0 with arriveId := 0 })).toBool = true := by decide

theorem witness_DistributedCommands_2 : (hubDist.takeFlit lk3 1).2 = true ∧ ((hubDist.takeFlit lk3 1).1.port 3).up = true ∧ (hubDist.takeFlit lk3 1).1.scriv.dists = [{ id := 7, cmd := .htStep 1 2000000, src := .host 0, waiting := [3], deadline := some 5 }] := by decide

theorem witness_DistributedCommands_3 : Here (.cmdHtStep hdr0r false (-5) (hubUp.htNs + 10000000)) hubUp ∧ hubUp.isTop = true ∧ (0 : Int) ≤ ((hubUp.htNs + 10000000 : Nat) : Int) + -5 ∧ ((hubUp.htNs + 10000000 : Nat) : Int) + -5 < 2 ^ 62 := by decide

theorem witness_DistributedCommands_4 : hubDist.scriv.dists.map (fun d => d.deadline) = [some 5] ∧ 5 ≤ hubDist.htNs := by decide

theorem witness_Mailboxes_1 : leafUp.mailboxAt (some 7) 0 = some 7 ∧ (leafUp.mb 7).state = 0 := by decide

theorem witness_Mailboxes_2 : leafMb.mailboxAt (some 0) 0 = some 0 ∧ (leafMb.mb 0).state = 1 := by decide

theorem witness_Mailboxes_3 : leafMb.mailboxAt (some 1) 0 = some 1 ∧ (leafMb.mb 1).state = 3 := by decide

theorem witness_Mailboxes_4 : leafMb.scriv.order = [0] ∧ leafMb.scriv.restarting = false ∧ leafMb.scriv.accepting = true ∧ leafMb.runningMbs.length < 16 ∧ 3 ≤ leafMb.boot.stage ∧ headOk (copyBytes (leafMb.mb 0).copy) = true := by decide

theorem witness_Mailboxes_5 : leafMbBad.scriv.order = [0] ∧ leafMbBad.scriv.restarting = false ∧ leafMbBad.scriv.accepting = true ∧ leafMbBad.runningMbs.length < 16 ∧ 3 ≤ leafMbBad.boot.stage ∧ leafMbBad.boot.stage ≠ 8 ∧ headOk (copyBytes (leafMbBad.mb 0).copy) = false := by decide

theorem witness_Mailboxes_6 : (hubPair.takeFlit lk3 1).2 = true ∧ (hubPair.takeFlit lk3 1).1.isHub = true ∧ ((hubPair.takeFlit lk3 1).1.port 3).up = true ∧ (hubPair.takeFlit lk3 1).1.isPrimary = true := by decide

theorem witness_Mailboxes_7 : (hubFwd.takeFlit lk3 1).2 = true ∧ ((hubFwd.takeFlit lk3 1).1.scriv.fwds.find? (fun f => f.src == .host 0 && f.seq == 5)).isSome = true := by decide

theorem witness_Mailboxes_8 : hubFwd.scriv.fwds.map (fun f => (f.src, f.sentAt)) = [(.host 0, 0)] ∧ 0 + 100000000 ≤ hubFwd.htNs := by decide

theorem witness_ScrivenerFaultsAndFirmware_1 : leafFw.scriv.restarting = false ∧ 3 ≤ leafFw.boot.stage ∧ leafFw.recovery = false ∧ leafFw.scriv.watchdog + 10000000 ≤ leafFw.htNs := by decide

theorem witness_ScrivenerFaultsAndFirmware_3 : leafRestart.scriv.restarting = true ∧ leafRestart.scriv.act = none ∧ leafRestart.imageAt 0 leafRestart.flash.boot.fwActive = some img0 := by decide

theorem witness_ScrivenerFaultsAndFirmware_4 : Here (.cmdFwStage hdr0 0 160 (.ok img0)) leafUp ∧ leafUp.scriv.act = none ∧ imgRange img0.hdr 0 160 = true ∧ leafUp.scriv.minSvn ≤ img0.hdr.svn := by decide

theorem witness_ScrivenerFaultsAndFirmware_5 : Here (.cmdFwActivate hdr0 0 (leafFw.htNs + 1000000)) leafFw ∧ leafFw.isHub = false ∧ leafFw.recovery = false ∧ leafFw.scriv.staged.contains 0 = true ∧ leafFw.imageAt 0 (1 - leafFw.flash.boot.active 0) = some img0 ∧ leafFw.scriv.act = none := by decide

theorem witness_ScrivenerFaultsAndFirmware_6 : leafAct.scriv.act = some { kind := 0, eff := 7, src := .host 0 } ∧ 7 ≤ leafAct.htNs ∧ leafAct.scriv.restarting = false ∧ leafAct.runningMbs = [] := by decide

theorem witness_ScrivenerFaultsAndFirmware_7 : leafActRun.scriv.act = some { kind := 0, eff := 7, src := .host 0, effective := true } ∧ leafActRun.scriv.restarting = false ∧ 7 + 1000000000 ≤ leafActRun.htNs := by decide

theorem witness_ScrivenerFaultsAndFirmware_8 : gate { opcode := 0x0507, leaf := false } { hdr0 with guard := some (9, 64) } hubJm = none ∧ route hubJm { opcode := 0x0507, leaf := false } { hdr0 with guard := some (9, 64) } = .here ∧ (hdr0.param = .ok ()) := by decide

theorem witness_ResetsAndStartUp_2 : leafBoot.boot.stage = 0 ∧ leafBoot.scriv.restarting = false ∧ cfgOk (some cfgImg) = true ∧
    (((leafBoot.resumeSeq.formKeys true).loadFw 0).bind (fun s2 => s2.loadCfg.map (fun s3 =>
      let s4 := (({ s3 with boot := { s3.boot with stage := 3, stage3At := leafBoot.htNs } } : State).restore).settleUnits
      s4.sec.ownerValid && !s4.isHub))) = some true := by decide +kernel

theorem witness_ResetsAndStartUp_3 : hubSoloStart.isTop = true ∧ hubSoloStart.boot.cfg.pos = 0 ∧ hubSoloStart.boot.stage = 5 ∧ hubSoloStart.time.valid = false ∧ hubSoloStart.boot.stage3At + 2000000000 ≤ hubSoloStart.htNs ∧ coldHt hubSoloStart.flash.checkpoint < 2 ^ 62 ∧ hubSoloStart.chordTime = [] := by decide

theorem witness_ResetsAndStartUp_4 : leafFw.flash.boot.trial = true ∧ leafFw.scriv.restarting = false ∧ leafFw.scriv.restartAt + 600000000000 ≤ leafFw.htNs ∧ 3 ≤ leafFw.boot.stage ∧ leafFw.boot.stage ≠ 8 := by decide

theorem witness_RegisterPort_3 : hubUp.isHub = true := by decide

theorem witness_RegisterPort_4 : (leafFifo.tdcCh 7).fifo = [(80, 2), (160, 0)] := by decide

theorem witness_RegisterPort_7 : leafFifo.flt.notices = [{ event := 0x0502, unit := 3, port := 1, self := false, seqLo := 9 }] := by decide

theorem witness_RegisterPort_8 : regAt leafUp.params 0x20004 = some .irqEn ∧ leafUp.regRight .irqEn 0 = true ∧ (leafUp.putOwn .irqEn 0 0).isNone = true := by decide

theorem witness_RegisterPort_8b : leafUp.regRight .irqEn 1 = false ∧ regAt leafUp.params 0x20002 = none := by decide

theorem witness_RegisterPort_9 : (leafUp.time.ev.get {} 3).last = none := by decide

theorem witness_StepTakesTheFrontCommand_2 : State.reset.pending = [] := by decide

theorem witness_ConfigurationIsFixed_1 : (match step (State.reset.withPending [.blockReset]) with | .next t => t.params == State.reset.params | _ => false) = true := by decide

theorem witness_ErrorResponsesCarryZero_1 : State.reset.RgOk ∧ (match step (State.reset.withPending [.registerWrite 1 0 0]) with | .next t => t.rg.err | _ => false) = true := by
  constructor
  · unfold Machine.State.RgOk; decide
  · decide

theorem witness_UnlockedBlocksHoldNoKey_1 : hubUnlocked.sec.unlocked = true ∧ hubUnlocked.KeyOk ∧ (match step (hubUnlocked.withPending [.attestEnroll hdr0]) with | .next t => t.sec.unlocked | _ => false) = true := by
  refine ⟨by decide, ?_, by decide⟩
  unfold Machine.State.KeyOk; decide

theorem witness_UnlockedBlocksHoldNoKey_2 : (hubUnlocked.withPending [.blockReset]).pending.head? ≠ some .powerOnReset ∧ (hubUnlocked.withPending [.blockReset]).KeyOk ∧ (hubUnlocked.withPending [.blockReset]).sec.unlocked = true ∧ (match step (hubUnlocked.withPending [.blockReset]) with | .next t => t.sec.unlocked | _ => false) = true := by
  refine ⟨by decide, ?_, by decide, by decide⟩
  unfold Machine.State.KeyOk; decide

theorem witness_CommandsFailTheirChecks_1 : (cmdOf (.attestEnroll hdrTag) hubUp).isSome = true ∧ (gate { opcode := 0x0803, read := true, flash := true } hdrTag hubUp) = some .auth := by decide

theorem witness_CommandsFailTheirChecks_2 : cmdOf (.attestEnroll hdr0r) leafUp = some ({ opcode := 0x0803, read := true, flash := true }, hdr0r) ∧ gate { opcode := 0x0803, read := true, flash := true } hdr0r leafUp = none ∧ route leafUp { opcode := 0x0803, read := true, flash := true } hdr0r = .up := by decide

theorem witness_CommandsFailTheirChecks_2b : cmdOf (.cmdRefConfig hdr0 {}) hubPartner = some ({ opcode := 0x0102, leaf := false, mirrored := true }, hdr0) ∧ gate { opcode := 0x0102, leaf := false, mirrored := true } hdr0 hubPartner = none ∧ route hubPartner { opcode := 0x0102, leaf := false, mirrored := true } hdr0 = .chord := by decide

theorem witness_CommandsFailTheirChecks_3 : cmdOf (.attestCertLoad hdr0r 64 .err) leafUp = some ({ opcode := 0x0803, read := true, flash := true }, hdr0r) ∧ gate { opcode := 0x0803, read := true, flash := true } hdr0r leafUp = none ∧ (route leafUp { opcode := 0x0803, read := true, flash := true } hdr0r).forwards = true ∧
    (readFailed leafUp (bothReads hdr0r.param (ownRead (.attestCertLoad hdr0r 64 .err)))).map (·.2) = some .range := by decide

theorem witness_RegisterReadsAndRights_1 : regAt leafUp.params 1 = none ∧ regAt leafUp.params 0x20004 = some .irqEn ∧ leafUp.regRight .irqEn 1 = false ∧ leafUp.regRight .irqEn 0 = true ∧ leafUp.readFails .irqEn 0 = false := by decide

theorem witness_RegisterReadsAndRights_2 : leafUp.regClass .irqEn = .op ∧ leafUp.regClass (.irqCtx 3) = .slot 3 := by decide

theorem witness_LedgerAddsExactly_1 : termA.addend = true ∧ elemA.limbs.length = 10 ∧ limbsWithin 126 elemA.limbs = true := by decide +kernel

theorem witness_LedgerAddsExactly_2 : limbsWithin 127 [0x7E00000001#40, 5#40] = true ∧ carryStep [0x7E00000001#40, 5#40] = [1#40, 0x83#40] := by decide +kernel

theorem witness_LedgerAddsExactly_3 : ({ kind := .nan } : Term).kind ≠ .fin := by decide

theorem witness_LedgerAddsExactly_4 : (decodeTerm 0x3F80 1).m * (decodeTerm 0x4000 1).m < 2 ^ 64 ∧ (mulTerm (decodeTerm 0x3F80 1) (decodeTerm 0x4000 1)).1.kind = .fin := by decide

theorem witness_LedgerCanonicalForm_1 : elemA.limbs.length = 10 ∧ limbsWithin 127 elemA.limbs = true := by decide +kernel

theorem witness_LedgerPackedRoundTrip_1 : -(2 : Int) ^ 308 < -3 ∧ (-3 : Int) < 2 ^ 308 ∧ (0x3FFFF#40) = mkFw (fwPinf 0x3FFFF#40) (fwNinf 0x3FFFF#40) (fwNan 0x3FFFF#40) (fwPoison 0x3FFFF#40) := by decide +kernel

theorem witness_LedgerPackedRoundTrip_2 : -(2 : Int) ^ 308 < -257 * 2 ^ 141 ∧ (-257 * 2 ^ 141 : Int) < 2 ^ 308 ∧ (0#40) = mkFw (fwPinf 0#40) (fwNinf 0#40) (fwNan 0#40) (fwPoison 0#40) := by decide +kernel

theorem witness_LedgerOrderDoesNotMatter_1 : elemA.limbs.length = 10 ∧ limbsWithin 1 elemA.limbs = true ∧ [termA, termB, termC].length ≤ 60 ∧ ∀ t ∈ [termA, termB, termC], t.addend = true := by decide +kernel

theorem witness_LedgerOrderDoesNotMatter_2 : [termA, termB, termC].Perm [termC, termB, termA] ∧ elemA.limbs.length = 10 ∧ limbsWithin 1 elemA.limbs = true ∧ [termA, termB, termC].length ≤ 60 ∧ ∀ t ∈ [termA, termB, termC], t.addend = true := by decide +kernel

theorem witness_SymbolCode_1 : (19 : Nat) < 20 := by decide

theorem witness_SymbolCode_2 : (3 : Nat) < 4 ∧ rsEncode (List.replicate 15 0#8 ++ [1#8]) = List.replicate 15 0#8 ++ [1#8, 0x0F#8, 0x36#8, 0x78#8, 0x40#8] := by decide +kernel

theorem witness_SymbolCode_3 : (∀ x ∈ ({ errs := [{ cw := 0, dev := 13, bits := 0xFF#8 }, { cw := 7, dev := 13, bits := 1#8 }] } : JournalErr).errs, x.dev = 13) ∧
    decodeAcc none { errs := [{ cw := 0, dev := 13, bits := 0xFF#8 }, { cw := 7, dev := 13, bits := 1#8 }] } = some [13] := by decide +kernel

theorem witness_SymbolCode_4 : (∀ x ∈ ({ errs := [{ cw := 7, dev := 19, bits := 1#8 }] } : JournalErr).errs, x.dev = 19) ∧ decodeAcc (some 19) { errs := [{ cw := 7, dev := 19, bits := 1#8 }] } = some [] := by decide +kernel

theorem witness_TransfersAreCut_2 : fabricPieces 4 4095 [1, 2, 3] = [(4095, [1])] ++ (4096, [2, 3]) :: [] := by decide

theorem witness_TransfersAreCut_3 : (4096, [2, 3]) ∈ fabricPieces 4 4095 [1, 2, 3] ∧ 0 < ([2, 3] : List Byte).length := by decide

theorem witness_TimeReadPort_1 : 0 < leafUp.params.htPorts := by decide

theorem witness_PayloadKeys_1 : leafPort.childEnd 0 = true := by decide

theorem witness_PayloadKeys_1b : hubBar.childEnd 3 = false := by decide

theorem witness_PayloadKeys_2 : (TxMsg.contribution (key0 1) data0).payload = true ∧ (leafColl.slot (TxMsg.contribution (key0 1) data0).slotGen.1).enc = false := by decide

theorem witness_PayloadKeys_2b : (TxMsg.contribution (key0 1) data0).payload = true ∧ (({ leafColl with ctx := [(1, { open_ := true, lastGen := 1, enc := true })] } : State).slot (TxMsg.contribution (key0 1) data0).slotGen.1).enc = true := by decide

end Sys2Proof.Tests
end

section
/-! What one command and one step can do to the parameters, the queue, the answer of the register interface and the keys: the lemma of
each command (Good) put together over the table of commands. -/

namespace Sys2Proof.Machine

/-- A power-on reset locks an unlocked block and enables its PUF, so that it is the one command that keeps only `Weak` (R474). -/
theorem execPowerOnReset_weak (s : State) : ∃ t, execPowerOnReset s = .next t ∧ Weak s t := by
  obtain ⟨⟨hparams, hpending, hrg, _⟩, _⟩ := afterReset_good s
  exact ⟨_, rfl, hparams, hpending, hrg, fun _ hunlocked => Bool.noConfusion hunlocked⟩

/-- Every command but a power-on reset answers a next state that keeps the parameters, the queue, a well-formed answer, and an
unlocked block unlocked and without a key. -/
theorem exec_good {i : Instr} (hi : i ≠ .powerOnReset) (s : State) : GoodOut s (exec i s) := by
  cases i with
  | powerOnReset => exact absurd rfl hi
  | blockReset => exact execBlockReset_good s
  | startUp pufOk journalOk badChannels => exact execStartUp_good pufOk journalOk badChannels s
  | soloStartTimeout => exact execSoloStartTimeout_good s
  | fwTrialClear => exact execFwTrialClear_good s
  | htCheckpoint => exact execHtCheckpoint_good s
  | synLockFall => exact execSynLockFall_good s
  | synLockRestored => exact execSynLockRestored_good s
  | ocxoLoss => exact execOcxoLoss_good s
  | ocxoWarmChange level => exact execOcxoWarmChange_good level s
  | ocxoSettleExpiry => exact execOcxoSettleExpiry_good s
  | refLoss n => exact execRefLoss_good n s
  | xsStatusMessage bytes => exact execXsStatusMessage_good bytes s
  | statusMessageTimeout => exact execStatusMessageTimeout_good s
  | qlTimeout n => exact execQlTimeout_good n s
  | tempTimeout => exact execTempTimeout_good s
  | waitToRestoreExpiry n => exact execWaitToRestoreExpiry_good n s
  | disputeClear n m => exact execDisputeClear_good n m s
  | lockCriteriaMet => exact execLockCriteriaMet_good s
  | unlockCriteriaMet => exact execUnlockCriteriaMet_good s
  | learningBinEnd meanTemp => exact execLearningBinEnd_good meanTemp s
  | modelFlashWrite => exact execModelFlashWrite_good s
  | holdoverLimitExpiry => exact execHoldoverLimitExpiry_good s
  | openLoopTimeout => exact execOpenLoopTimeout_good s
  | cmdTaiMap h ofs utc leap eff => exact execCmdTaiMap_good h ofs utc leap eff s
  | taiMapApply => exact execTaiMapApply_good s
  | taiMapReceive l m => exact execTaiMapReceive_good l m s
  | cmdRefConfig h c => exact execCmdRefConfig_good h c s
  | cmdRefReport h r => exact execCmdRefReport_good h r s
  | cmdDpllMode h mode ref => exact execCmdDpllMode_good h mode ref s
  | cmdDpllFcw h fcw status => exact execCmdDpllFcw_good h fcw status s
  | holdoverModelRead h => exact execHoldoverModelRead_good h s
  | holdoverModelLoad h m => exact execHoldoverModelLoad_good h m s
  | holdoverModelClear h => exact execHoldoverModelClear_good h s
  | holdoverModelFreeze h => exact execHoldoverModelFreeze_good h s
  | holdoverModelResume h => exact execHoldoverModelResume_good h s
  | tdcEdgeAccept ch rising held stamp => exact execTdcEdgeAccept_good ch rising held stamp s
  | holdoffEnd ch level => exact execHoldoffEnd_good ch level s
  | tdcGateEnd ch => exact execTdcGateEnd_good ch s
  | tdcAnchorLatch => exact execTdcAnchorLatch_good s
  | cmdTdcConfig h ch c => exact execCmdTdcConfig_good h ch c s
  | cmdTdcCal h ch po path count => exact execCmdTdcCal_good h ch po path count s
  | tdcCalComplete => exact execTdcCalComplete_good s
  | plumbMeasure h a => exact execPlumbMeasure_good h a s
  | plumbComplete => exact execPlumbComplete_good s
  | plumbLoad h port a => exact execPlumbLoad_good h port a s
  | plumbRead h port => exact execPlumbRead_good h port s
  | plumbClearSuspect h port => exact execPlumbClearSuspect_good h port s
  | cmdTsrcConfig h mode slope recSlope => exact execCmdTsrcConfig_good h mode slope recSlope s
  | cmdHtStep h load value eff => exact execCmdHtStep_good h load value eff s
  | htStepApply => exact execHtStepApply_good s
  | htStepArmingDeadline => exact execHtStepArmingDeadline_good s
  | portBringUpStart p => exact execPortBringUpStart_good p s
  | bringUpFlitReceive p ident => exact execBringUpFlitReceive_good p ident s
  | keyExchangeStart p => exact execKeyExchangeStart_good p s
  | keyExchangeReceive p x peerPassed => exact execKeyExchangeReceive_good p x peerPassed s
  | phyDown p => exact execPhyDown_good p s
  | timingFlitSend p k => exact execTimingFlitSend_good p k s
  | timingFlitReceive l b sample n k => exact execTimingFlitReceive_good l b sample n k s
  | controlFlitReceive l slot gen body => exact execControlFlitReceive_good l slot gen body s
  | corruptFlitReceive p raw codewordOk tagOk corr => exact execCorruptFlitReceive_good p raw codewordOk tagOk corr s
  | portNoFlitTimeout p => exact execPortNoFlitTimeout_good p s
  | portTimingLoss p => exact execPortTimingLoss_good p s
  | servoUpdate => exact execServoUpdate_good s
  | rttEstimateUpdate p => exact execRttEstimateUpdate_good p s
  | docketPushWord q w v access => exact execDocketPushWord_good q w v access s
  | docketPushCommit q v access => exact execDocketPushCommit_good q v access s
  | docketEntryReady q => exact execDocketEntryReady_good q s
  | docketStrike q => exact execDocketStrike_good q s
  | docketFlush q access => exact execDocketFlush_good q access s
  | docketResume q access => exact execDocketResume_good q access s
  | docketBind h q o paired => exact execDocketBind_good h q o paired s
  | docketLoad h q o entries count replace => exact execDocketLoad_good h q o entries count replace s
  | docketUnbind h q o => exact execDocketUnbind_good h q o s
  | frameStrikeArm c v access => exact execFrameStrikeArm_good c v access s
  | frameDirectStrike c => exact execFrameDirectStrike_good c s
  | pulseEdge n => exact execPulseEdge_good n s
  | pulseWidthEnd n => exact execPulseWidthEnd_good n s
  | cmdPulseConfig h a => exact execCmdPulseConfig_good h a s
  | cmdPulseAlign h mask eff => exact execCmdPulseAlign_good h mask eff s
  | pulseAlignApply n => exact execPulseAlignApply_good n s
  | syncSet ctx vid v => exact execSyncSet_good ctx vid v s
  | syncAdd ctx vid v => exact execSyncAdd_good ctx vid v s
  | syncSubtract ctx vid v => exact execSyncSubtract_good ctx vid v s
  | syncReadIncrement page ctx vid => exact execSyncReadIncrement_good page ctx vid s
  | syncUpdateApply phys => exact execSyncUpdateApply_good phys s
  | waitRequest r => exact execWaitRequest_good r s
  | waitTimeout w => exact execWaitTimeout_good w s
  | waitCancel w access => exact execWaitCancel_good w access s
  | syncMap h first count counter saturate => exact execSyncMap_good h first count counter saturate s
  | syncUnmap h first count => exact execSyncUnmap_good h first count s
  | syncMapRead h first count => exact execSyncMapRead_good h first count s
  | syncSetMode h first count counter saturate => exact execSyncSetMode_good h first count counter saturate s
  | syncPairDefine h producer consumer n => exact execSyncPairDefine_good h producer consumer n s
  | syncPairDelete h producer consumer => exact execSyncPairDelete_good h producer consumer s
  | contextClear slot => exact execContextClear_good slot s
  | contextClearComplete slot => exact execContextClearComplete_good slot s
  | paneClearAfterTeardown tile pane => exact execPaneClearAfterTeardown_good tile pane s
  | slotResetComplete slot => exact execSlotResetComplete_good slot s
  | cmdBarrierDefine h d => exact execCmdBarrierDefine_good h d s
  | cmdBarrierDelete h id => exact execCmdBarrierDelete_good h id s
  | barrierArrivalReceive l slot gen id inst pairD => exact execBarrierArrivalReceive_good l slot gen id inst pairD s
  | barrierReleaseReceive l slot gen id inst strike => exact execBarrierReleaseReceive_good l slot gen id inst strike s
  | barrierReleaseFire => exact execBarrierReleaseFire_good s
  | collPlanOpen h addr desc w => exact execCollPlanOpen_good h addr desc w s
  | collPlanClose h handle => exact execCollPlanClose_good h handle s
  | cmdCollBind h handle src => exact execCmdCollBind_good h handle src s
  | collStart ctx v => exact execCollStart_good ctx v s
  | collQuery ctx v => exact execCollQuery_good ctx v s
  | chunkSend slot handle chunk => exact execChunkSend_good slot handle chunk s
  | contributionFlitReceive l k d fail => exact execContributionFlitReceive_good l k d fail s
  | chunkMap k => exact execChunkMap_good k s
  | spillReloadComplete k uncorrectable => exact execSpillReloadComplete_good k uncorrectable s
  | contributionNoticeReceive l k code => exact execContributionNoticeReceive_good l k code s
  | drainComplete k fail => exact execDrainComplete_good k fail s
  | resultCopyReceive l r => exact execResultCopyReceive_good l r s
  | resultCopyAck l k => exact execResultCopyAck_good l k s
  | replayRequestReceive l k attempt crcOk => exact execReplayRequestReceive_good l k attempt crcOk s
  | replayMarkReceive l k attempt => exact execReplayMarkReceive_good l k attempt s
  | resultFlitReceive l k d => exact execResultFlitReceive_good l k d s
  | commitMessageReceive l epoch m => exact execCommitMessageReceive_good l epoch m s
  | resultAckReceive l k => exact execResultAckReceive_good l k s
  | fabricReadResponse k addr beat fail => exact execFabricReadResponse_good k addr beat fail s
  | fabricWriteResponse k err => exact execFabricWriteResponse_good k err s
  | cmdClassConfig h pairId radioSlots radioTiles eff => exact execCmdClassConfig_good h pairId radioSlots radioTiles eff s
  | radioSlotsApply => exact execRadioSlotsApply_good s
  | radioTilesApply => exact execRadioTilesApply_good s
  | cmdCtxShape h weight rate burst full => exact execCmdCtxShape_good h weight rate burst full s
  | shaperEligible slot => exact execShaperEligible_good slot s
  | hallmarkBatchClose => exact execHallmarkBatchClose_good s
  | cmdHallmarkRead h first count addr len bad wrErr => exact execCmdHallmarkRead_good h first count addr len bad wrErr s
  | manifestRegister h label file items => exact execManifestRegister_good h label file items s
  | manifestVerify h file items => exact execManifestVerify_good h file items s
  | manifestRead h => exact execManifestRead_good h s
  | fenceTileFence h u => exact execFenceTileFence_good h u s
  | fenceTileUnfence h u => exact execFenceTileUnfence_good h u s
  | fenceTileRead h => exact execFenceTileRead_good h s
  | cmdDaybookRead h first count addr len wrErr => exact execCmdDaybookRead_good h first count addr len wrErr s
  | daybookRecordWrite flashOk => exact execDaybookRecordWrite_good flashOk s
  | faultNoticeReceive l n => exact execFaultNoticeReceive_good l n s
  | journalSelfTest step1Ok badChannels listOk => exact execJournalSelfTest_good step1Ok badChannels listOk s
  | journalRead use page acc e => exact execJournalRead_good use page acc e s
  | scrubRead page acc e => exact execScrubRead_good page acc e s
  | channelFailure c => exact execChannelFailure_good c s
  | dramRefresh c => exact execDramRefresh_good c s
  | mr4Read c doubled => exact execMr4Read_good c doubled s
  | zqCalibration c => exact execZqCalibration_good c s
  | phyUpdateRequest c => exact execPhyUpdateRequest_good c s
  | ledgerSave h handle saveId => exact execLedgerSave_good h handle saveId s
  | ledgerSaveDelete h saveId => exact execLedgerSaveDelete_good h saveId s
  | cmdLedgerResume h saveId handle token bound uncorrectable => exact execCmdLedgerResume_good h saveId handle token bound uncorrectable s
  | journalStageOut h handle setId => exact execJournalStageOut_good h handle setId s
  | journalStageIn h handle setId => exact execJournalStageIn_good h handle setId s
  | journalStageDelete h setId => exact execJournalStageDelete_good h setId s
  | journalRetirePage h page uncorrectable => exact execJournalRetirePage_good h page uncorrectable s
  | journalRetireBank h c b uncorrectable => exact execJournalRetireBank_good h c b uncorrectable s
  | journalRetireMark h c dev => exact execJournalRetireMark_good h c dev s
  | journalRetireUnmark h c dev => exact execJournalRetireUnmark_good h c dev s
  | journalRetireRead h => exact execJournalRetireRead_good h s
  | cmdJournalConfig h hours => exact execCmdJournalConfig_good h hours s
  | patternLoad h p aligned distribute => exact execPatternLoad_good h p aligned distribute s
  | packReceive l p => exact execPackReceive_good l p s
  | patternDelete h slot => exact execPatternDelete_good h slot s
  | patternRead h => exact execPatternRead_good h s
  | testTileRun h u packId => exact execTestTileRun_good h u packId s
  | testTileAbort h u => exact execTestTileAbort_good h u s
  | testComplete u r => exact execTestComplete_good u r s
  | monitorFire tile slack => exact execMonitorFire_good tile slack s
  | stretchIntervalEnd group => exact execStretchIntervalEnd_good group s
  | tallyClockSet h group freq eff => exact execTallyClockSet_good h group freq eff s
  | tallyClockSync h freqs eff => exact execTallyClockSync_good h freqs eff s
  | tallyClockMargin h group margin => exact execTallyClockMargin_good h group margin s
  | tallyClockRead h => exact execTallyClockRead_good h s
  | tallySetEffective group => exact execTallySetEffective_good group s
  | groupQuiesced group => exact execGroupQuiesced_good group s
  | tallySyncEffective => exact execTallySyncEffective_good s
  | cmdPowerSelf h domain set idle => exact execCmdPowerSelf_good h domain set idle s
  | tileAutoIdleOff tile => exact execTileAutoIdleOff_good tile s
  | domainPowerOnComplete domain => exact execDomainPowerOnComplete_good domain s
  | powerPlanLoad h p => exact execPowerPlanLoad_good h p s
  | powerPlanSchedule h q step strike => exact execPowerPlanSchedule_good h q step strike s
  | powerPlanRead h => exact execPowerPlanRead_good h s
  | powerStepStart => exact execPowerStepStart_good s
  | pmAckChange k level => exact execPmAckChange_good k level s
  | powerDelayExpiry => exact execPowerDelayExpiry_good s
  | powerWaitTimeout => exact execPowerWaitTimeout_good s
  | leaseRenewalSend => exact execLeaseRenewalSend_good s
  | leaseRenewalReceive l f => exact execLeaseRenewalReceive_good l f s
  | leaseClaimReceive l f => exact execLeaseClaimReceive_good l f s
  | leaseReleaseReceive l f => exact execLeaseReleaseReceive_good l f s
  | leaseConfirmationReceive l f => exact execLeaseConfirmationReceive_good l f s
  | leaseRefusalReceive l g f => exact execLeaseRefusalReceive_good l g f s
  | leaseLapse => exact execLeaseLapse_good s
  | chordRenewalTimeout => exact execChordRenewalTimeout_good s
  | leaseClaimSend => exact execLeaseClaimSend_good s
  | chordDownSolo => exact execChordDownSolo_good s
  | mirrorFlitReceive l m => exact execMirrorFlitReceive_good l m s
  | epochRecordClose peer => exact execEpochRecordClose_good peer s
  | pairIsolate h => exact execPairIsolate_good h s
  | pairRejoin h => exact execPairRejoin_good h s
  | pairHandover h eff => exact execPairHandover_good h eff s
  | handoverEffective => exact execHandoverEffective_good s
  | pairRead h => exact execPairRead_good h s
  | attestEnroll h => exact execAttestEnroll_good h s
  | attestReport h nonce userData => exact execAttestReport_good h nonce userData s
  | attestCertLoad h len chain => exact execAttestCertLoad_good h len chain s
  | attestCertRead h => exact execAttestCertRead_good h s
  | cmdCtxOpen h a => exact execCmdCtxOpen_good h a s
  | contextMessageReceive l m => exact execContextMessageReceive_good l m s
  | cmdCtxClose h => exact execCmdCtxClose_good h s
  | debugChallenge h => exact execDebugChallenge_good h s
  | debugUnlock h t => exact execDebugUnlock_good h t s
  | mailboxGo m access => exact execMailboxGo_good m access s
  | mailboxAbort m access => exact execMailboxAbort_good m access s
  | mailboxDoneClear m access => exact execMailboxDoneClear_good m access s
  | mailboxAccept => exact execMailboxAccept_good s
  | forwardedCommandReceive l block m seq tier opcode mirrored bytes resent => exact execForwardedCommandReceive_good l block m seq tier opcode mirrored bytes resent s
  | forwardResponseReceive l src seq code results => exact execForwardResponseReceive_good l src seq code results s
  | forwardTimeout src => exact execForwardTimeout_good src s
  | distributionReceive l id d => exact execDistributionReceive_good l id d s
  | distributionAckReceive l id code info => exact execDistributionAckReceive_good l id code info s
  | watchdogExpiry => exact execWatchdogExpiry_good s
  | sramDoubleError => exact execSramDoubleError_good s
  | badFetch => exact execBadFetch_good s
  | scrivenerRestartComplete stagedOk => exact execScrivenerRestartComplete_good stagedOk s
  | cmdFwStage h kind len img => exact execCmdFwStage_good h kind len img s
  | cmdFwActivate h kind eff => exact execCmdFwActivate_good h kind eff s
  | fwActivateEffective => exact execFwActivateEffective_good s
  | htLoRead => exact execHtLoRead_good s
  | taiOfsLoRead => exact execTaiOfsLoRead_good s
  | fcwLoRead access => exact execFcwLoRead_good access s
  | tdcStampLoRead ch access => exact execTdcStampLoRead_good ch access s
  | hmSeqLoRead access => exact execHmSeqLoRead_good access s
  | dbSeqLoRead access => exact execDbSeqLoRead_good access s
  | noticeRead access => exact execNoticeRead_good access s
  | registerWrite addr v access => exact execRegisterWrite_good addr v access s
  | htEvEdge c => exact execHtEvEdge_good c s
  | temperatureExcursion temp => exact execTemperatureExcursion_good temp s
  | ocxoClockReturn => exact execOcxoClockReturn_good s
  | sramSingleBitError => exact execSramSingleBitError_good s
  | phasePullEnd => exact execPhasePullEnd_good s
  | frequencySlewEnd => exact execFrequencySlewEnd_good s
  | paneSpillComplete k => exact execPaneSpillComplete_good k s
  | domainPowerOffComplete domain => exact execDomainPowerOffComplete_good domain s
  | activationCommandWaitExpiry => exact execActivationCommandWaitExpiry_good s

/-- Every command answers a next state that keeps the parameters, the queue and a well-formed answer, and gives no key to an unlocked
block. -/
theorem exec_weak (i : Instr) (s : State) : ∃ t, exec i s = .next t ∧ Weak s t := by
  by_cases hi : i = .powerOnReset
  · subst hi
    exact execPowerOnReset_weak s
  · obtain ⟨t, ht, hgood⟩ := exec_good hi s
    exact ⟨t, ht, hgood.1⟩

/-- Everything that a step can do: on an empty queue a tick, which touches nothing of `kept`; otherwise the front command runs on the
rest of the queue, and keeps what every command keeps. -/
theorem step_next {s t : State} (h : step s = .next t) :
    (s.pending = [] ∧ t.kept = s.kept) ∨
      ∃ i r, s.pending = i :: r ∧ exec i (s.withPending r) = .next t ∧ Weak (s.withPending r) t := by
  cases hq : s.pending with
  | nil => exact .inl ⟨rfl, tick_kept (by simpa only [step, hq] using h)⟩
  | cons i r =>
    rw [step_cons hq] at h
    obtain ⟨u, hu, hweak⟩ := exec_weak i (s.withPending r)
    obtain rfl : u = t := by simpa [hu] using h
    exact .inr ⟨i, r, rfl, hu, hweak⟩

/-- No step changes the integration parameters (R3). -/
theorem step_params {s t : State} (h : step s = .next t) : t.params = s.params := by
  obtain ⟨_, hkept⟩ | ⟨_, _, _, _, hweak⟩ := step_next h
  · exact congrArg Prod.fst hkept
  · exact hweak.1

end Sys2Proof.Machine
end

section
/-! What a read of DX_VERSION and of DX_CONFIG returns (Table 22.2): public registers that no rule of their own refuses. -/

namespace Sys2Proof.Machine

/-- A read of a public register that no rule of its own refuses returns its value. -/
theorem regRead_of_pub {s : State} {a access : Nat} {r : Reg} (hat : regAt s.params a = some r) (hpub : s.regClass r = .pub)
    (hread : s.readFails r access = false) : s.regRead a access = (s.regVal r access, false) := by
  simp [State.regRead, hat, State.regRight, hpub, hread]

@[simp] theorem regAt_version (p : Params) : regAt p 4 = some .version := rfl
@[simp] theorem regAt_config (p : Params) : regAt p 8 = some .config := rfl

/-- Of the groups of registers only the first gives DX_VERSION and DX_CONFIG a value. -/
theorem regVal_eq_regVal0 {r : Reg} (hr : r = .version ∨ r = .config) (s : State) (access : Nat) : s.regVal r access = s.regVal0 r access := by
  rcases hr with rfl | rfl <;>
    simp [State.regVal, State.regVal2, State.regVal4, State.regVal6, State.regVal9, State.regValD, State.regValP]

@[simp] theorem regVal_version (s : State) (access : Nat) : s.regVal .version access = 0x00030002 := by
  rw [regVal_eq_regVal0 (.inl rfl), State.regVal0]

@[simp] theorem regVal_config (s : State) (access : Nat) : s.regVal .config access = BitVec.ofNat 32 s.params.dxConfig := by
  rw [regVal_eq_regVal0 (.inr rfl), State.regVal0]

/-- R1: what a read of DX_VERSION returns. -/
theorem regRead_version (s : State) (access : Nat) : s.regRead 4 access = (0x00030002, false) := by
  rw [regRead_of_pub (regAt_version _) rfl rfl, regVal_version]

/-- R3: what a read of DX_CONFIG returns. -/
theorem regRead_config (s : State) (access : Nat) : s.regRead 8 access = (BitVec.ofNat 32 s.params.dxConfig, false) := by
  rw [regRead_of_pub (regAt_config _) rfl rfl, regVal_config]

end Sys2Proof.Machine
end

section
namespace Sys2Proof.Machine

/-- Settles O44: each command keeps the parameters, a tick does too, and DX_CONFIG reads nothing else. -/
theorem configurationIsFixed : Obligations.ConfigurationIsFixed := by
  unfold Obligations.ConfigurationIsFixed
  refine ⟨fun s s' h => step_params h, fun s s' access h => ⟨regRead_config s access, ?_⟩⟩
  rw [regRead_config, regRead_config, step_params h]

/-- Settles O45, command by command. -/
theorem everyCommandCompletes : Obligations.EveryCommandCompletes := by
  unfold Obligations.EveryCommandCompletes
  intro i s
  obtain ⟨t, ht, hparams, hpending, _⟩ := exec_weak i s
  exact ⟨t, ht, hparams, hpending⟩

/-- Settles O43: DX_VERSION is a public register, and a constant. -/
theorem versionRegister : Obligations.VersionRegister := by
  unfold Obligations.VersionRegister
  refine ⟨regRead_version, fun s access => ?_⟩
  rw [regRead_version]
  decide

end Sys2Proof.Machine
end

section
/-! Hall Time at its ports and the TAI mapping (chapter 2), the synthesiser's lock (R503) and the messages of REF2 (R65, R66): what the
advance of a tick and each command answers in each of its cases. -/

namespace Sys2Proof.Machine

/-! ## Time (R35, R46, R47) -/

/-- R46: a port that the block has. -/
theorem htPort_of_lt {s : State} {r : Nat} (hr : r < s.params.htPorts) :
    s.htPort r = some (s.htNs, s.time.ht48 / 2 ^ 32 % 65536, s.time.valid, s.time.stepCnt) := if_pos hr

/-- R46: a port that the block does not have. -/
theorem htPort_of_le {s : State} {r : Nat} (hr : s.params.htPorts ≤ r) : s.htPort r = none := if_neg (Nat.not_lt.mpr hr)

/-- R35: the advance of a tick takes the greater of HT and its new value. -/
theorem le_advance_ht48 (s : State) : s.time.ht48 ≤ s.advance.time.ht48 := Nat.le_max_left _ _

@[simp] theorem advance_valid (s : State) : s.advance.time.valid = s.time.valid := rfl
@[simp] theorem advance_stepCnt (s : State) : s.advance.time.stepCnt = s.time.stepCnt := rfl

/-! ## The TAI mapping (R49, R50) -/

/-- R50: a mapping before its effective HT waits, in place of one that waited. -/
theorem takeMap_of_lt {s : State} {m : TaiMap} (heff : s.htNs < m.eff) : s.takeMap m = { s with time := { s.time with pend := some m } } :=
  if_pos heff

/-- R49: a mapping that leaves OFS as it is moves no phase and no output; in a Leaf no selection follows. -/
theorem applyMap_of_sameOfs {s : State} {m : TaiMap} (hofs : m.ofs = s.time.ofs) (hleaf : s.isHub = false) :
    s.applyMap m = { s with
      time := { s.time with utc := m.utc, leap := m.leap, taiValid := true, seq := (s.time.seq + 1) % 65536, pend := none }
      irq := { s.irq with taiApplied := true } } := by
  have hhub : s.params.hub = false := hleaf
  simp [State.applyMap, State.isHub, hofs, hhub]

/-- R49: at its effective HT the pending mapping comes into force. -/
theorem execTaiMapApply_due {s : State} {m : TaiMap} (hpend : s.time.pend = some m) (heff : m.eff ≤ s.htNs) :
    execTaiMapApply s = .next (s.applyMap m) := by
  simp [execTaiMapApply, hpend, heff]

/-- R49, R50: below the top pair a mapping from above is taken, mirrored and handed down. -/
theorem execTaiMapReceive_taken {s t : State} {l : Link} {m : TaiMap} (hup : s.params.isUp l.port = true) (htake : s.takeFlit l 1 = (t, true))
    (htop : t.isTop = false) : execTaiMapReceive l m s = .next (((t.takeMap m).mirror (.taiMap (some m))).mapDown m) := by
  simp [execTaiMapReceive, State.receivedIf_done htake hup, htop]

/-! ## The synthesiser and REF2 -/

/-- R503: the lock counts again 1,000,000 ns after the last fall. -/
theorem execSynLockRestored_due {s : State} {t : HT} (hback : s.time.synBack = some t) (hdue : t + 1000000 ≤ s.htNs) :
    execSynLockRestored s = .next ({ s with time := { s.time with synLock := true, synLost := false, synBack := none } }).refreshWord := by
  simp [execSynLockRestored, hback, hdue]

/-- R66: a malformed message. -/
theorem execXsStatusMessage_malformed {s : State} {l : List Byte} (htop : s.isTop = true) (hbad : xsOk l = false) :
    execXsStatusMessage l s = .next (s.hist 19) := by
  simp [execXsStatusMessage, htop, hbad]

/-- R65: a message that says that the time is valid and the receiver without fault sets the rank of its quality level; it gives no mapping before
the first pulse. -/
theorem execXsStatusMessage_ranked {s : State} {l : List Byte} (htop : s.isTop = true) (hok : xsOk l = true) (hvalid : fieldAt l 11 1 % 2 = 1)
    (hfault : fieldAt l 11 1 / 2 ≠ 1) (heql : fieldAt l 4 1 = 0xFF) (hpps : (s.ref 2).lastPps = 0) :
    execXsStatusMessage l s = .next
      ((({ s with dpll := { s.dpll with lastMsg := s.htNs, msgSec := some (fieldAt l 5 6, s.htNs), msgBad := false } }).setRank 2
        (rankOf ((s.dpll.cfg.ssmII[2]?).getD false) { ssm := fieldAt l 3 1 % 16, eql := none })).reselect) := by
  have hfault' : (fieldAt l 11 1 / 2 == 1) = false := beq_false_of_ne hfault
  simp [execXsStatusMessage, htop, hok, hvalid, hfault', heql, hpps]

end Sys2Proof.Machine
end

section
/-! Register accesses that act (chapters 21 and 22): what each answers where the access has the right to it. -/

namespace Sys2Proof.Machine

/-! ## Reads that latch (R43, R535, R537) -/

/-- Table 3.9. -/
theorem execFcwLoRead_operator {s : State} (hhub : s.isHub = true) :
    execFcwLoRead 0 s =
      .next (({ s with dpll := { s.dpll with shFcwHi := BitVec.ofInt 32 (s.dpll.fcw / 2 ^ 32) } } : State).answer (BitVec.ofInt 32 s.dpll.fcw) false) := by
  simp [execFcwLoRead, hhub]

/-- Table 4.5: with a raw stamp in the FIFO. -/
theorem execTdcStampLoRead_cons {s : State} {c st w : Nat} {r : List (Nat × Nat)} (hc : c < 8) (hfifo : (s.tdcCh c).fifo = (st, w) :: r) :
    execTdcStampLoRead c 0 s =
      .next ((s.modTdc c (fun t => { t with fifo := r, shHi := fields [(st % 8, 0), (w, 3), (r.length, 8)] })).answer (BitVec.ofNat 32 (st / 8)) false) := by
  simp [execTdcStampLoRead, hfifo, Nat.not_le.mpr hc]

/-- Table 12.9. -/
theorem execHmSeqLoRead_operator {s : State} (hhub : s.isHub = true) :
    execHmSeqLoRead 0 s =
      .next (({ s with hm := { s.hm with shSeqHi := BitVec.ofNat 32 ((s.hm.nextSeq - 1) / 2 ^ 32) } } : State).answer
        (BitVec.ofNat 32 (s.hm.nextSeq - 1)) false) := by
  simp [execHmSeqLoRead, hhub]

/-- R535: with a notice in the queue. -/
theorem execNoticeRead_cons {s : State} {e : NoticeEntry} {r : List NoticeEntry} (hnotices : s.flt.notices = e :: r) :
    execNoticeRead 0 s =
      .next (({ s with flt := { s.flt with
          notices := r, shN1 := fields [(if e.self then 0 else e.port, 0), (b2n e.self, 9), (r.length, 11)], shN2 := BitVec.ofNat 32 e.seqLo } } : State).answer
        (fields [(e.event, 0), (e.unit, 16)]) false) := by
  simp [execNoticeRead, hnotices]

/-! ## Writes (R444, R507, R530) -/

section
variable {s : State} {a access : Nat} {r : Reg} (v : Word)

/-- A write of a register without a rule of its own, by an access with the right to it. -/
theorem execRegisterWrite_of_right (hat : regAt s.params a = some r) (hright : s.regRight r access = true) (hown : s.putOwn r v access = none) :
    execRegisterWrite a v access s = .next ((((s.putA r v).putB r v).putC r v).answer 0 false) := by
  simp [execRegisterWrite, hat, hright, hown]

/-- A write by an access without the right to the register. -/
theorem execRegisterWrite_of_noRight (hat : regAt s.params a = some r) (hright : s.regRight r access = false) :
    execRegisterWrite a v access s = .next (s.answer 0 true) := by
  simp [execRegisterWrite, hat, hright]

/-- A write where no register lies. -/
theorem execRegisterWrite_of_noReg (hat : regAt s.params a = none) : execRegisterWrite a v access s = .next (s.answer 0 true) := by
  simp [execRegisterWrite, hat]

end

/-! ## Event inputs (R511) -/

/-- An edge of ht_ev[c] with no stamped one in the 64 ns before. -/
theorem execHtEvEdge_stamped {s : State} {c : Nat} (hc : c < 4) (hfar : ∀ t, (s.time.ev.get {} c).last = some t → t + 64 ≤ s.htNs) :
    execHtEvEdge c s = .next { s with time := { s.time with
      ev := s.time.ev.set {} c { stamp := BitVec.ofNat 32 s.htNs, tgl := !(s.time.ev.get {} c).tgl, last := some s.htNs } } } := by
  have hc' : ¬ 4 ≤ c := Nat.not_le.mpr hc
  cases hlast : (s.time.ev.get {} c).last with
  | none => simp only [execHtEvEdge, hc', hlast, Bool.false_eq_true, if_false]
  | some t => simp only [execHtEvEdge, hc', hlast, Nat.not_lt.mpr (hfar t hlast), decide_false, Bool.false_eq_true, if_false]

end Sys2Proof.Machine
end

section
namespace Sys2Proof.Machine

/-- Settles O57: the advance of a tick takes a maximum with the HT before it. -/
theorem timeReadPort : Obligations.TimeReadPort := by
  unfold Obligations.TimeReadPort
  exact ⟨fun _ _ => ⟨htPort_of_lt, htPort_of_le⟩, fun s => ⟨le_advance_ht48 s, advance_valid s, advance_stepCnt s⟩⟩

/-- Settles O4, clause by clause from what each command answers. -/
theorem taiMappingAndSynthesizer : Obligations.TaiMappingAndSynthesizer := by
  unfold Obligations.TaiMappingAndSynthesizer
  refine ⟨fun s t l m hup htake htop heff => ?received, fun s m hpend heff hofs hleaf => ?applied, fun s => rfl,
    fun s t hback hdue => execSynLockRestored_due hback hdue, fun s l htop hbad => execXsStatusMessage_malformed htop hbad,
    fun s l htop hok hvalid hfault heql hpps => execXsStatusMessage_ranked htop hok hvalid hfault heql hpps⟩
  case received =>
    change execTaiMapReceive l m s = _
    rw [execTaiMapReceive_taken hup htake htop, takeMap_of_lt heff]
  case applied =>
    change execTaiMapApply s = _
    rw [execTaiMapApply_due hpend heff, applyMap_of_sameOfs hofs hleaf]

/-- Settles O40, clause by clause from what each access answers. -/
theorem registerPort : Obligations.RegisterPort := by
  unfold Obligations.RegisterPort
  refine ⟨fun s => rfl, fun s => rfl, fun s hhub => execFcwLoRead_operator hhub, fun s c st w r hc hfifo => execTdcStampLoRead_cons hc hfifo,
    fun s hhub => execHmSeqLoRead_operator hhub, fun s => rfl, fun s e r hnotices => execNoticeRead_cons hnotices,
    fun s a v k => ⟨fun r hat hright hown => ?right, fun r hat hright => ?noRight, fun hat => ?noReg⟩,
    fun s c hc hfar => execHtEvEdge_stamped hc hfar⟩
  case right => exact execRegisterWrite_of_right v hat hright hown
  case noRight => exact execRegisterWrite_of_noRight v hat hright
  case noReg => exact execRegisterWrite_of_noReg v hat

/-- Settles O42: State.reset is one closed state, so that each read of the table is a computation. -/
theorem registersAtReset : Obligations.RegistersAtReset := by
  unfold Obligations.RegistersAtReset
  refine ⟨?_, ?_, ?_, ?_⟩
  · decide +kernel
  · decide +kernel
  · decide +kernel
  · decide +kernel

end Sys2Proof.Machine
end

section
/-! References and disputes (R62 to R75): what the loss of a reference, each time-out and the end of each wait answers. -/

namespace Sys2Proof.Machine

/-! ## When a loss is due (R62, Table 3.1) -/

theorem lossDue_ref0 (s : State) : s.lossDue 0 = decide (4000000 ≤ (s.htNs - (s.ref 0).lastEdge) * s.dpll.cfg.nomKhz0) := by
  simp only [State.lossDue]
theorem lossDue_ref1 (s : State) : s.lossDue 1 = decide (4000000 ≤ (s.htNs - (s.ref 1).lastEdge) * s.dpll.cfg.nomKhz1) := by
  simp only [State.lossDue]
theorem lossDue_ref2 (s : State) :
    s.lossDue 2 = (decide ((s.ref 2).lastEdge + 400 ≤ s.htNs) || decide ((s.ref 2).lastPps + 1500000000 ≤ s.htNs)) := by
  simp only [State.lossDue]
theorem lossDue_ref3 (s : State) : s.lossDue 3 = decide ((s.ref 3).lastEdge + s.dpll.cfg.ref3TmoS * 1000000000 ≤ s.htNs) := by
  simp only [State.lossDue]

/-- What makes a loss due, reference by reference. -/
theorem lossDue_eq_true {s : State} {n : Nat} (hn : n < 4)
    (h0 : n = 0 → 4000000 ≤ (s.htNs - (s.ref 0).lastEdge) * s.dpll.cfg.nomKhz0)
    (h1 : n = 1 → 4000000 ≤ (s.htNs - (s.ref 1).lastEdge) * s.dpll.cfg.nomKhz1)
    (h2 : n = 2 → (s.ref 2).lastEdge + 400 ≤ s.htNs ∨ (s.ref 2).lastPps + 1500000000 ≤ s.htNs)
    (h3 : n = 3 → (s.ref 3).lastEdge + s.dpll.cfg.ref3TmoS * 1000000000 ≤ s.htNs) : s.lossDue n = true := by
  match n, hn with
  | 0, _ => simpa only [lossDue_ref0, decide_eq_true_eq] using h0 rfl
  | 1, _ => simpa only [lossDue_ref1, decide_eq_true_eq] using h1 rfl
  | 2, _ => simpa only [lossDue_ref2, Bool.or_eq_true, decide_eq_true_eq] using h2 rfl
  | 3, _ => simpa only [lossDue_ref3, decide_eq_true_eq] using h3 rfl

/-- What keeps a loss from being due, reference by reference. -/
theorem lossDue_eq_false {s : State} {n : Nat} (hn : n < 4)
    (h0 : n = 0 → (s.htNs - (s.ref 0).lastEdge) * s.dpll.cfg.nomKhz0 < 4000000)
    (h1 : n = 1 → (s.htNs - (s.ref 1).lastEdge) * s.dpll.cfg.nomKhz1 < 4000000)
    (h2 : n = 2 → s.htNs < (s.ref 2).lastEdge + 400 ∧ s.htNs < (s.ref 2).lastPps + 1500000000)
    (h3 : n = 3 → s.htNs < (s.ref 3).lastEdge + s.dpll.cfg.ref3TmoS * 1000000000) : s.lossDue n = false := by
  match n, hn with
  | 0, _ => simpa only [lossDue_ref0, decide_eq_false_iff_not, Nat.not_le] using h0 rfl
  | 1, _ => simpa only [lossDue_ref1, decide_eq_false_iff_not, Nat.not_le] using h1 rfl
  | 2, _ => simpa only [lossDue_ref2, Bool.or_eq_false_iff, decide_eq_false_iff_not, Nat.not_le] using h2 rfl
  | 3, _ => simpa only [lossDue_ref3, decide_eq_false_iff_not, Nat.not_le] using h3 rfl

/-! ## Losses and time-outs -/

/-- R62, R68: a loss that is due. -/
theorem execRefLoss_due {s : State} {n : Nat} (htop : s.isTop = true) (hn : n < 4) (hdue : s.lossDue n = true) :
    execRefLoss n s = .next ((s.modRef n (fun r => { r with los := true })).updCond n).reselect := by
  simp only [execRefLoss, htop, hn, hdue, decide_true, Bool.and_self, if_true]

/-- R62: a loss that is not due. -/
theorem execRefLoss_notDue {s : State} {n : Nat} (hdue : s.lossDue n = false) : execRefLoss n s = .next s := by
  simp only [execRefLoss, hdue, Bool.and_false, Bool.false_eq_true, if_false]

/-- R66: REF2 has sent no valid message within its timeout. -/
theorem execStatusMessageTimeout_due {s : State} (htop : s.isTop = true) (hdue : s.dpll.lastMsg + s.dpll.cfg.msgTmoS * 1000000000 ≤ s.htNs) :
    execStatusMessageTimeout s = .next ((s.hist 6).setRank 2 15).reselect := by
  simp only [execStatusMessageTimeout, htop, hdue, decide_true, Bool.and_self, if_true]

/-- R64: the quality level of REF0 or REF1 has not been refreshed for 5 s. -/
theorem execQlTimeout_due {s : State} {n : Nat} (htop : s.isTop = true) (hn : n < 2) (hdue : (s.ref n).lastReport + 5000000000 ≤ s.htNs) :
    execQlTimeout n s = .next ((s.hist 6).setRank n 15).reselect := by
  simp only [execQlTimeout, htop, hn, hdue, decide_true, Bool.and_self, if_true]

section
variable {s : State} (htop : s.isTop = false)
include htop

/-! The references of a block that is no Hub of the top pair (log 90). -/

theorem execRefLoss_notTop (n : Nat) : execRefLoss n s = .next s := by
  simp only [execRefLoss, htop, Bool.false_and, Bool.false_eq_true, if_false]
theorem execStatusMessageTimeout_notTop : execStatusMessageTimeout s = .next s := by
  simp only [execStatusMessageTimeout, htop, Bool.false_and, Bool.false_eq_true, if_false]
theorem execQlTimeout_notTop (n : Nat) : execQlTimeout n s = .next s := by
  simp only [execQlTimeout, htop, Bool.false_and, Bool.false_eq_true, if_false]
theorem execXsStatusMessage_notTop (l : List Byte) : execXsStatusMessage l s = .next s := by
  simp only [execXsStatusMessage, htop, Bool.not_false, if_true]

end

/-- R85: the external sensor has sent no temperature for 10 s. -/
theorem execTempTimeout_due {s : State} (hhub : s.isHub = true) (hext : s.dpll.cfg.tempExternal = true)
    (hdue : s.dpll.tempAt + 10000000000 ≤ s.htNs) :
    execTempTimeout s = .next ({ s with dpll := { s.dpll with stale := true } }.hist 18) := by
  simp only [execTempTimeout, hhub, hext, hdue, decide_true, Bool.and_self, if_true]

/-! ## The ends of waits -/

/-- R68: the conditions of a reference have held for the wait-to-restore time. -/
theorem execWaitToRestoreExpiry_due {s : State} {n t : Nat} (hhub : s.isHub = true) (hn : n < 4) (hcond : s.refCond n = true)
    (hqual : (s.ref n).qualified = false) (hstart : (s.ref n).wtrStart = some t) (hdue : t + s.dpll.cfg.wtrS * 1000000000 ≤ s.htNs) :
    execWaitToRestoreExpiry n s = .next (s.qualify n).reselect := by
  simp only [execWaitToRestoreExpiry, hhub, hn, hcond, hqual, hstart, hdue, decide_true, Bool.not_false, Bool.and_self, if_true]

/-- R75: a Disputed pair, named in the order of its key, has agreed for 60 s. -/
theorem execDisputeClear_due {s : State} {n m t : Nat} (hhub : s.isHub = true) (hnm : n < m) (hm : m < 4)
    (hmarked : (s.dpll.disp.get {} (4 * n + m)).marked = true) (hagree : (s.dpll.disp.get {} (4 * n + m)).agreeSince = some t)
    (hdue : t + 60000000000 ≤ s.htNs) :
    execDisputeClear n m s = .next
      (({ s with dpll := { s.dpll with disp := s.dpll.disp.set {} (4 * n + m) {} } }.mirror (.dispute (4 * n + m) false)).refreshDisq).reselect := by
  have hn : n < 4 := Nat.lt_trans hnm hm
  have hne : n ≠ m := Nat.ne_of_lt hnm
  simp only [execDisputeClear, hhub, hnm, hn, hm, hmarked, hagree, hdue, hne, ne_eq, not_false_eq_true, decide_true, Bool.and_self, if_true]

end Sys2Proof.Machine
end

section
/-! The states of the DPLL (R76 to R78, R86 to R95): what each event answers in the state that it concerns. -/

namespace Sys2Proof.Machine

/-! ## Changes of state -/

/-- R90: the lock criteria hold in Acquiring; they count once they have held for 10 s. -/
theorem execLockCriteriaMet_acquiring {s : State} (hhub : s.isHub = true) (hstate : s.dpll.state = .acquiring) (hopen : s.openLoop = false) :
    execLockCriteriaMet s = .next (if 10000000000 ≤ s.dpll.lockRun then s.enter .locked else s) := by
  by_cases hrun : 10000000000 ≤ s.dpll.lockRun <;> simp [execLockCriteriaMet, hhub, hstate, hopen, hrun]

/-- R90: the unlock criteria hold in Locked; they count once they have held for 2 s. -/
theorem execUnlockCriteriaMet_locked {s : State} (hhub : s.isHub = true) (hstate : s.dpll.state = .locked) (hopen : s.openLoop = false) :
    execUnlockCriteriaMet s = .next (if 2000000000 ≤ s.dpll.unlockRun then s.enter .acquiring else s) := by
  by_cases hrun : 2000000000 ≤ s.dpll.unlockRun <;> simp [execUnlockCriteriaMet, hhub, hstate, hopen, hrun]

/-- R87: the time since Holdover was entered against its limit. -/
theorem execHoldoverLimitExpiry_holdover {s : State} {t : HT} (hhub : s.isHub = true) (hstate : s.dpll.state = .holdover)
    (hentry : s.dpll.holdEntry = some t) (hopen : s.openLoop = false) :
    execHoldoverLimitExpiry s = .next (if t + s.dpll.cfg.holdLimitS * 1000000000 < s.htNs then s.enter .lost else s) := by
  by_cases hlimit : t + s.dpll.cfg.holdLimitS * 1000000000 < s.htNs <;>
    simp [execHoldoverLimitExpiry, hhub, hstate, hentry, hopen, hlimit]

/-- R87: in Holdover the die leaves the temperature excursion that the model allows. -/
theorem execTemperatureExcursion_die {s : State} {t : Rat} (hhub : s.isHub = true) (hdie : s.dpll.cfg.tempExternal = false)
    (hstate : s.dpll.state = .holdover) (hopen : s.openLoop = false)
    (hexc : (s.dpll.cfg.tempExcC : Rat) < rabs (({ s with dpll := { s.dpll with tempDie := t } } : State).tempC - s.dpll.model.t0)) :
    execTemperatureExcursion t s = .next ({ s with dpll := { s.dpll with tempDie := t } }.enter .lost) := by
  simp only [execTemperatureExcursion, hhub, hdie, Bool.false_eq_true, if_true, if_false]
  exact if_pos ⟨hstate, hopen, hexc⟩

/-- R95: mode 4 has had no CMD_DPLL_FCW within the open-loop timeout. -/
theorem execOpenLoopTimeout_due {s : State} (hhub : s.isHub = true) (hmode : s.dpll.mode = 4) (hopen : s.dpll.openExpired = false)
    (hdue : s.dpll.openAt + s.dpll.cfg.openTmoS * 1000000000 ≤ s.htNs) :
    execOpenLoopTimeout s =
      .next (({ s with dpll := { s.dpll with openExpired := true } }.hist 17).enterNow (if s.dpll.usable then .holdover else .freeRun)) := by
  simp only [execOpenLoopTimeout, hhub, hmode, hopen, hdue, beq_self_eq_true, decide_true, Bool.not_false, Bool.and_self, if_true]

/-! ## Pulls and slews -/

/-- A pull of which no phase is left stops with its count of phase as it is. -/
theorem stopPull_of_pullLeft_eq_zero {s : State} (hleft : s.dpll.pullLeft = 0) :
    s.stopPull = { s with dpll := { s.dpll with pull := false }, time := { s.time with corr := 0, slew := false } } := by
  rw [State.stopPull, ← hleft]

/-- R77, R78: a pull ends when no phase is left to be moved. -/
theorem execPhasePullEnd_done {s : State} (hhub : s.isHub = true) (hpull : s.dpll.pull = true) (hleft : s.dpll.pullLeft = 0) :
    execPhasePullEnd s = .next s.stopPull := by
  simp only [execPhasePullEnd, hhub, hpull, hleft, decide_true, Bool.and_self, if_true]

/-- R77: a pull goes on while phase is left. -/
theorem execPhasePullEnd_of_pullLeft_ne_zero {s : State} (hleft : s.dpll.pullLeft ≠ 0) : execPhasePullEnd s = .next s := by
  simp only [execPhasePullEnd, hleft, decide_false, Bool.and_false, Bool.false_eq_true, if_false]

/-- R76: a slew ends when FCW reaches its target. -/
theorem execFrequencySlewEnd_done {s : State} (hhub : s.isHub = true) (hslew : s.dpll.fslew = true) (hfcw : s.dpll.fcw = s.dpll.fcwTarget) :
    execFrequencySlewEnd s = .next { s with dpll := { s.dpll with fslew := false } } := by
  simp only [execFrequencySlewEnd, hhub, hslew, hfcw, decide_true, Bool.and_self, if_true]

end Sys2Proof.Machine
end

section
/-! The oscillator and the holdover model (R79 to R84, R502): what the changes of the OCXO and the end of a learning bin answer. -/

namespace Sys2Proof.Machine

/-! ## The OCXO -/

/-- R79: ocxo_warm_n falls to 0. -/
theorem execOcxoWarmChange_warm {s : State} (hhub : s.isHub = true) (hcold : s.dpll.warmN = true) :
    execOcxoWarmChange false s = .next { s with dpll := { s.dpll with warmN := false, settleStart := some s.htNs } } := by
  simp [execOcxoWarmChange, hhub, hcold]

/-- R79, R80: ocxo_warm_n rises to 1. -/
theorem execOcxoWarmChange_cold {s : State} (hhub : s.isHub = true) (hwarm : s.dpll.warmN = false) :
    execOcxoWarmChange true s = .next { s.endTrust with dpll := { s.endTrust.dpll with warmN := true, settleStart := none } } := by
  simp [execOcxoWarmChange, hhub, hwarm]

/-- R79: the OCXO has been warm for the settle time. -/
theorem execOcxoSettleExpiry_due {s : State} {t : HT} (hhub : s.isHub = true) (hstart : s.dpll.settleStart = some t) (hwarm : s.dpll.warmN = false)
    (hrun : s.dpll.ocxoRun = true) (htrust : s.dpll.trusted = false) (hdue : t + s.dpll.cfg.settleMin * 60000000000 ≤ s.htNs) :
    execOcxoSettleExpiry s = .next ({ s with dpll := { s.dpll with trusted := true, settleStart := none } }.hist 13).refreshModel := by
  simp only [execOcxoSettleExpiry, hhub, hstart, hwarm, hrun, htrust, hdue, decide_true, Bool.not_false, Bool.and_self, if_true]

/-- R502: a clock that ran is lost. -/
theorem execOcxoLoss_running {s : State} (hhub : s.isHub = true) (hrun : s.dpll.ocxoRun = true) :
    execOcxoLoss s = .next (({ s.endTrust with
      dpll := { s.endTrust.dpll with ocxoRun := false, settleStart := none }
      irq := { s.endTrust.irq with ocxoLoss := true } }).record { event := 0x0941 }) := by
  simp only [execOcxoLoss, hhub, hrun, Bool.and_self, if_true]

/-- R502: a clock that was lost runs again. -/
theorem execOcxoClockReturn_lost {s : State} (hhub : s.isHub = true) (hrun : s.dpll.ocxoRun = false) :
    execOcxoClockReturn s =
      .next { s with dpll := { s.dpll with ocxoRun := true, settleStart := if s.dpll.warmN then none else some s.htNs } } := by
  simp only [execOcxoClockReturn, hhub, hrun, Bool.not_false, Bool.and_self, if_true]

/-! ## Learning (R82, R83) -/

/-- The next learning bin starts, clean when the conditions of R82 hold. -/
def State.nextBin (s : State) : State := { s with dpll := { s.dpll with binFcw := 0, binN := 0, binClean := s.binCond } }

/-- R82: a bin lasts 60 s. -/
theorem execLearningBinEnd_early {s : State} (t : Rat) (hshort : s.dpll.binN < 60000000000) : execLearningBinEnd t s = .next s := by
  simp only [execLearningBinEnd, hshort, decide_true, Bool.or_true, if_true]

section
variable {s : State} (t : Rat) (hhub : s.isHub = true) (hext : s.dpll.cfg.tempExternal = true) (hlong : 60000000000 ≤ s.dpll.binN)
include hhub hext hlong

/-- R82: a bin that does not count leaves the window to the bins within its length. -/
theorem execLearningBinEnd_notCounted (hcount : s.binCounts = false) :
    execLearningBinEnd t s = .next ({ s with dpll := { s.dpll with bins := s.binsNow s.dpll.bins } } : State).refreshModel.nextBin := by
  have hlong' : ¬ s.dpll.binN < 60000000000 := Nat.not_lt.mpr hlong
  simp only [execLearningBinEnd, State.nextBin, hhub, hext, hlong', hcount, Bool.not_true, decide_false, Bool.or_self, Bool.false_eq_true,
    if_true, if_false]

/-- R82, R83: a bin that counts joins the window of a loaded model, which keeps its AGE_EPOCH, and the model is fitted. -/
theorem execLearningBinEnd_counted (hcount : s.binCounts = true) (hloaded : s.dpll.modelLoaded = true) :
    execLearningBinEnd t s = .next ({ s with dpll := { s.dpll with
      bins := s.binsNow (s.dpll.bins ++ [({ t := t, y := ppbOf s.dpll.binFcw s.dpll.binN, at_ := s.htNs } : Bin)]) } } : State).fitModel.refreshModel.nextBin := by
  have hlong' : ¬ s.dpll.binN < 60000000000 := Nat.not_lt.mpr hlong
  simp only [execLearningBinEnd, State.nextBin, hhub, hext, hlong', hcount, hloaded, Bool.not_true, Bool.and_false, decide_false, Bool.or_self,
    Bool.false_eq_true, if_true, if_false]

end

/-- R84, R454: a usable model is written to flash while the Scrivener runs. -/
theorem execModelFlashWrite_usable {s : State} (hhub : s.isHub = true) (husable : s.dpll.usable = true) (hscriv : s.scriv.restarting = false) :
    execModelFlashWrite s = .next { s with flash := { s.flash with model := some s.dpll.model, modelAt := s.htNs } } := by
  simp only [execModelFlashWrite, hhub, husable, hscriv, Bool.not_false, Bool.and_self, if_true]

/-- R40: the top pair writes a checkpoint. -/
theorem execHtCheckpoint_of_checkpoints {s : State} (hcp : s.checkpoints = true) : execHtCheckpoint s = .next s.checkpoint := if_pos hcp

end Sys2Proof.Machine
end

section
/-! The commands of chapter 3 and CMD_TSRC_CONFIG as they run here (Tables 3.7 and 3.8, R144, R468): what the body of each answers. -/

namespace Sys2Proof.Machine

/-- A command that runs here completes with what its body answers. -/
theorem runCmd_of_runsHere {i : Instr} {inf : CmdInfo} {h : CmdHdr} {s t : State} {c : St} {out : List Byte} {body : State → CmdRes}
    (hrun : RunsHere i s) (hrow : cmdOf i s = some (inf, h)) (hbody : body s = .done t c out) :
    runCmd inf h s body = .next (complete t h.src inf.opcode c out) := by
  obtain ⟨inf', h', hrow', hgate, hroute, hfree⟩ := hrun
  obtain ⟨rfl, rfl⟩ : inf = inf' ∧ h = h' := by simpa [hrow] using hrow'
  exact runCmd_done hgate hroute hfree hbody

/-! ## References and time -/

/-- R97: a configuration in range, while none is being mirrored. -/
theorem execCmdRefConfig_runsHere {h : CmdHdr} {c : RefCfg} {s : State} (hrun : RunsHere (.cmdRefConfig h c) s) (hok : refCfgOk c = true)
    (hidle : s.dpll.cfgBusyUntil ≤ s.htNs) :
    execCmdRefConfig h c s = .next (complete
      (({ s with dpll := { s.dpll with cfgBusyUntil := if s.isPrimary = true ∧ s.pair.solo = false ∧ s.chordUp ≠ [] then s.htNs + 2000 else 0 } }.applyRefCfg
        c).mirror (.refConfig c)) h.src 0x0102 .ok []) :=
  runCmd_of_runsHere hrun rfl (by simp [hok, Nat.not_lt.mpr hidle, CmdRes.ok, and_assoc])

/-- R64: a report of SSM codes alone. -/
theorem execCmdRefReport_levels {h : CmdHdr} {q0 q1 : QlReport} {s : State}
    (hrun : RunsHere (.cmdRefReport h { ql0 := some q0, ql1 := some q1 }) s) (h0 : q0.ssm < 16) (h1 : q1.ssm < 16) (he0 : q0.eql = none)
    (he1 : q1.eql = none) :
    execCmdRefReport h { ql0 := some q0, ql1 := some q1 } s =
      .next (complete ((s.reportQl 0 (some q0)).reportQl 1 (some q1)).reselect h.src 0x0103 .ok []) :=
  runCmd_of_runsHere hrun rfl (by simp [h0, h1, he0, he1, CmdRes.ok, State.reportQl])

/-- R468: a mapping that comes into force 1 ms ahead or later. -/
theorem execCmdTaiMap_ahead {h : CmdHdr} {ofs : Int} {utc leap eff : Nat} {s : State} (hrun : RunsHere (.cmdTaiMap h ofs utc leap eff) s)
    (htop : s.isTop = true) (hprim : s.isPrimary = true) (heff : s.htNs + 1000000 ≤ eff) (hleap : leap < 3) (hutc : utc < 256) :
    ∀ m : TaiMap, m = { ofs := ofs, utc := utc, leap := leap, eff := eff } →
      execCmdTaiMap h ofs utc leap eff s = .next (complete (((s.takeMap m).mirror (.taiMap (some m))).mapDown m) h.src 0x0101 .ok
        (layout [(1, b2n s.time.pend.isSome)])) := by
  rintro m rfl
  exact runCmd_of_runsHere hrun rfl (by simp [htop, hprim, Nat.not_lt.mpr heff, Nat.not_le.mpr hleap, Nat.not_le.mpr hutc, CmdRes.ok])

/-- R144, R145: a mode and slopes in range. -/
theorem execCmdTsrcConfig_inRange {h : CmdHdr} {mode slope rec : Nat} {s : State} (hrun : RunsHere (.cmdTsrcConfig h mode slope rec) s)
    (hmode : mode ≤ 2) (hslope : 1 ≤ slope ∧ slope ≤ 500) (hrec : 1 ≤ rec ∧ rec ≤ 10000) :
    execCmdTsrcConfig h mode slope rec s = .next (complete { s with tsrc := { s.tsrc with mode := mode, slope := slope, recSlope := rec } } h.src 0x010A
      .ok (layout [(1, s.tsrc.mode), (4, s.tsrc.slope), (4, s.tsrc.recSlope)])) := by
  have hrange : ¬ (2 < mode ∨ slope < 1 ∨ 500 < slope ∨ rec < 1 ∨ 10000 < rec) := by omega
  exact runCmd_of_runsHere hrun rfl (if_neg hrange)

/-! ## The DPLL -/

/-- R93: mode 4 at the top pair. -/
theorem execCmdDpllMode_openLoop {h : CmdHdr} {n : Nat} {s : State} (hrun : RunsHere (.cmdDpllMode h 4 n) s) (htop : s.isTop = true) :
    execCmdDpllMode h 4 n s =
      .next (complete (((s.setMode 4 n).mirror (.dpllMode 4 n)).modeNow s.dpll.mode) h.src 0x0104 .ok (layout [(1, s.dpll.mode)])) :=
  runCmd_of_runsHere hrun rfl (by simp [htop, CmdRes.ok])

/-- R93: what a mode sets as it comes into force. -/
theorem setMode_fields (s : State) (mode ref : Nat) :
    (s.setMode mode ref).dpll.mode = mode ∧ (s.setMode mode ref).dpll.openAt = s.htNs ∧ (s.setMode mode ref).dpll.openExpired = false := by
  unfold State.setMode
  split
  · exact ⟨rfl, rfl, rfl⟩
  · rw [State.hist_dpll]
    split <;> exact ⟨rfl, rfl, rfl⟩

/-- Table 3.5: in mode 4 no reference is active. -/
theorem modeNow_openLoop {s : State} (hmode : s.dpll.mode = 4) (prev : Nat) :
    s.modeNow prev = { s.stopPull with dpll := { s.stopPull.dpll with active := none } } := by
  simp [State.modeNow, hmode]

/-- R94, R76: a frequency control word within ±50 ppm in mode 4. -/
theorem execCmdDpllFcw_openLoop {h : CmdHdr} {fcw : Int} {st : Nat} {s : State} (hrun : RunsHere (.cmdDpllFcw h fcw st) s)
    (hfcw : fcw.natAbs ≤ fcwLimit.natAbs) (hst : st ≤ 4) (hmode : s.dpll.mode = 4) :
    execCmdDpllFcw h fcw st s = .next (complete
      (({ s with dpll := { s.dpll with openAt := s.htNs, openExpired := false, openStatus := wordOf st } }.enter (wordOf st)).fcwTo fcw)
      h.src 0x0105 .ok (layout [(8, twos 64 fcw)])) :=
  runCmd_of_runsHere hrun rfl (by simp [Nat.not_lt.mpr hfcw, Nat.not_lt.mpr hst, hmode, CmdRes.ok])

/-! ## The holdover model -/

@[simp] theorem inHoldover_eq_true {s : State} : s.inHoldover = true ↔ s.dpll.state = .holdover := decide_eq_true_iff

section
variable {h : CmdHdr} {m : ModelData} {s : State}

/-- R98: a read. -/
theorem execHoldoverModelRead_runsHere (hrun : RunsHere (.holdoverModelRead h) s) :
    execHoldoverModelRead h s = .next (complete s h.src 0x0106 .ok (modelOut s)) :=
  runCmd_of_runsHere hrun rfl rfl

/-- R98: a freeze. -/
theorem execHoldoverModelFreeze_runsHere (hrun : RunsHere (.holdoverModelFreeze h) s) :
    execHoldoverModelFreeze h s = .next (complete { s with dpll := { s.dpll with frozen := true, binClean := false } } h.src 0x0106 .ok (modelOut s)) :=
  runCmd_of_runsHere hrun rfl rfl

/-- R98: a resume. -/
theorem execHoldoverModelResume_runsHere (hrun : RunsHere (.holdoverModelResume h) s) :
    execHoldoverModelResume h s = .next (complete { s with dpll := { s.dpll with frozen := false } } h.src 0x0106 .ok (modelOut s)) :=
  runCmd_of_runsHere hrun rfl rfl

/-- R98, Table 3.8: a load outside Holdover. -/
theorem execHoldoverModelLoad_ok (hrun : RunsHere (.holdoverModelLoad h m) s) (hok : s.modelOk m = true) (hstate : s.dpll.state ≠ .holdover) :
    ∀ t : State, t = ({ s with dpll := { s.dpll with model := m, modelLoaded := true } } : State).refreshModel →
      execHoldoverModelLoad h m s = .next (complete t h.src 0x0106 .ok (modelOut t)) := by
  rintro t rfl
  exact runCmd_of_runsHere hrun rfl (by simp [hok, hstate, CmdRes.ok])

/-- Table 3.8: a load in Holdover. -/
theorem execHoldoverModelLoad_conflict (hrun : RunsHere (.holdoverModelLoad h m) s) (hok : s.modelOk m = true) (hstate : s.dpll.state = .holdover) :
    execHoldoverModelLoad h m s = .next (complete s h.src 0x0106 .conflict []) :=
  runCmd_of_runsHere hrun rfl (by simp [hok, hstate, CmdRes.err])

/-- R98, Table 3.8: a clear outside Holdover. -/
theorem execHoldoverModelClear_ok (hrun : RunsHere (.holdoverModelClear h) s) (hstate : s.dpll.state ≠ .holdover) :
    ∀ t : State, t = ({ s with dpll := { s.dpll with
        model := {}, bins := [], modelLoaded := false, resid := 0, a1Fit := false, b1Fit := false, b2Fit := false } } : State).refreshModel →
      execHoldoverModelClear h s = .next (complete t h.src 0x0106 .ok (modelOut t)) := by
  rintro t rfl
  exact runCmd_of_runsHere hrun rfl (by simp [hstate, CmdRes.ok])

/-- Table 3.8: a clear in Holdover. -/
theorem execHoldoverModelClear_conflict (hrun : RunsHere (.holdoverModelClear h) s) (hstate : s.dpll.state = .holdover) :
    execHoldoverModelClear h s = .next (complete s h.src 0x0106 .conflict []) :=
  runCmd_of_runsHere hrun rfl (by simp [hstate, CmdRes.err])

end

end Sys2Proof.Machine
end

section
namespace Sys2Proof.Machine

/-- Settles O1, event by event. -/
theorem referenceEvents : Obligations.ReferenceEvents := by
  unfold Obligations.ReferenceEvents
  refine ⟨fun s n htop hn h0 h1 h2 h3 => ?lossDue, fun s n hn h0 h1 h2 h3 => ?lossNotDue, fun s htop hdue => execStatusMessageTimeout_due htop hdue,
    fun s n htop hn hdue => execQlTimeout_due htop hn hdue, fun s n l htop => ?notTop, fun s hhub hext hdue => execTempTimeout_due hhub hext hdue,
    fun s n t hhub hn hcond hqual hstart hdue => execWaitToRestoreExpiry_due hhub hn hcond hqual hstart hdue,
    fun s n m t hhub hnm hm hmarked hagree hdue => execDisputeClear_due hhub hnm hm hmarked hagree hdue⟩
  case lossDue => exact execRefLoss_due htop hn (lossDue_eq_true hn h0 h1 h2 h3)
  case lossNotDue => exact execRefLoss_notDue (lossDue_eq_false hn h0 h1 h2 h3)
  case notTop =>
    exact ⟨execRefLoss_notTop htop n, execStatusMessageTimeout_notTop htop, execQlTimeout_notTop htop n, execXsStatusMessage_notTop htop l⟩

/-- Settles O2, event by event; a pull that ends keeps its count of phase because none is left. -/
theorem dpllStateEvents : Obligations.DpllStateEvents := by
  unfold Obligations.DpllStateEvents
  refine ⟨fun s hhub hstate hopen => execLockCriteriaMet_acquiring hhub hstate hopen,
    fun s hhub hstate hopen => execUnlockCriteriaMet_locked hhub hstate hopen,
    fun s t hhub hstate hentry hopen => execHoldoverLimitExpiry_holdover hhub hstate hentry hopen,
    fun s t hhub hdie hstate hopen hexc => execTemperatureExcursion_die hhub hdie hstate hopen hexc,
    fun s hhub hmode hopen hdue => execOpenLoopTimeout_due hhub hmode hopen hdue, fun s hhub hpull hleft => ?pullEnds,
    fun s hleft => execPhasePullEnd_of_pullLeft_ne_zero hleft, fun s hhub hslew hfcw => execFrequencySlewEnd_done hhub hslew hfcw⟩
  case pullEnds =>
    rw [← stopPull_of_pullLeft_eq_zero hleft]
    exact execPhasePullEnd_done hhub hpull hleft

/-- Settles O3, event by event. -/
theorem ocxoAndLearning : Obligations.OcxoAndLearning := by
  unfold Obligations.OcxoAndLearning
  refine ⟨fun s hhub hcold => execOcxoWarmChange_warm hhub hcold, fun s hhub hwarm => execOcxoWarmChange_cold hhub hwarm,
    fun s t hhub hstart hwarm hrun htrust hdue => execOcxoSettleExpiry_due hhub hstart hwarm hrun htrust hdue,
    fun s hhub hrun => execOcxoLoss_running hhub hrun, fun s hhub hrun => execOcxoClockReturn_lost hhub hrun,
    fun s t hhub hext hlong hcount r hr => ?notCounted, fun s t hshort => execLearningBinEnd_early t hshort,
    fun s t hhub hext hcount hlong hloaded r hr => ?counted,
    fun s hhub husable hscriv => execModelFlashWrite_usable hhub husable hscriv, fun s hcp => execHtCheckpoint_of_checkpoints hcp⟩
  case notCounted => exact hr ▸ execLearningBinEnd_notCounted t hhub hext hlong hcount
  case counted => exact hr ▸ execLearningBinEnd_counted t hhub hext hlong hcount hloaded

/-- Settles O5, command by command. -/
theorem referenceCommands : Obligations.ReferenceCommands := by
  unfold Obligations.ReferenceCommands
  refine ⟨fun h c s hrun hok hidle => execCmdRefConfig_runsHere hrun hok hidle,
    fun h q0 q1 s hrun h0 h1 he0 he1 => execCmdRefReport_levels hrun h0 h1 he0 he1,
    fun h ofs utc leap eff s hrun htop hprim heff hleap hutc => execCmdTaiMap_ahead hrun htop hprim heff hleap hutc _ rfl,
    fun h mode slope rec s hrun hmode hs1 hs500 hr1 hr10000 => execCmdTsrcConfig_inRange hrun hmode ⟨hs1, hs500⟩ ⟨hr1, hr10000⟩,
    fun h n s hrun htop => ⟨_, execCmdDpllMode_openLoop hrun htop, ?openLoop⟩,
    fun h fcw st s hrun hfcw hst hmode => execCmdDpllFcw_openLoop hrun hfcw hst hmode⟩
  case openLoop =>
    obtain ⟨hmode, hat, hexpired⟩ := setMode_fields s 4 n
    have hmode' : ((s.setMode 4 n).mirror (.dpllMode 4 n)).dpll.mode = 4 := by rw [State.mirror_dpll, hmode]
    rw [modeNow_openLoop hmode']
    simp [State.stopPull, hmode, hat, hexpired]

/-- Settles O6, operation by operation. -/
theorem holdoverModelCommands : Obligations.HoldoverModelCommands := by
  unfold Obligations.HoldoverModelCommands
  exact ⟨fun h s hrun => execHoldoverModelRead_runsHere hrun,
    fun h m s hrun hok hstate => ⟨_, execHoldoverModelLoad_ok hrun hok hstate _ rfl, rfl⟩,
    fun h s hrun hstate => ⟨_, execHoldoverModelClear_ok hrun hstate _ rfl, rfl⟩,
    fun h s hrun => execHoldoverModelFreeze_runsHere hrun, fun h s hrun => execHoldoverModelResume_runsHere hrun,
    fun h m s hstate => ⟨fun hrun hok => execHoldoverModelLoad_conflict hrun hok hstate, fun hrun => execHoldoverModelClear_conflict hrun hstate⟩⟩

end Sys2Proof.Machine
end

section
/-! The channels of the TDC (R102 to R110): what an input edge, the end of hold-off, a gate boundary and an anchor answer. -/

namespace Sys2Proof.Machine

/-! ## Edges and hold-off (R102, R103, R105, R106) -/

section
variable {s : State} {ch stamp : Nat} {rising : Bool} (hloop : (s.tdcCh ch).loop = false)
include hloop

/-- R102: a channel that is on and not in calibration accepts an edge of a selected polarity. -/
theorem takeLevel_of_edgeSelected (hen : (s.tdcCh ch).cfg.en = true) (hsel : edgeSelected (s.tdcCh ch).cfg.edge rising = true) :
    s.takeLevel ch rising stamp = (s.modTdc ch (fun t => { t with level := rising })).modTdc ch (fun t => t.accept stamp) := by
  simp only [State.takeLevel, hen, hloop, hsel, Bool.false_and, Bool.and_self, Bool.false_eq_true, if_true, if_false]

/-- R102: an edge of a polarity that EDGE does not select only moves the tracked level. -/
theorem takeLevel_of_not_edgeSelected (hsel : edgeSelected (s.tdcCh ch).cfg.edge rising = false) :
    s.takeLevel ch rising stamp = s.modTdc ch (fun t => { t with level := rising }) := by
  simp only [State.takeLevel, hloop, hsel, Bool.false_and, Bool.and_false, Bool.false_eq_true, if_false]

/-- R102, R105: a new level that is held long enough, and whose last sample was taken within the last two ticks, is taken. -/
theorem execTdcEdgeAccept_held {held : Nat} (hch : ch < 8) (hen : (s.tdcCh ch).cfg.en = true) (hout : (s.tdcCh ch).holdEnd = none)
    (hnew : (s.tdcCh ch).level ≠ rising) (hheld : (s.tdcCh ch).cfg.hyst + 1 ≤ held) (hsees : s.seesInput ch = true)
    (hpast : stamp + (s.tdcCh ch).cfg.hyst ≤ s.tickBins) (hrecent : s.tickBins < stamp + (s.tdcCh ch).cfg.hyst + 32) :
    execTdcEdgeAccept ch rising held stamp s = .next (
      if s.isTop && edgeSelected (s.tdcCh ch).cfg.edge rising then (s.takeLevel ch rising stamp).refEdge ch stamp
      else s.takeLevel ch rising stamp) := by
  simp [execTdcEdgeAccept, hen, hloop, hout, hnew, hsees, Nat.not_le.mpr hch, Nat.not_lt.mpr hheld, Nat.not_lt.mpr hpast, Nat.not_le.mpr hrecent]

end

/-- R105: a stamp ahead of the coarse count names no sample that was taken. -/
theorem execTdcEdgeAccept_ahead {s : State} {stamp : Nat} (ch held : Nat) (rising : Bool) (hahead : s.tickBins < stamp) :
    execTdcEdgeAccept ch rising held stamp s = .next s := by
  have hpast : s.tickBins < stamp + (s.tdcCh ch).cfg.hyst := Nat.lt_add_right _ hahead
  simp only [execTdcEdgeAccept, hpast, true_or, or_true, if_true]

/-- R103: hold-off ends when the coarse count has reached its end. -/
theorem execHoldoffEnd_due {s : State} {ch e : Nat} (level : Bool) (hhold : (s.tdcCh ch).holdEnd = some e) (hdue : e ≤ s.tdc.coarse * 8) :
    execHoldoffEnd ch level s = .next (s.modTdc ch (fun t => { t with holdEnd := none, level := level })) := by
  simp only [execHoldoffEnd, hhold, hdue, if_true]

/-! ## Gates and anchors (R107, R108, R110) -/

section
variable {s : State} {ch : Nat} (hch : ch < 8)
  (hbound : (s.tdcCh ch).gateHt / ((s.tdcCh ch).cfg.gateMs * 1000000) < s.htNs / ((s.tdcCh ch).cfg.gateMs * 1000000))
include hch hbound

/-- R108: the gate boundary of a channel that is off. -/
theorem execTdcGateEnd_off (hoff : (s.tdcCh ch).cfg.en = false) :
    execTdcGateEnd ch s = .next (s.modTdc ch (fun t =>
      { t with cfg := (s.tdcCh ch).pendCfg.getD t.cfg, pendCfg := none, gateStart := s.tdc.coarse, gateHt := s.htNs })) := by
  simp [execTdcGateEnd, State.modTdc, hoff, Nat.not_le.mpr hch, Nat.not_le.mpr hbound]

/-- R110: the gate boundary of a channel that is on. -/
theorem execTdcGateEnd_on (hon : (s.tdcCh ch).cfg.en = true) :
    execTdcGateEnd ch s = .next (
      if s.isTop then (s.modTdc ch (fun t => t.endGate s.tdc.coarse s.htNs)).refGate ch ((s.tdcCh ch).endGate s.tdc.coarse s.htNs).valid
        ((s.tdcCh ch).endGate s.tdc.coarse s.htNs).yPpb (s.tdcCh ch).gateHt
      else s.modTdc ch (fun t => t.endGate s.tdc.coarse s.htNs)) := by
  simp [execTdcGateEnd, State.modTdc, hon, Nat.not_le.mpr hch, Nat.not_le.mpr hbound]

end

/-- HT that is a multiple of 2^20 ns exactly, in whole nanoseconds and in units of 2^-48 ns. -/
theorem htNs_of_ht48_mod_eq_zero {s : State} (hmult : s.time.ht48 % 2 ^ 68 = 0) :
    s.htNs % 2 ^ 20 = 0 ∧ s.htNs / 2 ^ 20 * 2 ^ 68 = s.time.ht48 := by
  obtain ⟨k, hk⟩ := Nat.dvd_of_mod_eq_zero hmult
  have hns : s.htNs = 2 ^ 20 * k := by
    rw [State.htNs, hk, show 2 ^ 68 = 2 ^ 48 * 2 ^ 20 from rfl, Nat.mul_assoc, Nat.mul_div_cancel_left _ (Nat.two_pow_pos 48)]
  rw [hns, hk, Nat.mul_div_cancel_left _ (Nat.two_pow_pos 20)]
  exact ⟨Nat.mul_mod_right _ _, Nat.mul_comm _ _⟩

/-- R107: at an exact multiple of 2^20 ns no bin has passed since. -/
theorem execTdcAnchorLatch_exact {s : State} (hmult : s.time.ht48 % 2 ^ 68 = 0) (hnew : s.tdc.ancHt ≠ BitVec.ofNat 32 (s.htNs / 2 ^ 20)) :
    execTdcAnchorLatch s = .next
      { s with tdc := { s.tdc with ancCnt := BitVec.ofNat 32 s.tickBins, ancHt := BitVec.ofNat 32 (s.htNs / 2 ^ 20) } } := by
  obtain ⟨hns, hback⟩ := htNs_of_ht48_mod_eq_zero hmult
  have hlatch : s.htNs % 2 ^ 20 ≤ 1 ∧ s.tdc.ancHt ≠ BitVec.ofNat 32 (s.htNs / 2 ^ 20) := ⟨hns ▸ Nat.zero_le 1, hnew⟩
  have hpast : (s.time.ht48 - s.htNs / 2 ^ 20 * 2 ^ 68 + 2 ^ 43) / 2 ^ 44 = 0 :=
    calc
      _ = (0 + 2 ^ 43) / 2 ^ 44 := by rw [hback, Nat.sub_self]
      _ = 0 := Nat.div_eq_of_lt (by decide)
  simp only [execTdcAnchorLatch, if_pos hlatch, hpast, Nat.sub_zero]

end Sys2Proof.Machine
end

section
/-! The commands of the TDC (Table 4.4, R101, R104, R114 to R116): what their bodies answer, and how a calibration ends. -/

namespace Sys2Proof.Machine

/-- A command that runs here and goes on leaves what its body leaves. -/
theorem runCmd_wait_of_runsHere {i : Instr} {inf : CmdInfo} {h : CmdHdr} {s t : State} {body : State → CmdRes}
    (hrun : RunsHere i s) (hrow : cmdOf i s = some (inf, h)) (hbody : body s = .wait t) : runCmd inf h s body = .next t := by
  obtain ⟨inf', h', hrow', hgate, hroute, hfree⟩ := hrun
  obtain ⟨rfl, rfl⟩ : inf = inf' ∧ h = h' := by simpa [hrow] using hrow'
  exact runCmd_wait hgate hroute hfree hbody

/-- R101, R104: a configuration in range of a channel that is neither fixed nor in calibration. -/
theorem execCmdTdcConfig_inRange {h : CmdHdr} {ch : Nat} {c : TdcCfg} {s : State} (hrun : RunsHere (.cmdTdcConfig h ch c) s) (hch : ch < 8)
    (hok : tdcCfgOk c = true) (hfixed : s.tdcFixed ch = false) (hcal : s.inCal ch = false) :
    execCmdTdcConfig h ch c s = .next (complete (s.modTdc ch (fun t => { t with pendCfg := some c })) h.src 0x0107 .ok []) :=
  runCmd_of_runsHere hrun rfl (by simp [Nat.not_le.mpr hch, hok, hfixed, hcal, CmdRes.ok])

/-! ## Calibration (R114, R115) -/

/-- R115: nothing stops a calibration of a free output and a free channel; a Leaf needs a comparator for it. -/
theorem calCheck_free {s : State} {po ch : Nat} (hfixed : s.tdcFixed ch = false) (hcal : s.inCal ch = false) (hpo : (s.po po).mode = 0)
    (hcomp : s.isHub = false → s.canAlloc 1 true = true) : s.calCheck po ch false = none := by
  cases hhub : s.isHub with
  | true => simp [State.calCheck, hfixed, hcal, hpo, hhub]
  | false => simp [State.calCheck, hfixed, hcal, hpo, hhub, hcomp hhub]

/-- R114: a calibration in range starts while no other run holds the TDC. -/
theorem execCmdTdcCal_starts {h : CmdHdr} {ch po count : Nat} {path : CalPath} {s : State} (hrun : RunsHere (.cmdTdcCal h ch po path count) s)
    (hch : ch < 8) (hpo : po < 4) (hcount : 16 ≤ count ∧ count ≤ 4096) (hidle : s.tdc.cal = none) (hplumb : s.tsrc.plumb = none)
    (hcheck : s.calCheck po ch false = none) :
    execCmdTdcCal h ch po path count s = .next { s.takeCal po ch with tdc := { (s.takeCal po ch).tdc with
      cal := some { ch := ch, po := po, path := path, count := count, start := roundUp (s.htNs + 10000) 1024, src := h.src } } } := by
  have hrange : ¬ (8 ≤ ch ∨ 4 ≤ po ∨ count < 16 ∨ 4096 < count) := by omega
  exact runCmd_wait_of_runsHere hrun rfl (by simp [hrange, hidle, hplumb, hcheck])

/-- R115: nothing ends a calibration before its last pulse has passed. -/
theorem execTdcCalComplete_early {s : State} (hearly : ∀ c, s.tdc.cal = some c → s.htNs < c.start + (c.count - 1) * 1024 + 64) :
    execTdcCalComplete s = .next s := by
  cases hcal : s.tdc.cal with
  | none => simp only [execTdcCalComplete, hcal]
  | some c => simp only [execTdcCalComplete, hcal, hearly c hcal, if_true]

section
variable {s : State} {c : CalRun} (hcal : s.tdc.cal = some c) (hdue : c.start + (c.count - 1) * 1024 + 64 ≤ s.htNs)
include hcal hdue

/-- R115: a calibration that stamped fewer edges than it sent pulses. -/
theorem execTdcCalComplete_missing (hgot : c.got.1 < c.count) :
    execTdcCalComplete s = .next (complete (s.endCal c) c.src 0x0108 .range []) := by
  simp only [execTdcCalComplete, hcal, Nat.not_lt.mpr hdue, hgot, if_true, if_false]

/-- R115: a calibration of the internal path is itself the internal delay. -/
theorem execTdcCalComplete_internal (hgot : c.count ≤ c.got.1) (hpath : c.path = .internal) :
    execTdcCalComplete s = .next (complete
      ((s.endCal c).modTdc c.ch (fun t => { t with calOfs := countMean c.got, calInternal := countMean c.got })) c.src 0x0108 .ok
      (layout [(8, twos 64 (countMean c.got)), (8, twos 64 0)])) := by
  simp only [execTdcCalComplete, hcal, Nat.not_lt.mpr hdue, Nat.not_lt.mpr hgot, hpath, if_true, if_false]

/-- R115: a calibration of an external path keeps the internal delay, and its mean beyond it is the external one. -/
theorem execTdcCalComplete_external (hgot : c.count ≤ c.got.1) (hpath : c.path ≠ .internal) :
    execTdcCalComplete s = .next (complete ((s.endCal c).modTdc c.ch (fun t => { t with calOfs := countMean c.got })) c.src 0x0108 .ok
      (layout [(8, twos 64 (countMean c.got)), (8, twos 64 (countMean c.got - (s.tdcCh c.ch).calInternal))])) := by
  simp only [execTdcCalComplete, hcal, Nat.not_lt.mpr hdue, Nat.not_lt.mpr hgot, hpath, if_false]

end

end Sys2Proof.Machine
end

section
namespace Sys2Proof.Machine

/-- Settles O8, event by event; an accepted edge is split by its polarity. -/
theorem edgeMeasurement : Obligations.EdgeMeasurement := by
  unfold Obligations.EdgeMeasurement
  refine ⟨fun s ch held stamp rising hch hen hout hnew hheld hsees hloop hpast hrecent => ?edge,
    fun s ch e level hhold hdue => execHoldoffEnd_due level hhold hdue, fun s ch hch hoff hbound => execTdcGateEnd_off hch hbound hoff,
    fun s ch hch hon hbound => execTdcGateEnd_on hch hbound hon, fun s hmult hnew => execTdcAnchorLatch_exact hmult hnew,
    fun h ch c s hrun hch hok hfixed hcal => execCmdTdcConfig_inRange hrun hch hok hfixed hcal,
    fun h ch po count path s hrun hch hpo hmin hmax hidle hplumb hfixed hcal hmode hcomp =>
      execCmdTdcCal_starts hrun hch hpo ⟨hmin, hmax⟩ hidle hplumb (calCheck_free hfixed hcal hmode hcomp),
    fun s c hcal hdue => ⟨execTdcCalComplete_missing hcal hdue, execTdcCalComplete_internal hcal hdue, execTdcCalComplete_external hcal hdue⟩,
    fun s hearly => execTdcCalComplete_early hearly, fun s ch held stamp rising hahead => execTdcEdgeAccept_ahead ch held rising hahead⟩
  case edge =>
    have htaken := execTdcEdgeAccept_held hloop hch hen hout hnew hheld hsees hpast hrecent
    constructor
    · intro hsel
      rw [takeLevel_of_edgeSelected hloop hen hsel, hsel, Bool.and_true] at htaken
      exact htaken
    · intro hsel
      rw [takeLevel_of_not_edgeSelected hloop hsel, hsel, Bool.and_false] at htaken
      exact htaken

end Sys2Proof.Machine
end

section
/-! CMD_PLUMB (Table 5.6, R115, R135, R140, R141) and the effective HT of a step (R36): what each operation's body and each event answer. -/

namespace Sys2Proof.Machine

/-! ## The operations of CMD_PLUMB -/

section
variable {h : CmdHdr} {p : Nat} {s : State}

/-- R141: a value in range for a port of a child end, while no commissioning runs. -/
theorem execPlumbLoad_inRange {a : Int} (hrun : RunsHere (.plumbLoad h p a) s) (hport : s.plumbPort p = none) (hmin : -2147483648 ≤ a)
    (hmax : a ≤ 2147483647) (hidle : s.tsrc.plumb = none) :
    ∀ t, t = (s.storeAsym p a).send p (.plumb (.plumbEnd (some a))) →
      execPlumbLoad h p a s = .next (complete t h.src 0x0109 .ok (plumbOut (t.port p))) := by
  rintro t rfl
  exact runCmd_of_runsHere hrun rfl (by simp [hport, Int.not_lt.mpr hmin, Int.not_lt.mpr hmax, hidle, CmdRes.ok])

/-- Table 5.6: a read. -/
theorem execPlumbRead_runsHere (hrun : RunsHere (.plumbRead h p) s) (hport : s.plumbPort p = none) :
    execPlumbRead h p s = .next (complete s h.src 0x0109 .ok (plumbOut (s.port p))) :=
  runCmd_of_runsHere hrun rfl (by simp [hport, CmdRes.ok])

/-- R135: SUSPECT is cleared by command. -/
theorem execPlumbClearSuspect_runsHere (hrun : RunsHere (.plumbClearSuspect h p) s) (hport : s.plumbPort p = none) :
    execPlumbClearSuspect h p s = .next (complete (s.modPort p (fun o => { o with suspect := false })) h.src 0x0109 .ok
      (plumbOut { s.port p with suspect := false })) :=
  runCmd_of_runsHere hrun rfl (by simp [hport, CmdRes.ok])

/-- R140: a commissioning in range whose output and channel are free at this end. -/
theorem execPlumbMeasure_starts {a : PlumbArgs} (hrun : RunsHere (.plumbMeasure h a) s) (hport : s.plumbPort a.port = none)
    (hfree : s.plumbCheck a.poChild a.chChild = none) (hpo : a.poChild < 4 ∧ a.poParent < 4) (hch : a.chChild < 8 ∧ a.chParent < 8)
    (hcount : 16 ≤ a.count ∧ a.count ≤ 4096) :
    execPlumbMeasure h a s = .next
      ((s.plumbTake { args := a, src := some h.src, start := roundUp (s.htNs + 10000) 1024 } a.poChild a.chChild).send a.port
        (.plumb (.plumbStart a.poParent a.chParent a.count (roundUp (s.htNs + 10000) 1024)))) := by
  have hrange : ¬ (4 ≤ a.poChild ∨ 4 ≤ a.poParent ∨ 8 ≤ a.chChild ∨ 8 ≤ a.chParent ∨ a.count < 16 ∨ 4096 < a.count) := by omega
  exact runCmd_wait_of_runsHere hrun rfl (by simp only [hport, hrange, hfree, if_false])

end

/-! ## The end of a commissioning (R115, R140) -/

/-- A commissioning that a command of this end started completes with the code, and the other end is told. -/
theorem plumbFails_of_src {s : State} {r : PlumbRun} {src : CmdSrc} (hplumb : s.tsrc.plumb = some r) (hsrc : r.src = some src) (code : St) :
    s.plumbFails code = (complete s.plumbDrop src 0x0109 code []).send r.args.port (.plumb (.plumbEnd none)) := by
  simp only [State.plumbFails, hplumb, hsrc]

section
variable {s : State} {r : PlumbRun} (hplumb : s.tsrc.plumb = some r) (hdue : r.second + (r.args.count - 1) * 1024 + 64 ≤ s.htNs)
include hplumb hdue

/-- R140: the child's end stores the asymmetry from the means of both ends. -/
theorem execPlumbComplete_child {src : CmdSrc} {mp ep dc dp : Int} (hsrc : r.src = some src) (hpeer : r.peer = some (mp, ep))
    (hext : r.args.count ≤ r.ext.1) (hgot : r.args.count ≤ r.got.1) (hdc : dc = (s.plumbMeans r).1 - ((s.plumbMeans r).2 + ep) / 2)
    (hdp : dp = mp - ((s.plumbMeans r).2 + ep) / 2) :
    ∀ t, t = (s.plumbDrop.storeAsym r.args.port ((s.port r.args.port).asym - (dc - dp) / 2)).modPort r.args.port
        (fun o => { o with theta := (dc - dp) / 2, refDelay := (dc + dp) / 2 }) →
      execPlumbComplete s = .next (complete (t.send r.args.port (.plumb (.plumbEnd (some ((s.port r.args.port).asym - (dc - dp) / 2))))) src 0x0109 .ok
        (plumbOut (t.port r.args.port))) := by
  rintro t rfl
  subst hdc hdp
  simp [execPlumbComplete, hplumb, hsrc, hpeer, Nat.not_lt.mpr hdue, Nat.not_lt.mpr hext, Nat.not_lt.mpr hgot]

/-- R140: the parent's end, which no command started, tells its means. -/
theorem execPlumbComplete_parent (hsrc : r.src = none) (hpeer : r.peer = none) (hext : r.args.count ≤ r.ext.1) (hgot : r.args.count ≤ r.got.1) :
    execPlumbComplete s = .next ({ s with tsrc := { s.tsrc with plumb := some { r with peer := some (s.plumbMeans r) } } }.send r.args.port
      (.plumb (.plumbMeans (s.plumbMeans r).1 (s.plumbMeans r).2))) := by
  simp [execPlumbComplete, hplumb, hsrc, hpeer, Nat.not_lt.mpr hdue, Nat.not_lt.mpr hext, Nat.not_lt.mpr hgot]

/-- R115: the child's end stamped fewer edges than it sent pulses, whether or not the parent's end has told its means. -/
theorem execPlumbComplete_missing {src : CmdSrc} (hsrc : r.src = some src) (hgot : r.got.1 < r.args.count) :
    execPlumbComplete s = .next (s.plumbFails .range) := by
  cases hpeer : r.peer <;> simp [execPlumbComplete, hplumb, hsrc, hpeer, Nat.not_lt.mpr hdue, hgot]

end

/-- R36: an armed step that came from above, at its effective HT. -/
theorem execHtStepApply_due {s : State} {d : Int} {eff : HT} (hstep : s.time.step = some { d := d, eff := eff }) (hdue : eff ≤ s.htNs) :
    execHtStepApply s = .next (s.stepHt d) := by
  simp [execHtStepApply, hstep, hdue]

end Sys2Proof.Machine
end

section
/-! The bring-up of a port (R25, R428, R430, R540) and its fall (R505): what each event answers. -/

namespace Sys2Proof.Machine

section
variable {s : State} {p : Nat} (hport : s.params.hasPort p = true)
include hport

/-- R540: the PHY of a port that is down, neither fenced nor under test and powered, in a block that has its keys and is at its ports' stage or later. -/
theorem execPortBringUpStart_ready (hdown : (s.port p).bring = .down) (hfence : s.portFenced p = false)
    (htest : s.test.runs.any (fun r => unitVal r.unit == s.portUnit p) = false) (hpower : s.portPowered p = true)
    (hstage : 5 ≤ s.boot.stage ∧ s.boot.stage < 8) (hkeys : s.sec.keysValid = true) :
    execPortBringUpStart p s = .next
      (((s.modPort p (fun o => { o with phyRdy := true, rxLock := 3 })).modPort p (fun o => { o with bring := .locking, held := false })).send p
        (.bringUp (s.ownIdent p))) := by
  have hready : ¬ (s.boot.stage < 5 ∨ 8 ≤ s.boot.stage) := by omega
  simp only [execPortBringUpStart, hport, hdown, hfence, htest, hpower, hkeys, hready, ne_eq, not_true_eq_false, decide_false, Bool.not_true,
    Bool.or_self, Bool.false_eq_true, if_false]

/-- R25: an identity that does not fit. -/
theorem execBringUpFlitReceive_mismatch {i : Ident} (hup : (s.port p).up = false) (hlock : (s.port p).bring = .locking) (hpeer : s.peerOk p i = false) :
    execBringUpFlitReceive p i s = .next
      (((s.holdPort p).modPort p (fun o => { o with peerMismatch := true })).record { event := 0x0200, unit := s.portUnit p }) := by
  simp [execBringUpFlitReceive, hport, hup, hlock, hpeer]

/-- R505: the PHY falls. -/
theorem execPhyDown_hasPort :
    execPhyDown p s = .next ((s.portDown p false .ok).modPort p (fun o => { o with phyRdy := false, rxLock := 0 })) := if_pos hport

end

/-! ## The identity at a Leaf (R25, R540) -/

/-- A Leaf at the place that the identity of its upper Hub gives. -/
def State.atPlace (s : State) (i : Ident) : State :=
  { s with boot := { s.boot with leafIndex := i.port, pairId := i.pairId, placeValid := true } }

/-- R141: the stored asymmetries that a peer's identity leaves: those of the port are kept only for this block's identity and the peer's. -/
def State.keepAsyms (s : State) (p : Nat) (i : Ident) : State :=
  { s with flash := { s.flash with asyms := s.flash.asyms.filter (fun e => e.1 != p || (e.2.1 == s.ownIdent p && e.2.2.1 == i)) } }

/-- R25, R540: what a fitting identity, to which no asymmetry is stored, leaves of a Leaf: its place, and a port that waits for its exchange. -/
def State.identified (s : State) (p : Nat) (i : Ident) : State :=
  (((s.atPlace i).keepAsyms p i).setAsym p 0 false).modPort p (fun o => { o with peer := some i, bring := .waiting, lastGood := s.htNs })

/-- R25, R540: a fitting identity at a Leaf, to which no asymmetry is stored. -/
theorem execBringUpFlitReceive_leaf {s : State} {p : Nat} {i : Ident} (hport : s.params.hasPort p = true) (hleaf : s.isHub = false)
    (hup : (s.port p).up = false) (hlock : (s.port p).bring = .locking) (hpeer : s.peerOk p i = true) (hnone : (s.atPlace i).storedAsym p i = none) :
    execBringUpFlitReceive p i s = .next (s.identified p i) := by
  unfold State.atPlace at hnone
  simp [execBringUpFlitReceive, State.identified, State.atPlace, State.keepAsyms, hport, hleaf, hup, hlock, hpeer, hnone]

@[simp] theorem setAsym_port (s : State) (p : Nat) (a : Int) (cal : Bool) (q : Nat) :
    (s.setAsym p a cal).port q = if q = p then { s.port p with asym := a, calibrated := cal } else s.port q :=
  State.modPort_port s p (fun o => { o with asym := a, calibrated := cal }) q

@[simp] theorem keepAsyms_port (s : State) (p : Nat) (i : Ident) (q : Nat) : (s.keepAsyms p i).port q = s.port q := rfl
@[simp] theorem atPlace_port (s : State) (i : Ident) (q : Nat) : (s.atPlace i).port q = s.port q := rfl

theorem identified_port_same (s : State) (p : Nat) (i : Ident) : (s.identified p i).port p =
    { s.port p with asym := 0, calibrated := false, peer := some i, bring := .waiting, lastGood := s.htNs } := by
  simp [State.identified]

theorem identified_port_of_ne (s : State) {p q : Nat} (i : Ident) (hq : q ≠ p) : (s.identified p i).port q = s.port q := by
  simp [State.identified, hq]

theorem identified_boot (s : State) (p : Nat) (i : Ident) : (s.identified p i).boot = (s.atPlace i).boot := rfl

/-- The rest of the state is as it was. -/
theorem identified_frame (s : State) (p : Nat) (i : Ident) : s.identified p i = { s with
    boot := (s.identified p i).boot, ports := (s.identified p i).ports, flash := (s.identified p i).flash, tsrc := (s.identified p i).tsrc } := by
  simp only [State.identified, State.modPort, State.setAsym, State.keepAsyms, State.atPlace]

/-! ## The key exchange (R428, R430) -/

/-- R428: the lowest port that waits, while fewer than 4 exchanges run. -/
theorem execKeyExchangeStart_first {s : State} {p : Nat} (hfirst : s.params.portList.find? (fun q => decide ((s.port q).bring = .waiting)) = some p)
    (hfew : s.exchanging.length < 4) :
    execKeyExchangeStart p s = .next
      ((({ s with freeCtr := s.freeCtr + 2 }).modPort p (fun o => { o with
        bring := .exchanging, nonce := Config.freeRandom s.freeCtr, share := Config.freeRandom (s.freeCtr + 1), exchStart := s.htNs })).send p
          (.exchange (Config.freeRandom s.freeCtr) (Config.pubOf (Config.freeRandom (s.freeCtr + 1))))) :=
  if_pos ⟨hfirst, hfew⟩

/-- R429, R430: the keys and salts that an exchange derives for a port, each under its label. -/
def State.exchangedKeys (s : State) (p : Nat) (x : Exchange) : PortKeys :=
  { down := Config.hkdf (s.prk p (s.port p).share (s.port p).nonce x) "DXDN" [], up := Config.hkdf (s.prk p (s.port p).share (s.port p).nonce x) "DXUP" []
    saltDown := Config.hkdf (s.prk p (s.port p).share (s.port p).nonce x) "DXSD" [] % 2 ^ 32
    saltUp := Config.hkdf (s.prk p (s.port p).share (s.port p).nonce x) "DXSU" [] % 2 ^ 32
    wrap := Config.hkdf (s.prk p (s.port p).share (s.port p).nonce x) "DXKW" [] }

/-- R430: an exchange that passes both ends of an uplink of a Leaf derives the port's keys and completes its bring-up. -/
theorem execKeyExchangeReceive_passed {s : State} {p : Nat} {x : Exchange} (hleaf : s.isHub = false) (hchord : s.params.isChord p = false)
    (hdown : s.params.isDown p = false) (hport : s.params.hasPort p = true) (hbring : (s.port p).bring = .exchanging)
    (hkeys : (s.port p).keys = none) (hpass : s.exchangeFail false x = none) :
    execKeyExchangeReceive p x true s = .next
      ((s.modPort p (fun o => { o with peerNonce := x.nonce, share := 0, keys := some (s.exchangedKeys p x) })).portComplete p) := by
  simp [execKeyExchangeReceive, State.exchangedKeys, hleaf, hchord, hdown, hport, hbring, hkeys, hpass]

end Sys2Proof.Machine
end

section
/-! What the flits that a port receives and its time-outs do (R120 to R139): the header, the sequence, timing flits, discarded flits. -/

namespace Sys2Proof.Machine

/-! ## The header and the sequence (R122, R129) -/

/-- R122: without NAK a header only acknowledges and returns credits. -/
theorem takeHeader_of_not_nak {s : State} {l : Link} (hnak : l.nak = false) :
    s.takeHeader l = s.modPort l.port (fun o => { o with
      lastGood := s.htNs, fecCorr := (o.fecCorr + l.corr) % 65536, replay := ackTo o.replay l.ack
      resend := o.resend.filter (fun f => (ackTo o.replay l.ack).any (fun x => x.1.seq == f.seq))
      seqReplays := o.seqReplays.filter (fun e => (ackTo o.replay l.ack).any (fun x => x.1.seq == e.1))
      creditCtl := o.creditCtl + l.crCtl, creditRadio := o.creditRadio + l.crRadio, creditTen := o.creditTen + l.crTen }) := by
  simp only [State.takeHeader, hnak, Bool.false_eq_true, if_false]

/-- Without NAK a header takes no port down. -/
theorem takeHeader_up_of_not_nak {s : State} {l : Link} (hnak : l.nak = false) (q : Nat) : ((s.takeHeader l).port q).up = (s.port q).up := by
  rw [takeHeader_of_not_nak hnak, State.modPort_port]
  split
  case isTrue h => rw [h]
  case isFalse => rfl

section
variable {s : State} {l : Link} (hport : s.params.hasPort l.port = true) (hup : (s.port l.port).up = true) (hnak : l.nak = false) (cls : Nat)
include hport hup hnak

/-- R129: the next flit in sequence. -/
theorem takeFlit_of_next (hnext : l.seq = (s.port l.port).rxSeq) :
    s.takeFlit l cls =
      ((s.takeHeader l).modPort l.port (fun o => { o.oweCredit cls with rxSeq := (o.rxSeq + 1) % 4096, nakPend := false, tagFailSeq := none }), true) := by
  have hahead : (l.seq + 4096 - (s.port l.port).rxSeq) % 4096 = 0 := by omega
  simp [State.takeFlit, hport, hup, takeHeader_up_of_not_nak hnak, hahead]

/-- R129: a flit ahead of the sequence. -/
theorem takeFlit_of_ahead (hne : (l.seq + 4096 - (s.port l.port).rxSeq) % 4096 ≠ 0) (hlt : (l.seq + 4096 - (s.port l.port).rxSeq) % 4096 < 2048) :
    s.takeFlit l cls = ((s.takeHeader l).requestReplay l.port, false) := by
  simp [State.takeFlit, hport, hup, takeHeader_up_of_not_nak hnak, hne, hlt]

/-- R129: a flit that came before. -/
theorem takeFlit_of_older (hold : 2048 ≤ (l.seq + 4096 - (s.port l.port).rxSeq) % 4096) : s.takeFlit l cls = (s.takeHeader l, false) := by
  have hne : (l.seq + 4096 - (s.port l.port).rxSeq) % 4096 ≠ 0 := by omega
  simp [State.takeFlit, hport, hup, takeHeader_up_of_not_nak hnak, hne, Nat.not_lt.mpr hold]

end

/-! ## Control flits (R121, R437) -/

/-- R437: what the contents of a delivered control flit do, by whether their context is open here. -/
theorem execControlFlitReceive_delivered {s t : State} {l : Link} {b : CtlBody} (c g : Nat) (hbody : b ≠ .idle) (htake : s.takeFlit l 1 = (t, true)) :
    execControlFlitReceive l c g b s = .next (if c ≠ 0 ∧ t.openCtx c g = false then t.countStale else t.control l.port b) := by
  cases b with
  | idle => exact absurd rfl hbody
  | _ =>
    simp only [execControlFlitReceive, State.received_done htake]
    split <;> rfl

/-- R126, R133: how many good timing flits in a row a port has seen with one at `t`, up to 16; a slot that was missed starts the count again. -/
def PortSt.nextRun (o : PortSt) (t : HT) : Nat := if o.lastTiming + 768 < t then 1 else satN 16 (o.timingRun + 1)

/-- R126, R136: what a port keeps of a good timing flit received at `t`, whose bit 0 was stamped `rx`: of the flits to echo the latest two. -/
def PortSt.takeTiming (o : PortSt) (t : HT) (b : TimingBody) (rx : Nat) : PortSt :=
  { o with
    lastGood := t, lastTiming := t, timingRun := o.nextRun t, peerPrimary := b.primary, peerEpoch := b.epoch, peerStatus := b.status
    echoes := (o.echoes ++ [(b.txHt, rx)]).drop ((o.echoes ++ [(b.txHt, rx)]).length - 2) }

section
variable {s : State} {l : Link} (hport : s.params.hasPort l.port = true) (hup : (s.port l.port).up = true)
include hport hup

/-- R121: of an idle flit only the header counts. -/
theorem execControlFlitReceive_idle (c g : Nat) : execControlFlitReceive l c g .idle s = .next (s.takeHeader l) := by
  simp only [execControlFlitReceive, hport, hup, Bool.and_self, if_true]

/-! ## Timing flits (R123 to R128, R136) -/

/-- R126: a tag that fails. -/
theorem execTimingFlitReceive_badTag {b : TimingBody} (x n k : Nat) (hauth : b.authOk = false) :
    execTimingFlitReceive l b x n k s = .next
      (s.modPort l.port (fun o => { o with authFail := true, authFails := (o.authFails + 1) % 65536, lastGood := s.htNs, timingRun := 0 })) := by
  simp only [execTimingFlitReceive, hport, hup, hauth, Bool.not_true, Bool.not_false, Bool.or_self, Bool.false_eq_true, if_false, if_true]

/-- R126, R136: a good flit without an echo, on a port that has too few samples to be usable for time. -/
theorem execTimingFlitReceive_noEcho {t : State} {b : TimingBody} (x n k : Nat) (hauth : b.authOk = true) (hhead : s.takeHeader l = t)
    (hstill : (t.port l.port).up = true) (hecho : b.echoTx = 0) (hfew : (t.port l.port).nSamples < 16) :
    execTimingFlitReceive l b x n k s = .next
      (((((t.modPort l.port (fun o => o.takeTiming t.htNs b (t.rxStamp l.port x n k))).modPort l.port (fun o =>
        { o with lostTiming := (t.port l.port).lostTiming && decide ((t.port l.port).nextRun t.htNs < 16), timeUsable := false })).seeEpoch l.port
          b).flushUp).refreshWord) := by
  subst hhead
  simp only [execTimingFlitReceive, hport, hup, hauth, hstill, hecho, Nat.not_le.mpr hfew, State.modPort_port, Bool.not_true, Bool.or_self,
    Bool.false_eq_true, Bool.false_and, decide_false, if_true, if_false]
  rfl

end

/-- R123, R126: the first slot of a period sends the period's timing flit. -/
theorem execTimingFlitSend_due {s : State} {p : Nat} (k : Nat) (hport : s.params.hasPort p = true) (hup : (s.port p).up = true)
    (hnew : (s.port p).lastPeriod ≠ some (s.htNs / 512)) :
    ∀ l, l = (s.port p).sentTx ++ [((s.timingBody p k).txHt, (s.timingBody p k).txHt)] →
      execTimingFlitSend p k s = .next ((s.modPort p (fun o => { o with
        lastPeriod := some (s.htNs / 512), slotPeriod := s.htNs / 512, slotNo := 0, lineAcc := 0, sentTx := l.drop (l.length - 16) })).putFlit p
          (s.mkFlit p (some (.timing (s.timingBody p k)))) false) := by
  rintro l rfl
  simp [execTimingFlitSend, hport, hup, hnew]

/-! ## Flits that are discarded (R120, R121, R133) -/

/-- R120: the codewords that the decoder corrected on a port that is up count in FEC_CORR. -/
def State.corrected (s : State) (p n : Nat) : State := s.modPort p (fun o => if o.up then { o with fecCorr := (o.fecCorr + n) % 65536 } else o)

/-- Counting corrections takes no port up or down. -/
@[simp] theorem corrected_up (s : State) (p n : Nat) : ((s.corrected p n).port p).up = (s.port p).up := by
  rw [State.corrected, State.modPort_port, if_pos rfl]
  split <;> rfl

section
variable {s : State} {p : Nat} (hport : s.params.hasPort p = true) (hup : (s.port p).up = true) {raw : List Byte} (tag : Bool) (n : Nat)
include hport hup

/-- R120: a codeword that the decoder could not correct. -/
theorem execCorruptFlitReceive_uncorrectable : execCorruptFlitReceive p raw false tag n s = .next
    (((s.corrected p n).modPort p (fun o => { o with fecUncorr := (o.fecUncorr + 1) % 65536 })).discardFlit p (rawNumbered raw)) := by
  have hup' := (corrected_up s p n).trans hup
  unfold State.corrected at hup' ⊢
  simp only [execCorruptFlitReceive, State.modPort_params, hport, hup', Bool.not_true, Bool.not_false, Bool.or_self, Bool.false_eq_true, if_false, if_true]

/-- R121: a bad CRC. -/
theorem execCorruptFlitReceive_badCrc (hcrc : crcGood raw = false) :
    execCorruptFlitReceive p raw true tag n s = .next ((s.corrected p n).discardFlit p (rawNumbered raw)) := by
  have hup' := (corrected_up s p n).trans hup
  unfold State.corrected at hup' ⊢
  simp only [execCorruptFlitReceive, State.modPort_params, hport, hup', hcrc, Bool.not_true, Bool.not_false, Bool.or_self, Bool.false_eq_true, if_false, if_true]

/-- R121: a reserved TYPE or field in a flit whose CRC holds. -/
theorem execCorruptFlitReceive_reserved (hcrc : crcGood raw = true) (hres : (s.corrected p n).reservedFlit p raw = true) :
    execCorruptFlitReceive p raw true tag n s = .next
      ((((s.corrected p n).modPort p (fun o => { o with lastGood := (s.corrected p n).htNs })).record
        { event := 0x0201, unit := (s.corrected p n).portUnit p }).discardFlit p (rawNumbered raw)) := by
  have hup' := (corrected_up s p n).trans hup
  unfold State.corrected at hup' hres ⊢
  simp only [execCorruptFlitReceive, State.modPort_params, hport, hup', hcrc, hres, Bool.not_true, Bool.or_self, Bool.false_eq_true, if_false, if_true]

end

/-! ## Time-outs and RTT_EST (R130, R138, R139) -/

section
variable {s : State} {p : Nat} (hport : s.params.hasPort p = true) (hup : (s.port p).up = true)
include hport hup

/-- R130: too long without a good flit. -/
theorem execPortNoFlitTimeout_due (hdue : (s.port p).lastGood + 16384 ≤ s.htNs) : execPortNoFlitTimeout p s = .next (s.portDown p true .ok) := by
  simp [execPortNoFlitTimeout, hport, hup, hdue]

/-- R139: 8 slots without a timing flit, on a port that still has timing or has begun to regain it. -/
theorem execPortTimingLoss_due (hdue : (s.port p).lastTiming + 4096 ≤ s.htNs) (hhas : (s.port p).lostTiming = false ∨ (s.port p).timingRun ≠ 0) :
    execPortTimingLoss p s = .next
      (((s.modPort p (fun o => { o with timeUsable := false, lostTiming := true, timingRun := 0, lostFrames := true, peerPrimary := false, source := false
        })).chooseSource).chordLoss).refreshWord := by
  have hhas' : ((s.port p).lostTiming && decide ((s.port p).timingRun = 0)) = false := by
    rcases hhas with hlost | hrun
    · rw [hlost, Bool.false_and]
    · rw [decide_eq_false hrun, Bool.and_false]
  simp only [execPortTimingLoss, hport, hup, hdue, hhas', decide_true, Bool.not_false, Bool.and_self, if_true]

/-- R138: the end of an interval of RTT_EST. -/
theorem execRttEstimateUpdate_due (hdue : (s.port p).rttAt + 1048576 ≤ s.htNs) :
    execRttEstimateUpdate p s = .next (if 1024 ≤ (s.port p).samples.length
      then (s.modPort p (fun o => { o with rttAt := s.htNs, samples := [] })).setRtt p (meanOf (s.port p).samples)
      else s.modPort p (fun o => { o with rttAt := s.htNs, samples := [] })) := by
  simp only [execRttEstimateUpdate, hport, hup, hdue, decide_true, Bool.and_self, if_true]

end

end Sys2Proof.Machine
end

section
/-! The keys of payload (R132, R435), and the updates of the servo (R143 to R148). -/

namespace Sys2Proof.Machine

/-! ## Payload keys -/

section
variable {s : State} {p : Nat} (c : Nat)

/-- R435: the parent's end puts its own nonce first. -/
theorem payloadKey_parent (hend : s.childEnd p = false) :
    s.payloadKey p c = Config.hkdf (s.slot c).key "DXLNK" [(s.port p).nonce, (s.port p).peerNonce, 0] := by
  simp only [State.payloadKey, hend, Bool.false_eq_true, if_false]

/-- R435: the child's end puts its peer's nonce first. -/
theorem payloadKey_child (hend : s.childEnd p = true) :
    s.payloadKey p c = Config.hkdf (s.slot c).key "DXLNK" [(s.port p).peerNonce, (s.port p).nonce, 1] := by
  simp only [State.payloadKey, hend, if_true]

end

section
variable {s : State} {m : TxMsg} (p : Nat)

/-- R132: payload of a context with ENC. -/
theorem mkFlit_of_enc (hpay : m.payload = true) (henc : (s.slot m.slotGen.1).enc = true) :
    (s.mkFlit p (some m)).enc = true ∧ (s.mkFlit p (some m)).auth = true ∧ (s.mkFlit p (some m)).key = s.payloadKey p m.slotGen.1 := by
  simp [State.mkFlit, hpay, henc]

/-- R132: any message of a context without ENC. -/
theorem mkFlit_enc_of_not_enc (henc : (s.slot m.slotGen.1).enc = false) : (s.mkFlit p (some m)).enc = false := by
  simp [State.mkFlit, henc]

end

/-! ## The servo -/

/-- R143: an update falls due 8,192 ns after the one before. -/
theorem execServoUpdate_due {s : State} (hdue : s.tsrc.lastUpdate + 8192 ≤ s.htNs) :
    execServoUpdate s = .next (
      if s.isHub then ((({ s.formE with tsrc := { s.formE.tsrc with lastUpdate := s.htNs } }).chooseSource.hubServo).tryPartner.inServiceNow).refreshWord
      else ((({ s.formE with tsrc := { s.formE.tsrc with lastUpdate := s.htNs } }).chooseSource.plumbMismatch).leafServo.inServiceNow).refreshWord) := by
  rw [execServoUpdate, if_neg (Nat.not_lt.mpr hdue)]
  split <;> rfl

end Sys2Proof.Machine
end

section
namespace Sys2Proof.Machine

/-- Settles O7, operation by operation and event by event. -/
theorem plumbAndHtStep : Obligations.PlumbAndHtStep := by
  unfold Obligations.PlumbAndHtStep
  refine ⟨fun h p a s hrun hport hmin hmax hidle => ⟨_, execPlumbLoad_inRange hrun hport hmin hmax hidle _ rfl, rfl⟩,
    fun h p s hrun hport => execPlumbRead_runsHere hrun hport, fun h p s hrun hport => execPlumbClearSuspect_runsHere hrun hport,
    fun h a s hrun hport hfree hpoC hpoP hchC hchP hmin hmax => execPlumbMeasure_starts hrun hport hfree ⟨hpoC, hpoP⟩ ⟨hchC, hchP⟩ ⟨hmin, hmax⟩,
    fun s r src mp ep hplumb hsrc hpeer hext hgot hdue dc dp hdc hdp =>
      ⟨_, execPlumbComplete_child hplumb hdue hsrc hpeer hext hgot hdc hdp _ rfl, rfl⟩,
    fun s r hplumb hsrc hpeer hext hgot hdue => execPlumbComplete_parent hplumb hdue hsrc hpeer hext hgot,
    fun s r src hplumb hsrc hgot hdue => ?missing, fun s d eff hstep hdue => execHtStepApply_due hstep hdue⟩
  case missing =>
    rw [← plumbFails_of_src hplumb hsrc]
    exact execPlumbComplete_missing hplumb hdue hsrc hgot

/-- Settles O22, event by event; the state that a fitting identity leaves at a Leaf is read off field by field. -/
theorem portBringUp : Obligations.PortBringUp := by
  unfold Obligations.PortBringUp
  refine ⟨fun s p hport hdown hfence htest hpower hmin hmax hkeys =>
      execPortBringUpStart_ready hport hdown hfence htest hpower ⟨hmin, hmax⟩ hkeys,
    fun s p i hport hleaf hup hlock hpeer hnone _ => ⟨_, execBringUpFlitReceive_leaf hport hleaf hup hlock hpeer hnone, ?fits⟩,
    fun s p i hport hup hlock hpeer => execBringUpFlitReceive_mismatch hport hup hlock hpeer,
    fun s p hfirst hfew => execKeyExchangeStart_first hfirst hfew,
    fun s p x hleaf hchord hdown hport hbring hkeys hpass => execKeyExchangeReceive_passed hleaf hchord hdown hport hbring hkeys hpass,
    fun s p hport => execPhyDown_hasPort hport⟩
  case fits =>
    rw [identified_port_same]
    exact ⟨rfl, rfl, rfl, rfl, identified_boot s p i, fun q hq => identified_port_of_ne s i hq, identified_frame s p i⟩

/-- Settles O23, event by event; a header is followed by the three places that a flit can have in the sequence. -/
theorem portReceivesAndTimesOut : Obligations.PortReceivesAndTimesOut := by
  unfold Obligations.PortReceivesAndTimesOut
  refine ⟨fun s l cls hport hup hnak => ⟨takeHeader_of_not_nak hnak, fun hnext _ => takeFlit_of_next hport hup hnak cls hnext,
      takeFlit_of_ahead hport hup hnak cls, takeFlit_of_older hport hup hnak cls⟩,
    fun s t l c g b hbody htake => ⟨fun hopen => ?opened, fun hc hclosed => ?closed⟩,
    fun s l c g hport hup => execControlFlitReceive_idle hport hup c g,
    fun s l b x n k hport hup hauth => execTimingFlitReceive_badTag hport hup x n k hauth,
    fun s t l b x n k p hport hup hauth hhead hp hstill hecho hfew => ?timing,
    fun s p k hport hup hnew => ⟨_, s.timingBody p k, _, execTimingFlitSend_due k hport hup hnew _ rfl, rfl, rfl, rfl, rfl, rfl, rfl⟩,
    fun s t p n raw tag hport hup ht => ?corrupt, fun s p hport hup hdue => execPortNoFlitTimeout_due hport hup hdue,
    fun s p hport hup hdue hhas => execPortTimingLoss_due hport hup hdue hhas, fun s p hport hup hdue => ?rtt, fun s hdue => ?servo⟩
  case opened =>
    have hnot : ¬ (c ≠ 0 ∧ t.openCtx c g = false) := by
      rintro ⟨hc, hclosed⟩
      rcases hopen with rfl | hopen
      · exact hc rfl
      · exact Bool.noConfusion (hopen.symm.trans hclosed)
    have hexec := execControlFlitReceive_delivered c g hbody htake
    rwa [if_neg hnot] at hexec
  case closed =>
    have hexec := execControlFlitReceive_delivered c g hbody htake
    rwa [if_pos ⟨hc, hclosed⟩] at hexec
  case timing =>
    subst hp
    exact execTimingFlitReceive_noEcho hport hup x n k hauth hhead hstill hecho hfew
  case corrupt =>
    subst ht
    exact ⟨execCorruptFlitReceive_uncorrectable hport hup tag n, execCorruptFlitReceive_badCrc hport hup tag n,
      execCorruptFlitReceive_reserved hport hup tag n⟩
  case rtt =>
    have hexec := execRttEstimateUpdate_due hport hup hdue
    refine ⟨fun hfew => ?_, fun hmany => ?_⟩
    · rwa [if_neg (Nat.not_le.mpr hfew)] at hexec
    · rwa [if_pos hmany] at hexec
  case servo =>
    have hexec := execServoUpdate_due hdue
    refine ⟨fun hleaf => ?_, fun hhub => ?_⟩
    · rwa [hleaf, if_neg Bool.false_ne_true] at hexec
    · rwa [hhub, if_pos rfl] at hexec

/-- Settles O58: the key at either end, and the flit with ENC and without. -/
theorem payloadKeys : Obligations.PayloadKeys := by
  unfold Obligations.PayloadKeys
  exact ⟨fun s p c => ⟨payloadKey_parent c, payloadKey_child c⟩, fun s p m hpay => ⟨mkFlit_of_enc p hpay, mkFlit_enc_of_not_enc p⟩⟩

end Sys2Proof.Machine
end

section
/-! The registers of a Docket queue (R160, R165): what the push words, FLUSH and RESUME answer, with and without the right to the queue. -/

namespace Sys2Proof.Machine

/-- A queue is changed only by what the change makes of its present value. -/
theorem modQueue_congr {s : State} {q : Nat} {f g : DkQueue → DkQueue} (h : f (s.queue q) = g (s.queue q)) :
    s.modQueue q f = s.modQueue q g := by
  simp only [State.modQueue, State.queue] at h ⊢
  rw [h]

section
variable {s : State} {q a : Nat}

section
variable (hleaf : s.isHub = false) (hq : q < 16) (hmay : s.dkMay q a = true)
include hleaf hq hmay

/-- R165: a Halted queue returns to service, and its head is checked again. -/
theorem execDocketResume_halted (hhalted : (s.queue q).halted = true) :
    execDocketResume q a s = .next (((s.modQueue q (fun d => { d with halted := false })).dkHead q).answer 0 false) := by
  simp [execDocketResume, hleaf, hmay, hhalted, Nat.not_le.mpr hq]

section
variable (hbound : (s.queue q).owner.isSome = true)
include hbound

/-- R165: a bound queue is emptied and forgets its last strike. -/
theorem execDocketFlush_bound : execDocketFlush q a s = .next ((s.modQueue q DkQueue.flushed).answer 0 false) := by
  simp [execDocketFlush, hleaf, hmay, Option.isNone_eq_false_iff.mpr hbound, Nat.not_le.mpr hq]

/-- R160: word 0 to 6 goes to the staging buffer. -/
theorem execDocketPushWord_staged {w : Nat} (v : Word) (hw : w < 7) :
    execDocketPushWord q w v a s = .next ((s.modQueue q (fun d => { d with staging := d.staging.set 0 w v })).answer 0 false) := by
  simp [execDocketPushWord, hleaf, hmay, Option.isNone_eq_false_iff.mpr hbound, Nat.not_le.mpr hq, Nat.not_le.mpr hw]

section
variable {v : Word}

/-- R160: a malformed entry. -/
theorem execDocketPushCommit_malformed (hbad : dkEntryOk (entryOfWords (s.queue q).staging v) (s.powerQueue q) = false) :
    execDocketPushCommit q v a s = .next (((s.answer 0 false).modQueue q (fun d => { d with pushErr := true })).dkReport q
      (dkTag (entryOfWords (s.queue q).staging v)) .range) := by
  simp [execDocketPushCommit, hleaf, hmay, Option.isNone_eq_false_iff.mpr hbound, hbad, Nat.not_le.mpr hq]

variable (hok : dkEntryOk (entryOfWords (s.queue q).staging v) (s.powerQueue q) = true)
include hok

/-- R160: a well formed entry for a full queue. -/
theorem execDocketPushCommit_full (hfull : 256 ≤ (s.queue q).entries.length) :
    execDocketPushCommit q v a s = .next (((s.answer 0 false).modQueue q (fun d => { d with pushFull := true })).dkReport q
      (dkTag (entryOfWords (s.queue q).staging v)) .busy) := by
  simp [execDocketPushCommit, hleaf, hmay, Option.isNone_eq_false_iff.mpr hbound, hok, hfull, Nat.not_le.mpr hq]

/-- R160: a well formed entry joins a queue with room; behind a head it needs no check of its own yet (R162). -/
theorem execDocketPushCommit_appended (hsome : (s.queue q).entries ≠ []) (hroom : (s.queue q).entries.length < 256) :
    execDocketPushCommit q v a s = .next ((s.answer 0 false).modQueue q (fun d =>
      { d with entries := (s.queue q).entries ++ [{ bits := entryOfWords (s.queue q).staging v }] })) := by
  rw [modQueue_congr (g := fun d => { d with entries := d.entries ++ [{ bits := entryOfWords (s.queue q).staging v }] }) rfl]
  simp [execDocketPushCommit, hleaf, hmay, Option.isNone_eq_false_iff.mpr hbound, hok, hsome, Nat.not_le.mpr hq, Nat.not_le.mpr hroom]

end
end
end

/-! Without the right to the queue each access answers an error and changes nothing else. -/

variable (hno : s.dkMay q a = false)
include hno

theorem execDocketPushWord_noRight (w : Nat) (v : Word) : execDocketPushWord q w v a s = .next (s.answer 0 true) := by
  simp [execDocketPushWord, hno]

theorem execDocketPushCommit_noRight (v : Word) : execDocketPushCommit q v a s = .next (s.answer 0 true) := by
  simp [execDocketPushCommit, hno]

theorem execDocketFlush_noRight : execDocketFlush q a s = .next (s.answer 0 true) := by
  simp [execDocketFlush, hno]

theorem execDocketResume_noRight : execDocketResume q a s = .next (s.answer 0 true) := by
  simp [execDocketResume, hno]

end

end Sys2Proof.Machine
end

section
/-! The strikes of a Docket queue (R153, R159, R161 to R163) and CMD_DOCKET_LOAD (Table 6.8). -/

namespace Sys2Proof.Machine

/-! ## Readiness and strikes -/

/-- R163: a head that is not armed is the entry to be armed next. -/
theorem nextArm_head {d : DkQueue} {e : DkEntry} {r : List DkEntry} (hentries : d.entries = e :: r) (hunarmed : e.armed = none) :
    d.nextArm = some (0, e) := by
  simp [DkQueue.nextArm, hentries, hunarmed]

/-- R162: with REL 0 and no earlier strike, STRIKE is the strike time, and it is late only when it is too near. -/
theorem strikeAt_absolute {e : BitVec 256} (h : HT) (habs : dkRel e = false) : strikeAt e h none = (dkStrike e, decide (dkStrike e < h + 16)) := by
  simp [strikeAt, habs]

section
variable {s : State} {q : Nat} {e : DkEntry} {r : List DkEntry}

section
variable (habs : dkRel e.bits = false) (hfirst : (s.queue q).lastStrike = none)
include habs hfirst

/-- R162: a head whose strike time is too near. -/
theorem dkArm_tooNear (hnear : dkStrike e.bits < s.htNs + 16) : s.dkArm q 0 e none = s.dkFail q 0 .lateStrike := by
  simp [State.dkArm, hfirst, strikeAt_absolute _ habs, hnear]

/-- R162, R163: a head whose strike time lies far enough ahead, and whose action can be taken. -/
theorem dkArm_ahead (hentries : (s.queue q).entries = e :: r) (hfar : s.htNs + 16 ≤ dkStrike e.bits)
    (haction : s.actionRefusal q e.bits = none) :
    s.dkArm q 0 e none = s.modQueue q (fun d => { d with entries := { e with armed := some (dkStrike e.bits) } :: r, relH := none }) := by
  have hsoon : ¬ dkStrike e.bits < s.htNs + 2 := Nat.not_lt.mpr (Nat.le_trans (Nat.add_le_add_left (by decide : 2 ≤ 16) _) hfar)
  have harm : s.dkArm q 0 e none = s.modQueue q (fun d =>
      { d with entries := d.entries.set 0 { e with armed := some (dkStrike e.bits) }, relH := none }) := by
    simp [State.dkArm, hfirst, strikeAt_absolute _ habs, Nat.not_lt.mpr hfar, hsoon, haction]
  rw [harm]
  exact modQueue_congr (by rw [hentries, List.set_cons_zero])

end

/-- R161: a head without a wait is ready at this tick. -/
theorem execDocketEntryReady_noWait (hleaf : s.isHub = false) (hq : q < 16) (hbound : (s.queue q).owner.isSome = true)
    (hrun : (s.queue q).halted = false) (hvalid : s.time.valid = true) (hnext : (s.queue q).nextArm = some (0, e))
    (hwait : dkWait e.bits = false) (hrel : (s.queue q).relH = none) : execDocketEntryReady q s = .next (s.dkArm q 0 e none) := by
  simp [execDocketEntryReady, hleaf, hrun, hvalid, hnext, hwait, hrel, Option.isNone_eq_false_iff.mpr hbound, Nat.not_le.mpr hq]

/-- R153, R159: an armed head without DONE strikes at its time, and the next entry becomes head. -/
theorem execDocketStrike_due {t : HT} (hleaf : s.isHub = false) (hvalid : s.time.valid = true) (hentries : (s.queue q).entries = e :: r)
    (harmed : e.armed = some t) (hdue : t ≤ s.htNs) (hdone : dkDone e.bits = false) :
    execDocketStrike q s = .next
      (((s.modQueue q (fun d => { d with entries := r, lastStrike := some t, relH := none })).act (s.queue q).slot e.bits t).dkHead q) := by
  simp [execDocketStrike, hleaf, hvalid, hentries, harmed, hdone, Nat.not_lt.mpr hdue]

end

/-! ## CMD_DOCKET_LOAD (R155, R157, R160) -/

section
variable {h : CmdHdr} {q : Nat} {o : Owner} {s : State}

/-- R155, R157: a free queue is bound with its comparators. -/
theorem execDocketBind_free {paired : Bool} (hrun : RunsHere (.docketBind h q o paired) s) (howner : s.ownerRefusal h q o = none)
    (hfree : (s.queue q).owner = none) (hcomp : s.canAlloc (if paired then 2 else 1) (s.ownerTenant o) = true) :
    ∀ t, t = (s.modQueue q (fun d => { d.unbound with owner := some o, paired := paired })).alloc (if paired then 2 else 1) (.queue q) →
      execDocketBind h q o paired s = .next (complete t h.src 0x0201 .ok (layout (t.dkOut q))) := by
  rintro t rfl
  exact runCmd_of_runsHere hrun rfl (by simp [howner, hfree, hcomp, CmdRes.ok])

/-- Table 6.8: a bound queue is unbound. -/
theorem execDocketUnbind_bound (hrun : RunsHere (.docketUnbind h q o) s) (howner : s.ownerRefusal h q o = none)
    (hbound : (s.queue q).owner = some o) :
    ∀ t, t = (s.modQueue q DkQueue.unbound).release (.queue q) →
      execDocketUnbind h q o s = .next (complete t h.src 0x0201 .ok (layout (t.dkOut q))) := by
  intro t ht
  rw [ht]
  exact runCmd_of_runsHere hrun rfl (by simp [howner, hbound, CmdRes.ok])

/-- A command that reads data over the fabric and runs here completes with what its body answers. -/
theorem runRead_of_runsHere {α : Type} {i : Instr} {inf : CmdInfo} {h : CmdHdr} {s t : State} {a : FabRead α} {c : St} {out : List Byte}
    {body : State → CmdRes} (hrun : RunsHere i s) (hrow : cmdOf i s = some (inf, h)) (hbody : body s = .done t c out) :
    runRead inf h s a body = .next (complete t h.src inf.opcode c out) := by
  obtain ⟨inf', h', hrow', hgate, hroute, hfree⟩ := hrun
  obtain ⟨rfl, rfl⟩ : inf = inf' ∧ h = h' := by simpa [hrow] using hrow'
  rw [runRead_here hroute]
  exact runCmd_done hgate hroute hfree hbody

/-- R160: entries that are well formed and fit join a queue that holds some, all together. -/
theorem execDocketLoad_appended {n : Nat} {l : List (BitVec 256)} (hrun : RunsHere (.docketLoad h q o (.ok l) n false) s)
    (howner : s.ownerRefusal h q o = none) (hbound : (s.queue q).owner = some o) (hn : 1 ≤ n ∧ n ≤ 256)
    (hok : firstBad (s.powerQueue q) 0 l = none) (hsome : (s.queue q).entries ≠ []) (hroom : (s.queue q).entries.length + l.length ≤ 256) :
    ∀ t, t = s.modQueue q (fun d => { d with entries := d.entries ++ l.map (fun e => ({ bits := e } : DkEntry)) }) →
      execDocketLoad h q o (.ok l) n false s = .next (complete t h.src 0x0201 .ok (layout (t.dkOut q))) := by
  rintro t rfl
  have hcount : ¬ (n = 0 ∨ 256 < n) := by omega
  have hfits : l.drop (256 - (s.queue q).entries.length) = [] := List.drop_eq_nil_of_le (by omega)
  exact runRead_of_runsHere hrun rfl (by simp [howner, hbound, hcount, withRead, hok, hfits, hsome, CmdRes.ok])

end

end Sys2Proof.Machine
end

section
namespace Sys2Proof.Machine

/-- Settles O9, access by access. -/
theorem docketPushAndCommit : Obligations.DocketPushAndCommit := by
  unfold Obligations.DocketPushAndCommit
  exact ⟨fun s q w v a hleaf hq hw hbound hmay => execDocketPushWord_staged hleaf hq hmay hbound v hw,
    fun s q v a hleaf hq hbound hmay hok hsome hroom =>
      execDocketPushCommit_appended hleaf hq hmay hbound hok (List.ne_nil_of_length_pos hsome) hroom,
    fun s q v a hleaf hq hbound hmay => ⟨execDocketPushCommit_malformed hleaf hq hmay hbound, execDocketPushCommit_full hleaf hq hmay hbound⟩,
    fun s q a hleaf hq hbound hmay => execDocketFlush_bound hleaf hq hmay hbound,
    fun s q a hleaf hq hhalted hmay => execDocketResume_halted hleaf hq hmay hhalted,
    fun s q w a v hno => ⟨execDocketPushWord_noRight hno w v, execDocketPushCommit_noRight hno v, execDocketFlush_noRight hno,
      execDocketResume_noRight hno⟩⟩

/-- Settles O10, event by event and operation by operation; the ready head is armed or fails by how far ahead its strike time lies. -/
theorem docketArmsAndStrikes : Obligations.DocketArmsAndStrikes := by
  unfold Obligations.DocketArmsAndStrikes
  refine ⟨fun s q e r hleaf hq hbound hrun hvalid hentries hunarmed hwait habs hrel hfirst => ?ready,
    fun s q e r t hleaf hvalid hentries harmed hdue hdone => execDocketStrike_due hleaf hvalid hentries harmed hdue hdone,
    fun h q o paired s hrun howner hfree hcomp => ⟨_, execDocketBind_free hrun howner hfree hcomp _ rfl, rfl⟩,
    fun h q n o l s hrun howner hbound hmin hmax hok hsome hroom =>
      ⟨_, execDocketLoad_appended hrun howner hbound ⟨hmin, hmax⟩ hok hsome hroom _ rfl, rfl⟩,
    fun h q o s hrun howner hbound => ⟨_, execDocketUnbind_bound hrun howner hbound _ rfl, rfl⟩⟩
  case ready =>
    have hready : exec (.docketEntryReady q) s = .next (s.dkArm q 0 e none) :=
      execDocketEntryReady_noWait hleaf hq hbound hrun hvalid (nextArm_head hentries hunarmed) hwait hrel
    rw [hready]
    refine ⟨fun hnear => ?tooNear, fun hfar haction => ?ahead⟩
    case tooNear => rw [dkArm_tooNear habs hfirst hnear]
    case ahead => rw [dkArm_ahead habs hfirst hentries hfar haction]

end Sys2Proof.Machine
end

section
/-! Frame channels and pulse outputs (R169 to R175): what an arming write, a strike, an edge, the end of a width and the commands of the
outputs answer. -/

namespace Sys2Proof.Machine

/-! ## Frame channels (R169, R170) -/

section
variable {s : State} {c : Nat} (hleaf : s.isHub = false)
include hleaf

section
variable (v : Word) (hc : c < 4) (hdirect : (s.frame c).mode = 1)
include hc hdirect

/-- R170: the write of the high strike word of a Direct channel arms it or, when the strike is too near, leaves it disarmed. -/
theorem execFrameStrikeArm_direct :
    execFrameStrikeArm c v 0 s =
      if (s.frame c).lo.toNat + v.toNat * 2 ^ 32 < s.htNs + 16 then
        .next (((s.modFrame c (fun f => { f with hi := v })).answer 0 false).modFrame c (fun f => { f with armed := none, late := true }))
      else
        .next (((s.modFrame c (fun f => { f with hi := v })).answer 0 false).modFrame c
          (fun f => { f with armed := some ((s.frame c).lo.toNat + v.toNat * 2 ^ 32), armTag := f.tag })) := by
  have hright : (s.isHub || decide (4 ≤ c) || (0 : Nat) != 0) = false := by simp [hleaf, Nat.not_le.mpr hc]
  have hframe : ((s.modFrame c (fun f => { f with hi := v })).answer 0 false).frame c = { s.frame c with hi := v } :=
    (State.modFrame_frame s c (fun f => { f with hi := v }) c).trans (if_pos rfl)
  simp only [execFrameStrikeArm, hright, hframe, hdirect, ne_eq, not_true_eq_false, Bool.false_eq_true, if_false]

end

/-- R170: the pending strike fires with the tag that the channel had when it was armed. -/
theorem execFrameDirectStrike_due {t : HT} (hvalid : s.time.valid = true) (harmed : (s.frame c).armed = some t) (hdue : t ≤ s.htNs) :
    execFrameDirectStrike c s = .next (s.fireFrame c (s.frame c).armTag t) := by
  simp [execFrameDirectStrike, hleaf, hvalid, harmed, hdue]

end

/-! ## Edges (R171 to R173) -/

section
variable {s : State} {n : Nat} (hn : n < 4)
include hn

/-- R172, R173: a Periodic output rises at the aligned instant that is due. -/
theorem execPulseEdge_due (hvalid : s.time.valid = true) (hmode : (s.po n).mode = 1) (hdue : s.edgeDue n = true) :
    ∀ r, r = ((s.htNs : Int) - s.pulsePhase n s.htNs).toNat →
      execPulseEdge n s = .next ((s.setPo n true r).modPo n (fun o => { o with fallAt := some (r + o.width), lastRise := some r })) := by
  rintro r rfl
  simp [execPulseEdge, hvalid, hmode, hdue, Nat.not_le.mpr hn]

/-- R172: an output falls when its width has passed. -/
theorem execPulseWidthEnd_due {t : HT} (hfall : (s.po n).fallAt = some t) (hdue : t ≤ s.htNs) :
    execPulseWidthEnd n s = .next ((s.setPo n false t).modPo n (fun o => { o with fallAt := none })) := by
  simp [execPulseWidthEnd, hfall, hdue, hn]

/-! ## The commands of the outputs (R171, R174, R175) -/

/-- R171, R175: a Periodic output that is turned off goes low and gives its comparator back. -/
theorem execCmdPulseConfig_off {h : CmdHdr} {a : PulseArgs} (hrun : RunsHere (.cmdPulseConfig h a) s) (htarget : a.target = .output n)
    (hoff : a.mode = 0) (hmode : (s.po n).mode = 1) :
    execCmdPulseConfig h a s = .next (complete (((s.release (.pulse n)).setPo n false s.htNs).modPo n (fun o =>
      { o with mode := 0, slot := 0, gen := 0, fallAt := none, lastRise := none })) h.src 0x0202 .ok (layout [(1, 1)])) :=
  runCmd_of_runsHere hrun rfl (by simp [htarget, State.cfgOutput, hoff, hmode, Nat.not_le.mpr hn, CmdRes.ok])

/-- The outputs that a mask of one bit names. -/
theorem bitsOf_two_pow : bitsOf (2 ^ n) 4 = [n] := by
  match n, hn with
  | 0, _ => rfl
  | 1, _ => rfl
  | 2, _ => rfl
  | 3, _ => rfl

/-- R174: a Periodic output waits for the effective HT of its new ALIGN. -/
theorem execCmdPulseAlign_one {h : CmdHdr} {eff : Nat} (hrun : RunsHere (.cmdPulseAlign h (2 ^ n) eff) s) (hahead : s.htNs + 1000000 ≤ eff)
    (hmode : (s.po n).mode = 1) :
    execCmdPulseAlign h (2 ^ n) eff s = .next (s.modPo n (fun o => { o with alignPend := some eff, alignSrc := some h.src })) := by
  have hmask : ¬ (2 ^ n = 0 ∨ 16 ≤ 2 ^ n ∨ eff < s.htNs + 1000000) := by
    have hlow : 2 ^ n < 2 ^ 4 := Nat.pow_lt_pow_right (by decide) hn
    exact not_or.mpr ⟨Nat.ne_of_gt (Nat.two_pow_pos n), not_or.mpr ⟨Nat.not_le.mpr hlow, Nat.not_lt.mpr hahead⟩⟩
  exact runCmd_wait_of_runsHere hrun rfl (by simp only [if_neg hmask, bitsOf_two_pow hn]; simp [hmode])

/-- R174: at its effective HT an output takes ALIGN from OFS, and the last of those named completes the command. -/
theorem execPulseAlignApply_last {eff : HT} {src : CmdSrc} (hhub : s.isHub = true) (hpend : (s.po n).alignPend = some eff) (hdue : eff ≤ s.htNs)
    (hsrc : (s.po n).alignSrc = some src) :
    execPulseAlignApply n s = .next (complete (s.modPo n (fun o => { o with
        align := s.time.ofs, alignPend := none, alignSrc := none, realign := o.realign || (decide (o.mode = 1) && decide (s.time.ofs - (s.po n).align ≠ 0))
        changedAt := if s.time.ofs - (s.po n).align = 0 then o.changedAt else some s.htNs })) src 0x0203 .ok
      (layout [(8, twos 64 s.time.ofs), (8, twos 64 (-(s.time.ofs - (s.po n).align)))])) := by
  simp [execPulseAlignApply, hhub, hpend, hdue, hsrc, hn]

end

end Sys2Proof.Machine
end

section
namespace Sys2Proof.Machine

/-- Settles O11, event by event and command by command. -/
theorem framesAndPulses : Obligations.FramesAndPulses := by
  unfold Obligations.FramesAndPulses
  exact ⟨fun s c v hleaf hc hdirect =>
      ⟨fun hnear => (execFrameStrikeArm_direct hleaf v hc hdirect).trans (if_pos hnear),
        fun hfar => (execFrameStrikeArm_direct hleaf v hc hdirect).trans (if_neg (Nat.not_lt.mpr hfar))⟩,
    fun s c t hleaf hvalid harmed hdue => execFrameDirectStrike_due hleaf hvalid harmed hdue,
    fun s n hn hvalid hmode hdue r hr => ⟨_, execPulseEdge_due hn hvalid hmode hdue r hr, rfl, by simp⟩,
    fun s n t hn hfall hdue => ⟨_, execPulseWidthEnd_due hn hfall hdue, rfl, by simp⟩,
    fun h n a s hrun htarget hn hoff hmode => execCmdPulseConfig_off hn hrun htarget hoff hmode,
    fun h n eff s hrun hn hahead hmode => execCmdPulseAlign_one hn hrun hahead hmode,
    fun s n eff src hn hhub hpend hdue hsrc => execPulseAlignApply_last hn hhub hpend hdue hsrc⟩

end Sys2Proof.Machine
end

section
/-! The sync window (R181 to R183): what an addition and a subtraction give, and what each access answers. -/

namespace Sys2Proof.Machine

/-- R206: the record of a failure leaves the words alone. -/
@[simp] theorem State.syncFail_word (s : State) (c vid source : Nat) (k : St) (q : Nat) : (s.syncFail c vid source k).word q = s.word q := by
  simp only [State.syncFail, State.word, State.ctxIrq_sync]
  split <;> rfl

/-! ## Additions and subtractions (R183, R185) -/

section
variable {s : State} {c vid : Nat} {e : TrEntry} {v w : Word}

/-- R183: an unpaired counter wraps, and a plain word takes a sum that fits. -/
theorem addResult_fits
    (h : e.counter = true ∧ e.role = 0 ∨ e.counter = false ∧ (s.word e.phys).toNat + v.toNat ≤ 0xFFFFFFFF) :
    s.addResult c e v = .ok (s.word e.phys + v, false) := by
  rcases h with ⟨hcounter, hrole⟩ | ⟨hplain, hfits⟩
  · simp [State.addResult, hcounter, hrole]
  · simp [State.addResult, hplain, Nat.not_lt.mpr hfits]

/-- R183: a plain word without saturation refuses a sum that does not fit. -/
theorem addResult_overflow (hplain : e.counter = false) (hbound : e.saturate = false) (hover : 0xFFFFFFFF < (s.word e.phys).toNat + v.toNat) :
    s.addResult c e v = .error .overflow := by
  simp [State.addResult, hplain, hbound, hover]

/-- R183: a plain word takes a difference that is not negative. -/
theorem subResult_fits (hfits : v.toNat ≤ (s.word e.phys).toNat) : s.subResult e v = .ok (s.word e.phys - v, false) := by
  simp [State.subResult, Nat.not_lt.mpr hfits]

/-- R183: a plain word without saturation refuses a negative difference. -/
theorem subResult_underflow (hbound : e.saturate = false) (hunder : (s.word e.phys).toNat < v.toNat) : s.subResult e v = .error .underflow := by
  simp [State.subResult, hbound, hunder]

/-- R183, R184: a result that did not saturate is stored. -/
theorem addWord_of_ok (source : Nat) (h : s.addResult c (s.tr c vid) v = .ok (w, false)) :
    s.addWord c vid v source = (s.store c (s.tr c vid).phys w, .ok) := by
  simp [State.addWord, h]

theorem subWord_of_ok (source : Nat) (h : s.subResult (s.tr c vid) v = .ok (w, false)) :
    s.subWord c vid v source = (s.store c (s.tr c vid).phys w, .ok) := by
  simp [State.subWord, h]

/-- R183, R206: a failure is recorded and stores nothing. -/
theorem addWord_of_error {k : St} (source : Nat) (h : s.addResult c (s.tr c vid) v = .error k) :
    s.addWord c vid v source = (s.syncFail c vid source k, k) := by
  simp [State.addWord, h]

theorem subWord_of_error {k : St} (source : Nat) (h : s.subResult (s.tr c vid) v = .error k) :
    s.subWord c vid v source = (s.syncFail c vid source k, k) := by
  simp [State.subWord, h]

end

/-! ## Accesses -/

section
variable {s : State} {c vid : Nat} (hleaf : s.isHub = false) (hvid : vid < 4096)
include hleaf hvid

section
variable {k : St} (hrefused : s.syncRefusal c vid = some k)
include hrefused

/-- R181: a write that is refused. -/
theorem windowWrite_refused (plainOnly : Bool) (f : State → State × St) :
    windowWrite c vid s plainOnly f = (s.syncFail c vid 0 k).answer 0 true := by
  simp [windowWrite, State.windowFail, hleaf, hrefused, Nat.not_le.mpr hvid]

/-- R181: a read that is refused, on any page. -/
theorem execSyncReadIncrement_refused {page : Nat} (hpage : page < 4) :
    execSyncReadIncrement page c vid s = .next ((s.syncFail c vid 0 k).answer 0 true) := by
  simp [execSyncReadIncrement, State.windowFail, hleaf, hrefused, Nat.not_le.mpr hvid, Nat.not_le.mpr hpage]

end

variable (hmapped : s.syncRefusal c vid = none)
include hmapped

/-- R182: what an update that succeeds leaves, for a word whose kind the page takes. -/
theorem windowWrite_of_ok {plainOnly : Bool} {f : State → State × St} {t : State} (hkind : (plainOnly && (s.tr c vid).counter) = false)
    (h : f s = (t, .ok)) : windowWrite c vid s plainOnly f = t.answer 0 false := by
  simp [windowWrite, hleaf, hmapped, hkind, h, Nat.not_le.mpr hvid]

/-- R183: what an update that fails leaves. -/
theorem windowWrite_of_failed {plainOnly : Bool} {f : State → State × St} {t : State} {k : St}
    (hkind : (plainOnly && (s.tr c vid).counter) = false) (h : f s = (t, k)) (hk : k ≠ .ok) :
    windowWrite c vid s plainOnly f = t.answer 0 true := by
  simp [windowWrite, hleaf, hmapped, hkind, h, Nat.not_le.mpr hvid]

/-- R182: page 0 sets a plain word. -/
theorem execSyncSet_plain (v : Word) (hplain : (s.tr c vid).counter = false) :
    execSyncSet c vid v s = .next ((s.store c (s.tr c vid).phys v).answer 0 false) :=
  congrArg Host.Outcome.next (windowWrite_of_ok hleaf hvid hmapped ((Bool.true_and _).trans hplain) rfl)

/-- R182: a read of pages 0 to 2. -/
theorem execSyncReadIncrement_read {page : Nat} (hpage : page < 3) :
    execSyncReadIncrement page c vid s = .next (s.answer (s.word (s.tr c vid).phys) false) := by
  simp [execSyncReadIncrement, hleaf, hmapped, Nat.not_le.mpr hvid, Nat.not_le.mpr (Nat.lt_succ_of_lt hpage), Nat.ne_of_lt hpage]

/-- R182: a read of page 3 whose increment fits. -/
theorem execSyncReadIncrement_fits
    (h : (s.tr c vid).counter = true ∧ (s.tr c vid).role = 0 ∨
      (s.tr c vid).counter = false ∧ (s.word (s.tr c vid).phys).toNat + 1 ≤ 0xFFFFFFFF) :
    execSyncReadIncrement 3 c vid s =
      .next ((s.store c (s.tr c vid).phys (s.word (s.tr c vid).phys + 1)).answer (s.word (s.tr c vid).phys) false) := by
  have hadd : s.addWord c vid 1 0 = (s.store c (s.tr c vid).phys (s.word (s.tr c vid).phys + 1), .ok) := addWord_of_ok 0 (addResult_fits h)
  simp only [execSyncReadIncrement, hleaf, hmapped, hadd, Nat.not_le.mpr hvid]
  rfl

section
variable {v : Word} (hv : v ≠ 0)
include hv

/-- R182: page 1 adds. -/
theorem execSyncAdd_fits
    (h : (s.tr c vid).counter = true ∧ (s.tr c vid).role = 0 ∨
      (s.tr c vid).counter = false ∧ (s.word (s.tr c vid).phys).toNat + v.toNat ≤ 0xFFFFFFFF) :
    execSyncAdd c vid v s = .next ((s.store c (s.tr c vid).phys (s.word (s.tr c vid).phys + v)).answer 0 false) :=
  congrArg Host.Outcome.next (windowWrite_of_ok hleaf hvid hmapped (Bool.false_and _) ((if_neg hv).trans (addWord_of_ok 0 (addResult_fits h))))

variable (hplain : (s.tr c vid).counter = false)
include hplain

/-- R182: page 2 subtracts. -/
theorem execSyncSubtract_fits (hfits : v.toNat ≤ (s.word (s.tr c vid).phys).toNat) :
    execSyncSubtract c vid v s = .next ((s.store c (s.tr c vid).phys (s.word (s.tr c vid).phys - v)).answer 0 false) :=
  congrArg Host.Outcome.next (windowWrite_of_ok hleaf hvid hmapped ((Bool.true_and _).trans hplain) ((if_neg hv).trans (subWord_of_ok 0 (subResult_fits hfits))))

variable (hbound : (s.tr c vid).saturate = false)
include hbound

/-- R183: an addition that a plain word refuses. -/
theorem execSyncAdd_overflow (hover : 0xFFFFFFFF < (s.word (s.tr c vid).phys).toNat + v.toNat) :
    execSyncAdd c vid v s = .next ((s.syncFail c vid 0 .overflow).answer 0 true) :=
  congrArg Host.Outcome.next (windowWrite_of_failed hleaf hvid hmapped (Bool.false_and _)
    ((if_neg hv).trans (addWord_of_error 0 (addResult_overflow hplain hbound hover))) (by decide))

/-- R183: a subtraction that a plain word refuses. -/
theorem execSyncSubtract_underflow (hunder : (s.word (s.tr c vid).phys).toNat < v.toNat) :
    execSyncSubtract c vid v s = .next ((s.syncFail c vid 0 .underflow).answer 0 true) :=
  congrArg Host.Outcome.next (windowWrite_of_failed hleaf hvid hmapped ((Bool.true_and _).trans hplain)
    ((if_neg hv).trans (subWord_of_error 0 (subResult_underflow hbound hunder))) (by decide))

end
end

/-- A command that stores a word and answers: what the answer, the words and the rest of the state are. -/
theorem next_store_answer {o : Out} {s : State} {c p : Nat} {v x : Word} (h : o = .next ((s.store c p v).answer x false)) :
    ∃ t, o = .next t ∧ t.rg = { rdata := x, err := false } ∧ (∀ q, t.word q = if q = p then v else s.word q) ∧
      t = { s with sync := t.sync, flt := t.flt, tx := t.tx, rg := t.rg } := by
  obtain ⟨hwords, hframe⟩ := State.store_answer s c p v x false
  exact ⟨_, h, rfl, hwords, hframe⟩

end Sys2Proof.Machine
end

section
namespace Sys2Proof.Machine

/-- Settles O12, page by page. -/
theorem syncWindowWritesTheWord : Obligations.SyncWindowWritesTheWord := by
  unfold Obligations.SyncWindowWritesTheWord
  exact ⟨fun s c vid v hleaf hvid hmapped hplain => next_store_answer (execSyncSet_plain hleaf hvid hmapped v hplain),
    fun s c vid v hleaf hvid hmapped hv hfits => next_store_answer (execSyncAdd_fits hleaf hvid hmapped hv hfits),
    fun s c vid v hleaf hvid hmapped hv hplain hfits => next_store_answer (execSyncSubtract_fits hleaf hvid hmapped hv hplain hfits),
    fun s c vid hleaf hvid hmapped hfits => next_store_answer (execSyncReadIncrement_fits hleaf hvid hmapped hfits),
    fun s page c vid hleaf hpage hvid hmapped => execSyncReadIncrement_read hleaf hvid hmapped hpage⟩

/-- Settles O13, access by access. -/
theorem syncFailuresLeaveWords : Obligations.SyncFailuresLeaveWords := by
  unfold Obligations.SyncFailuresLeaveWords
  refine ⟨fun s page c vid v k hleaf hpage hvid hrefused => ⟨fun i hi => ?refused, fun q => ?words⟩,
    fun s c vid v hleaf hvid hmapped hplain hbound hv =>
      ⟨execSyncAdd_overflow hleaf hvid hmapped hv hplain hbound, execSyncSubtract_underflow hleaf hvid hmapped hv hplain hbound⟩⟩
  case refused =>
    rcases hi with rfl | rfl | rfl | rfl
    iterate 3 exact congrArg Host.Outcome.next (windowWrite_refused hleaf hvid hrefused _ _)
    exact execSyncReadIncrement_refused hleaf hvid hrefused hpage
  case words => rw [State.answer_word, State.syncFail_word]

end Sys2Proof.Machine
end

section
/-! The wait port and the queued updates of a word (R184, R187 to R190): what a request, a time-out, a cancel and an update answer. -/

namespace Sys2Proof.Machine

section
variable {s : State} {r : WaitReq} (hleaf : s.isHub = false) (hw : r.waiter < 64) (hvid : r.vid < 4096)
  (hfree : (s.waiter r.waiter).state = 0) (hidle : (s.waiter r.waiter).abortAt = none)
include hleaf hw hvid hfree hidle

/-- R187, R188: a request for a free waiter and a mapped word. -/
theorem execWaitRequest_mapped (hmapped : s.syncRefusal r.ctx r.vid = none) :
    execWaitRequest r s = .next ((s.modWaiter r.waiter (fun x => ({
      state := 1, last := x.last, slot := r.ctx, vid := r.vid, phys := (s.tr r.ctx r.vid).phys, counter := (s.tr r.ctx r.vid).counter
      thr := r.thr, gate := r.gate, gateAt := s.cycle + 3, abortOut := x.abortOut
      deadline := if r.tmo = 0 then none else some (s.cycle + 2 + r.tmo * 1000) } : Waiter))).wake (s.tr r.ctx r.vid).phys) := by
  simp [execWaitRequest, hleaf, hmapped, hfree, hidle, Nat.not_le.mpr hw, Nat.not_le.mpr hvid, State.modWaiter]

/-- R190: a request for a free waiter that names no word that may be used. -/
theorem execWaitRequest_refused {k : St} (hrefused : s.syncRefusal r.ctx r.vid = some k) :
    execWaitRequest r s = .next (((s.modWaiter r.waiter (fun x =>
      { x with slot := r.ctx, vid := r.vid, deadline := none, abortAt := some (x.abortAt.getD (s.cycle + 3)) })).ctxIrq r.ctx 2).syncFail
        r.ctx r.vid 2 k) := by
  simp [execWaitRequest, hleaf, hrefused, hfree, hidle, Nat.not_le.mpr hw, Nat.not_le.mpr hvid]

end

section
variable {s : State} {w : Nat} (hleaf : s.isHub = false) (hw : w < 64) (hwatching : (s.waiter w).watching = true)
include hleaf hw hwatching

/-- R190: the timeout of a wait that has neither met nor been refused. -/
theorem execWaitTimeout_due {d : HT} (hdeadline : (s.waiter w).deadline = some d) (hdue : d < s.cycle) :
    execWaitTimeout w s = .next (s.endWait w 3) := by
  simp [execWaitTimeout, hleaf, hw, hwatching, hdeadline, hdue]

/-- R190, R206: the cancel of such a wait, with the right to it. -/
theorem execWaitCancel_watching {a : Nat} (hmay : s.mayUse a (s.waiter w).slot = true) :
    execWaitCancel w a s = .next ((s.endWait w 2).answer 0 false) := by
  simp [execWaitCancel, hleaf, hwatching, hmay, Nat.not_le.mpr hw]

end

/-- R184: the next update of a word that nothing has updated on this tick. -/
theorem execSyncUpdateApply_next {s : State} {p : Nat} {u : SyncUpd} (hleaf : s.isHub = false) (hunused : s.sync.used.contains p = false)
    (hnext : nextUpd s.htNs p s.sync.queue = some u) (hvalid : (s.tr u.slot u.vid).valid = true) (hphys : (s.tr u.slot u.vid).phys = p) :
    execSyncUpdateApply p s =
      .next ({ s with sync := { s.sync with queue := s.sync.queue.erase u } }.addWord u.slot u.vid u.amount u.source).1 := by
  have htr : ({ s with sync := { s.sync with queue := s.sync.queue.erase u } } : State).tr u.slot u.vid = s.tr u.slot u.vid := rfl
  simp only [execSyncUpdateApply, hleaf, hunused, hnext, htr, hvalid, hphys, beq_self_eq_true, Bool.or_false, Bool.and_true, Bool.false_eq_true,
    if_true, if_false]

end Sys2Proof.Machine
end

section
namespace Sys2Proof.Machine

/-- Settles O14, event by event. -/
theorem waitersAndQueuedUpdates : Obligations.WaitersAndQueuedUpdates := by
  unfold Obligations.WaitersAndQueuedUpdates
  exact ⟨fun s r hleaf hw hvid hmapped hfree hidle => execWaitRequest_mapped hleaf hw hvid hfree hidle hmapped,
    fun s r k hleaf hw hvid hrefused hfree hidle => execWaitRequest_refused hleaf hw hvid hfree hidle hrefused,
    fun s w d hleaf hw hdeadline hwatching hdue => execWaitTimeout_due hleaf hw hwatching hdeadline hdue,
    fun s w a hleaf hw hmay hwatching => execWaitCancel_watching hleaf hw hwatching hmay,
    fun s p u hleaf hunused hnext hvalid hphys => execSyncUpdateApply_next hleaf hunused hnext hvalid hphys⟩

end Sys2Proof.Machine
end

section
/-! CMD_SYNC_MAP and CMD_SYNC_PAIR (R162, R179, R185, R186, Table 7.6): what each operation answers where it runs. -/

namespace Sys2Proof.Machine

/-- A translation entry that is written is what is read. -/
@[simp] theorem State.setTr_tr_same (s : State) (c vid : Nat) (e : TrEntry) : (s.setTr c vid e).tr c vid = e := by
  simp [State.setTr, State.tr]

/-- A translation entry is written beside the waiters. -/
@[simp] theorem State.setTr_waiter (s : State) (c vid : Nat) (e : TrEntry) (w : Nat) : (s.setTr c vid e).waiter w = s.waiter w := rfl

/-! ## Ranges of virtual IDs -/

theorem vidsOf_one (vid : Nat) : vidsOf vid 1 = [vid] := rfl

theorem rangeOk_one {vid : Nat} (hvid : vid < 4096) : rangeOk vid 1 = true := by
  simp [rangeOk, Nat.succ_le_of_lt hvid]

/-- R186: a change of KIND touches no waiter while none waits. -/
theorem foldl_waiterKind_of_idle {s : State} (hidle : ∀ w, (s.waiter w).state = 0) (p : Nat) (counter : Bool) (l : List Nat) :
    l.foldl (fun s w =>
      if (s.waiter w).state ≠ 0 ∧ (s.waiter w).phys = p then s.modWaiter w (fun x => { x with counter := counter }) else s) s = s := by
  induction l with
  | nil => rfl
  | cons w l ih => rw [List.foldl_cons, if_neg (fun hwaits => hwaits.1 (hidle w)), ih]

/-! ## The operations -/

section
variable {h : CmdHdr} {s : State} (hclear : (s.slot h.slot).clearing = false)
include hclear

/-- R196: while no clear of the context runs, an operation has its own effect. -/
theorem syncBody_of_not_clearing (k : State → CmdRes) : syncBody h s k = k s := by
  simp [syncBody, hclear]

section
variable {vid : Nat} {counter saturate : Bool} (hvid : vid < 4096)
include hvid

/-- R179: one free virtual ID is mapped to the lowest free word. -/
theorem execSyncMap_one (hrun : RunsHere (.syncMap h vid 1 counter saturate) s) (hfree : (s.tr h.slot vid).valid = false)
    (hroom : 1 ≤ s.freeWords) {p : Nat} (hpick : pickFree s.usedWords 65536 1 0 = [p]) :
    ∀ t, t = (s.setTr h.slot vid { valid := true, phys := p, counter := counter, saturate := saturate && !counter }).setWord p 0 →
      execSyncMap h vid 1 counter saturate s = .next (complete t h.src 0x0301 .ok (freeOut t)) := by
  rintro t rfl
  exact runCmd_of_runsHere hrun rfl
    (by simp [syncBody_of_not_clearing hclear, rangeOk_one hvid, vidsOf_one, hfree, Nat.ne_of_gt hroom, hpick, CmdRes.ok])

/-- R186: KIND and BOUND of one mapped word outside a pair, on which no waiter waits; the word is compared anew. -/
theorem execSyncSetMode_one (hrun : RunsHere (.syncSetMode h vid 1 counter saturate) s) (hvalid : (s.tr h.slot vid).valid = true)
    (hrole : (s.tr h.slot vid).role = 0) (hidle : ∀ w, (s.waiter w).state = 0) :
    ∀ t, t = ((s.setTr h.slot vid { s.tr h.slot vid with counter := counter, saturate := saturate && !counter }).wake
        (s.tr h.slot vid).phys).arrivals h.slot (s.tr h.slot vid).phys →
      execSyncSetMode h vid 1 counter saturate s = .next (complete t h.src 0x0301 .ok (freeOut t)) := by
  intro t ht
  rw [ht]
  refine runCmd_of_runsHere hrun rfl ?_
  rw [syncBody_of_not_clearing hclear]
  simp only [rangeOk_one hvid, vidsOf_one, List.any_cons, List.any_nil, List.foldl_cons, List.foldl_nil, hvalid, hrole]
  rw [foldl_waiterKind_of_idle (fun w => by rw [State.setTr_waiter, hidle])]
  simp [CmdRes.ok]

end

section
variable {first n : Nat} (hrange : rangeOk first n = true)
include hrange

/-- Table 7.6, R162: a range outside pairs is unmapped, and the queues of the context are checked again. -/
theorem execSyncUnmap_mapped (hrun : RunsHere (.syncUnmap h first n) s)
    (hmapped : (vidsOf first n).any (fun v => !(s.tr h.slot v).valid || (s.tr h.slot v).role != 0) = false) :
    ∀ t, t = ((vidsOf first n).foldl (fun s v => s.setTr h.slot v {}) s).recheckQueues h.slot →
      execSyncUnmap h first n s = .next (complete t h.src 0x0301 .ok (freeOut t)) := by
  intro t ht
  rw [ht]
  exact runCmd_of_runsHere hrun rfl (by
    simp only [syncBody_of_not_clearing hclear, hrange, hmapped, Bool.not_true, Bool.or_false, Bool.false_eq_true, if_false, CmdRes.ok])

/-- Table 7.6: the entries of a range and the free words. -/
theorem execSyncMapRead_inRange (hrun : RunsHere (.syncMapRead h first n) s) :
    execSyncMapRead h first n s = .next (complete s h.src 0x0301 .ok
      (layout ((vidsOf first n).flatMap (fun v => entryOut (s.tr h.slot v)) ++ [(4, s.freeWords)]))) :=
  runCmd_of_runsHere hrun rfl (by simp [syncBody_of_not_clearing hclear, hrange, CmdRes.ok])

end

section
variable {p c : Nat} (hp : p < 4096) (hc : c < 4096) (hvalidP : (s.tr h.slot p).valid = true) (hvalidC : (s.tr h.slot c).valid = true)
include hp hc hvalidP hvalidC

/-- R185: two different counter words outside pairs become a pair, and both are set to 0. -/
theorem execSyncPairDefine_counters {n : Nat} (hrun : RunsHere (.syncPairDefine h p c n) s) (hne : p ≠ c) (hn : 1 ≤ n ∧ n ≤ 0x7FFFFFFF)
    (hcounterP : (s.tr h.slot p).counter = true) (hcounterC : (s.tr h.slot c).counter = true) (hroleP : (s.tr h.slot p).role = 0)
    (hroleC : (s.tr h.slot c).role = 0) :
    execSyncPairDefine h p c n s = .next (complete
      ((((s.setTr h.slot p { s.tr h.slot p with role := 1, partner := c, limit := n }).setTr h.slot c
          { s.tr h.slot c with role := 2, partner := p, limit := n }).store h.slot (s.tr h.slot p).phys 0).store h.slot (s.tr h.slot c).phys 0)
        h.src 0x0302 .ok []) :=
  runCmd_of_runsHere hrun rfl (by
    simp [syncBody_of_not_clearing hclear, Nat.not_le.mpr hp, Nat.not_le.mpr hc, hvalidP, hvalidC, hne, Nat.ne_of_gt hn.1,
      Nat.not_lt.mpr hn.2, hcounterP, hcounterC, hroleP, hroleC, CmdRes.ok])

/-- R185: the two words of a pair leave it. -/
theorem execSyncPairDelete_pair (hrun : RunsHere (.syncPairDelete h p c) s) (hroleP : (s.tr h.slot p).role = 1)
    (hroleC : (s.tr h.slot c).role = 2) (hpartner : (s.tr h.slot p).partner = c) :
    execSyncPairDelete h p c s = .next (complete
      ((s.setTr h.slot p { s.tr h.slot p with role := 0, partner := 0, limit := 0 }).setTr h.slot c
        { s.tr h.slot c with role := 0, partner := 0, limit := 0 }) h.src 0x0302 .ok []) :=
  runCmd_of_runsHere hrun rfl (by
    simp [syncBody_of_not_clearing hclear, Nat.not_le.mpr hp, Nat.not_le.mpr hc, hvalidP, hvalidC, hroleP, hroleC, hpartner, CmdRes.ok])

end
end

end Sys2Proof.Machine
end

section
namespace Sys2Proof.Machine

/-- Settles O15, operation by operation. -/
theorem syncCommands : Obligations.SyncCommands := by
  unfold Obligations.SyncCommands
  exact ⟨fun h vid k b s hrun hclear hvid hfree hroom p hpick => ⟨_, execSyncMap_one hclear hvid hrun hfree hroom hpick _ rfl, rfl⟩,
    fun h first n s hrun hclear hrange hmapped => ⟨_, execSyncUnmap_mapped hclear hrange hrun hmapped _ rfl, rfl⟩,
    fun h first n s hrun hclear hrange => execSyncMapRead_inRange hclear hrange hrun,
    fun h vid k b s hrun hclear hvid hvalid hrole hidle => ⟨_, execSyncSetMode_one hclear hvid hrun hvalid hrole hidle _ rfl, rfl⟩,
    fun h p c n s hrun hclear hp hc hne hmin hmax hvalidP hvalidC hcounterP hcounterC hroleP hroleC =>
      execSyncPairDefine_counters hclear hp hc hvalidP hvalidC hrun hne ⟨hmin, hmax⟩ hcounterP hcounterC hroleP hroleC,
    fun h p c s hrun hclear hp hc hvalidP hvalidC hroleP hroleC hpartner =>
      execSyncPairDelete_pair hclear hp hc hvalidP hvalidC hrun hroleP hroleC hpartner⟩

end Sys2Proof.Machine
end

section
/-! Barriers (R197 to R205): what an arrival and a release answer, which releases fire, and the commands of a barrier's definition. -/

namespace Sys2Proof.Machine

/-! ## Arrivals (R199) -/

/-- R199: an arrival from a child of the barrier's plan. -/
theorem execBarrierArrivalReceive_taken {s0 s : State} {l : Link} {c g id : Nat} {b : HBar} (n : Nat) (d : Option Nat)
    (htake : s0.takeFlit l 1 = (s, true)) (hdown : s.params.isDown l.port = true) (hup : (s.port l.port).up = true)
    (hopen : s.openCtx c g = true) (hbar : s.hbar c id = some b)
    (hkid : (s.kidsOf c b.d.spanTier b.d.mask).contains (s.portChild l.port) = true) :
    execBarrierArrivalReceive l c g id n d s0 = .next
      (((s.setHbar c id (some (b.setInst { b.inst n with
          arrived := addNew (b.inst n).arrived (s.portChild l.port), ds := (b.inst n).ds.set 0 (s.portChild l.port) (d.getD 0) }))).mirror
        (.barrierArrival c g id n (s.portChild l.port) d)).completeInst c id n) := by
  rw [execBarrierArrivalReceive, State.received_done htake]
  simp only [hdown, hup, hopen, hbar, hkid, Bool.not_true, Bool.or_false, Bool.false_eq_true, if_false]

/-! ## Releases (R201, R202) -/

/-- A barrier that is written is what is read. -/
@[simp] theorem State.setLbar_lbar_same (s : State) (c id : Nat) (b : Option LBar) : (s.setLbar c id b).lbar c id = b := by
  simp [State.setLbar, State.lbar]

/-- R202: the first release of a barrier, in time, enters the release table. -/
theorem leafRelease_first {s : State} {c id n : Nat} {t : HT} {b : LBar} (port g : Nat) (hbar : s.lbar c id = some b) (hfirst : b.lastInst = none)
    (htime : s.htNs + 4 ≤ t) :
    s.leafRelease port c g id n t = { s.setLbar c id (some { b with lastInst := some n, lastS := t }) with
      sync := { (s.setLbar c id (some { b with lastInst := some n, lastS := t })).sync with
        rels := s.sync.rels ++
          [({ slot := c, gen := g, id := id, inst := n, s := t, fireAt := t, port := port, rid := b.d.releaseId, launch := b.d.launch } : Rel)] } } := by
  simp [State.leafRelease, hbar, hfirst, Nat.not_lt.mpr htime, State.setLbar]

/-- R201: a release that reaches a Leaf from above. -/
theorem execBarrierReleaseReceive_leaf {s0 s : State} {l : Link} {c g : Nat} (id n : Nat) (t : HT) (htake : s0.takeFlit l 1 = (s, true))
    (hleaf : s.isHub = false) (hport : s.params.hasPort l.port = true) (habove : s.params.isDown l.port = false)
    (hup : (s.port l.port).up = true) (hopen : s.openCtx c g = true) :
    execBarrierReleaseReceive l c g id n t s0 = .next (s.leafRelease l.port c g id n t) := by
  rw [execBarrierReleaseReceive, State.received_done htake]
  simp only [hleaf, hport, habove, hup, hopen, Bool.not_true, Bool.or_false, Bool.false_eq_true, if_false]

/-- R202: the one release of the table fires when its tick has come. -/
theorem execBarrierReleaseFire_one {s : State} {r : Rel} (hleaf : s.isHub = false) (hvalid : s.time.valid = true) (hrels : s.sync.rels = [r])
    (hdue : r.fireAt ≤ s.htNs) : execBarrierReleaseFire s = .next (({ s with sync := { s.sync with rels := [] } }).fireRelease r) := by
  simp [execBarrierReleaseFire, hrels, firstS, hleaf, hvalid, Nat.not_lt.mpr hdue]

/-! ## Definition and deletion (R197, R205) -/

/-- R197: a well formed barrier of this tier is distributed. -/
theorem execCmdBarrierDefine_wellFormed {h : CmdHdr} {d : BarrierDef} {s : State} (hrun : RunsHere (.cmdBarrierDefine h d) s)
    (hok : barDefOk d = true) (htier : d.spanTier = s.tier) :
    execCmdBarrierDefine h d s = .next (s.distBegin (.barrierDefine h.slot h.gen d) h.src none [] none) :=
  runCmd_wait_of_runsHere hrun rfl (by simp [hok, htier])

/-- R205: a barrier of this tier without an open instance is deleted. -/
theorem execCmdBarrierDelete_idle {h : CmdHdr} {id : Nat} {b : HBar} {s : State} (hrun : RunsHere (.cmdBarrierDelete h id) s)
    (hbar : s.hbar h.slot id = some b) (hid : id < 64) (htier : b.d.spanTier = s.tier) (hidle : s.instOpen b = false) :
    execCmdBarrierDelete h id s = .next (complete (s.hubDelBar h.slot id) h.src 0x0304 .ok (layout [(4, b.completed)])) :=
  runCmd_of_runsHere hrun rfl (by simp [hbar, htier, hidle, Nat.not_le.mpr hid, CmdRes.ok])

end Sys2Proof.Machine
end

section
namespace Sys2Proof.Machine

/-- Settles O16, message by message and command by command; what the first release leaves at a Leaf is read off the release table. -/
theorem barrierMessagesAndCommands : Obligations.BarrierMessagesAndCommands := by
  unfold Obligations.BarrierMessagesAndCommands
  refine ⟨fun s0 s l c g id n d b htake hdown hup hopen hbar hkid => execBarrierArrivalReceive_taken n d htake hdown hup hopen hbar hkid,
    fun s0 s l c g id n t b htake hleaf hport habove hup hopen hbar hfirst htime =>
      ⟨_, execBarrierReleaseReceive_leaf id n t htake hleaf hport habove hup hopen, ?release⟩,
    fun s r hleaf hvalid hrels hdue => execBarrierReleaseFire_one hleaf hvalid hrels hdue,
    fun h d s hrun hok htier => execCmdBarrierDefine_wellFormed hrun hok htier,
    fun h id b s hrun hbar hid htier hidle => execCmdBarrierDelete_idle hrun hbar hid htier hidle⟩
  case release =>
    rw [leafRelease_first l.port g hbar hfirst htime]
    exact ⟨State.setLbar_lbar_same s c id (some { b with lastInst := some n, lastS := t }), rfl, fun q => rfl, rfl⟩

end Sys2Proof.Machine
end

section
/-! Limbs (R214 to R217): what an addition, a carry step and a resolution do to N and to the GUARDs. -/

namespace Sys2Proof.Machine

/-! ## Bounds of the GUARDs (Table 8.4) -/

theorem limbsWithin_cons {g : Int} {a : BitVec 40} {r : List (BitVec 40)} :
    limbsWithin g (a :: r) = true ↔ (-(g * 4294967296) ≤ limbInt a ∧ limbInt a < g * 4294967296) ∧ limbsWithin g r = true := by
  simp [limbsWithin]

theorem limbsWithin_mono {g g' : Int} {l : List (BitVec 40)} (hle : g ≤ g') (hl : limbsWithin g l = true) : limbsWithin g' l = true := by
  simp only [limbsWithin, List.all_eq_true, Bool.and_eq_true, decide_eq_true_eq] at hl ⊢
  intro x hx
  have := hl x hx
  omega

/-! ## Addition of pieces (R215) -/

/-- The integer (−1)^neg × n. -/
def signed (neg : Bool) (n : Nat) : Int := if neg then -(n : Int) else n

@[simp] theorem signed_false (n : Nat) : signed false n = n := rfl

@[simp] theorem signed_true (n : Nat) : signed true n = -(n : Int) := rfl

theorem Term.units_eq_signed (t : Term) : t.units = signed t.neg (t.m * 2 ^ (t.k + 149).toNat) := rfl

theorem signed_add_limb (neg : Bool) (m n : Nat) : signed neg (m + 4294967296 * n) = signed neg m + 4294967296 * signed neg n := by
  cases neg
  · rw [signed_false, signed_false, signed_false]
    omega
  · rw [signed_true, signed_true, signed_true]
    omega

/-- A limb that takes one piece stays in the 40 bits while its GUARD lies within -127 to +126. -/
theorem limbInt_addPiece (neg : Bool) (n : Nat) {a : BitVec 40} (hlo : -(127 * 4294967296) ≤ limbInt a) (hhi : limbInt a < 127 * 4294967296) :
    limbInt (if neg then a - BitVec.ofNat 40 (n % 2 ^ 32) else a + BitVec.ofNat 40 (n % 2 ^ 32)) = limbInt a + signed neg (n % 2 ^ 32) := by
  have hpiece := piece_toInt n
  unfold limbInt at *
  cases neg
  · rw [if_neg Bool.false_ne_true, limb_add] <;> rw [hpiece]
    · rfl
    all_goals omega
  · rw [if_pos rfl, limb_sub] <;> rw [hpiece]
    · rfl
    all_goals omega

@[simp] theorem addPieces_length (neg : Bool) (n : Nat) (l : List (BitVec 40)) : (addPieces neg n l).length = l.length := by
  induction l generalizing n with
  | nil => rfl
  | cons a r ih => simp [addPieces, ih]

/-- R215: the pieces of a number add to N what the limbs have room for. -/
theorem limbsN_addPieces (neg : Bool) (n : Nat) {l : List (BitVec 40)} (hl : limbsWithin 127 l = true) :
    limbsN (addPieces neg n l) = limbsN l + signed neg (n % 2 ^ (32 * l.length)) := by
  induction l generalizing n with
  | nil => cases neg <;> simp [addPieces, limbsN, Nat.mod_one]
  | cons a r ih =>
    obtain ⟨⟨hlo, hhi⟩, hr⟩ := limbsWithin_cons.mp hl
    have hsplit : n % 2 ^ (32 * (r.length + 1)) = n % 2 ^ 32 + 4294967296 * (n / 2 ^ 32 % 2 ^ (32 * r.length)) := by
      rw [Nat.mul_succ, Nat.add_comm, Nat.pow_add, Nat.mod_mul]
    rw [addPieces, limbsN, limbsN, limbInt_addPiece neg n hlo hhi, ih (n / 2 ^ 32) hr, List.length_cons, hsplit, signed_add_limb]
    omega

/-- R216: the pieces of a number raise or lower a GUARD by at most 1. -/
theorem limbsWithin_addPieces (neg : Bool) (n : Nat) {g : Int} (hg : g ≤ 127) {l : List (BitVec 40)} (hl : limbsWithin g l = true) :
    limbsWithin (g + 1) (addPieces neg n l) = true := by
  induction l generalizing n with
  | nil => rfl
  | cons a r ih =>
    obtain ⟨⟨hlo, hhi⟩, hr⟩ := limbsWithin_cons.mp hl
    refine limbsWithin_cons.mpr ⟨?_, ih _ hr⟩
    rw [limbInt_addPiece neg n (by omega) (by omega)]
    cases neg
    · rw [signed_false]
      omega
    · rw [signed_true]
      omega

/-! ## The carry step (R216) -/

theorem limbGuard_within {g : Int} {a : BitVec 40} (hlo : -(g * 4294967296) ≤ limbInt a) (hhi : limbInt a < g * 4294967296) :
    -g ≤ limbGuard a ∧ limbGuard a < g := by
  unfold limbGuard limbInt at *
  omega

/-- A limb is its VALUE and its GUARD (Table 8.4). -/
theorem limbInt_eq_value_add_guard (a : BitVec 40) : limbInt a = limbInt (a &&& 0xFFFFFFFF#40) + 4294967296 * limbGuard a := by
  rw [limbInt, limbInt, limbGuard, value_toInt]
  omega

/-- A limb that takes the GUARD of the limb below it stays in the 40 bits. -/
theorem limbInt_add_guard {a b : BitVec 40} (ha : -127 ≤ limbGuard a ∧ limbGuard a < 127) (hlo : -(127 * 4294967296) ≤ limbInt b)
    (hhi : limbInt b < 127 * 4294967296) : limbInt (b + BitVec.ofInt 40 (limbGuard a)) = limbInt b + limbGuard a := by
  have hguard : (BitVec.ofInt 40 (limbGuard a)).toInt = limbGuard a := ofInt_toInt (by omega) (by omega)
  unfold limbInt at *
  rw [limb_add] <;> rw [hguard] <;> omega

theorem carryStep_of_marked {a b : BitVec 40} {r : List (BitVec 40)} (hmark : 64 ≤ limbGuard a ∨ limbGuard a ≤ -64) :
    carryStep (a :: b :: r) = (a &&& 0xFFFFFFFF#40) :: (b + BitVec.ofInt 40 (limbGuard a)) :: r := by
  rw [carryStep, if_pos hmark]

theorem carryStep_of_not_marked {a b : BitVec 40} {r : List (BitVec 40)} (hmark : ¬ (64 ≤ limbGuard a ∨ limbGuard a ≤ -64)) :
    carryStep (a :: b :: r) = a :: carryStep (b :: r) := by
  rw [carryStep, if_neg hmark]

theorem carryStep_of_short {l : List (BitVec 40)} (hshort : ∀ a b r, l = a :: b :: r → False) : carryStep l = l := by
  rw [carryStep]
  exact hshort

@[simp] theorem carryStep_length (l : List (BitVec 40)) : (carryStep l).length = l.length := by
  induction l using carryStep.induct with
  | case1 a b r hmark => simp [carryStep_of_marked hmark]
  | case2 a b r hmark ih => simpa [carryStep_of_not_marked hmark] using ih
  | case3 l hshort => rw [carryStep_of_short hshort]

/-- R216: a carry step leaves N alone. -/
theorem limbsN_carryStep {l : List (BitVec 40)} (hl : limbsWithin 127 l = true) : limbsN (carryStep l) = limbsN l := by
  induction l using carryStep.induct with
  | case1 a b r hmark =>
    obtain ⟨⟨hlo, hhi⟩, hbr⟩ := limbsWithin_cons.mp hl
    obtain ⟨⟨hblo, hbhi⟩, -⟩ := limbsWithin_cons.mp hbr
    rw [carryStep_of_marked hmark, limbsN, limbsN, limbsN, limbsN, limbInt_add_guard (limbGuard_within hlo hhi) hblo hbhi,
      limbInt_eq_value_add_guard a]
    omega
  | case2 a b r hmark ih =>
    rw [carryStep_of_not_marked hmark, limbsN, ih (limbsWithin_cons.mp hl).2]
    rfl
  | case3 l hshort => rw [carryStep_of_short hshort]

/-- R216: a carry step raises or lowers a GUARD by at most 1. -/
theorem limbsWithin_carryStep {g : Int} (hmin : 1 ≤ g) (hmax : g ≤ 127) {l : List (BitVec 40)} (hl : limbsWithin g l = true) :
    limbsWithin (g + 1) (carryStep l) = true := by
  induction l using carryStep.induct with
  | case1 a b r hmark =>
    obtain ⟨⟨hlo, hhi⟩, hbr⟩ := limbsWithin_cons.mp hl
    obtain ⟨⟨hblo, hbhi⟩, hr⟩ := limbsWithin_cons.mp hbr
    have hguard := limbGuard_within hlo hhi
    have hvalue := value_toInt a
    rw [carryStep_of_marked hmark]
    refine limbsWithin_cons.mpr ⟨?_, limbsWithin_cons.mpr ⟨?_, limbsWithin_mono (by omega) hr⟩⟩
    · unfold limbInt
      omega
    · rw [limbInt_add_guard (by omega) (by omega) (by omega)]
      omega
  | case2 a b r hmark ih =>
    obtain ⟨⟨hlo, hhi⟩, hbr⟩ := limbsWithin_cons.mp hl
    rw [carryStep_of_not_marked hmark]
    exact limbsWithin_cons.mpr ⟨by omega, ih hbr⟩
  | case3 l hshort =>
    rw [carryStep_of_short hshort]
    exact limbsWithin_mono (by omega) hl

/-! ## An addend (R210, R215, R216) -/

theorem Term.addend_iff {t : Term} : t.addend = true ↔ t.kind = .fin ∧ -149 ≤ t.k ∧ t.m * 2 ^ (t.k + 149).toNat < 2 ^ 277 := by
  simp only [Term.addend, Bool.and_eq_true, decide_eq_true_eq, and_assoc]

theorem Elem.add_of_not_fin {e : Elem} {t : Term} (hkind : t.kind ≠ .fin) : e.add t = e.setFlag (fwNote e.flag t.kind) := if_pos hkind

theorem Elem.add_of_fin {e : Elem} {t : Term} (hkind : t.kind = .fin) :
    e.add t = { e with limbs := carryStep (addPieces t.neg (t.m * 2 ^ (t.k + 149).toNat) e.limbs) } := if_neg (not_not_intro hkind)

section
variable {e : Elem} {t : Term} (ht : t.addend = true)
include ht

theorem Elem.add_limbs_length : (e.add t).limbs.length = e.limbs.length := by
  simp [Elem.add_of_fin (Term.addend_iff.mp ht).1]

theorem Elem.add_flag : (e.add t).flag = e.flag := by rw [Elem.add_of_fin (Term.addend_iff.mp ht).1]

theorem Elem.add_flag2 : (e.add t).flag2 = e.flag2 := by rw [Elem.add_of_fin (Term.addend_iff.mp ht).1]

/-- R216: an addition with the carry step after it raises or lowers a GUARD by at most 2. -/
theorem Elem.limbsWithin_add {g : Int} (hmin : 1 ≤ g) (hmax : g ≤ 126) (hl : limbsWithin g e.limbs = true) :
    limbsWithin (g + 2) (e.add t).limbs = true := by
  rw [Elem.add_of_fin (Term.addend_iff.mp ht).1, show g + 2 = g + 1 + 1 by omega]
  exact limbsWithin_carryStep (by omega) (by omega) (limbsWithin_addPieces _ _ (by omega) hl)

/-- R215: an addition with the carry step after it adds the term's value to N; ten limbs have room for every addend. -/
theorem Elem.add_n (hlen : e.limbs.length = 10) (hl : limbsWithin 126 e.limbs = true) : (e.add t).n = e.n + t.units := by
  obtain ⟨hkind, -, hsize⟩ := Term.addend_iff.mp ht
  have hroom : t.m * 2 ^ (t.k + 149).toNat < 2 ^ (32 * e.limbs.length) :=
    Nat.lt_trans hsize (Nat.pow_lt_pow_right (by decide) (by omega))
  rw [Elem.add_of_fin hkind, Elem.n, Elem.n, limbsN_carryStep (limbsWithin_addPieces _ _ (by decide) hl),
    limbsN_addPieces _ _ (limbsWithin_mono (by decide) hl), Nat.mod_eq_of_lt hroom, Term.units_eq_signed]

end

/-! ## Products (R211) -/

/-- A quotient rounded to nearest is at most one above the quotient rounded down. -/
theorem rneShift_le (m sh : Nat) : rneShift m sh ≤ m + 1 := by
  have hquot : m / 2 ^ sh ≤ m := Nat.div_le_self m (2 ^ sh)
  simp only [rneShift]
  split <;> omega

/-- R208: what is below 2^128 and has an exponent of at least -149 is below 2^277 in units of 2^-149. -/
theorem scaled_lt_of_log2 {m : Nat} {k : Int} (hk : -149 ≤ k) (hsize : ¬ (m ≠ 0 ∧ (m.log2 : Int) + k ≥ 128)) :
    m * 2 ^ (k + 149).toNat < 2 ^ 277 := by
  rcases Nat.eq_zero_or_pos m with rfl | hm
  · rw [Nat.zero_mul]
    exact Nat.two_pow_pos 277
  · have hexp : m.log2 + 1 + (k + 149).toNat ≤ 277 := by omega
    calc m * 2 ^ (k + 149).toNat < 2 ^ (m.log2 + 1) * 2 ^ (k + 149).toNat :=
          Nat.mul_lt_mul_of_pos_right Nat.lt_log2_self (Nat.two_pow_pos _)
      _ = 2 ^ (m.log2 + 1 + (k + 149).toNat) := (Nat.pow_add ..).symm
      _ ≤ 2 ^ 277 := Nat.pow_le_pow_right (by decide) hexp

theorem infKind_ne_fin (neg : Bool) : (if neg then TermKind.ninf else TermKind.pinf) ≠ .fin := by
  cases neg <;> decide

/-- R211: a finite product is rounded to the exponent -149 or kept exactly. -/
theorem mulTerm_of_fin {a b : Term} (hfin : (mulTerm a b).1.kind = .fin) :
    ((mulTerm a b).1.k = -149 ∧ (mulTerm a b).1.m ≤ a.m * b.m + 1) ∨
    (-149 ≤ a.k + b.k ∧ ¬ (a.m * b.m ≠ 0 ∧ ((a.m * b.m).log2 : Int) + (a.k + b.k) ≥ 128) ∧
      (mulTerm a b).1.k = a.k + b.k ∧ (mulTerm a b).1.m = a.m * b.m) := by
  unfold mulTerm at hfin ⊢
  dsimp only at hfin ⊢
  split at hfin
  case isTrue => cases hfin
  case isFalse hnan =>
  rw [if_neg hnan]
  split at hfin
  case isTrue =>
    dsimp only at hfin
    split at hfin
    · cases hfin
    · exact absurd hfin (infKind_ne_fin _)
  case isFalse hinf =>
  rw [if_neg hinf]
  split at hfin
  case isTrue => exact absurd hfin (infKind_ne_fin _)
  case isFalse hsize =>
  rw [if_neg hsize]
  split
  case isTrue =>
    refine .inl ⟨rfl, ?_⟩
    dsimp only
    split
    · exact Nat.zero_le _
    · exact rneShift_le _ _
  case isFalse hk => exact .inr ⟨by omega, hsize, rfl, rfl⟩

/-- R211, R208: a finite product is an addend, whether it is exact, rounded under TINY or 0. -/
theorem mulTerm_addend {a b : Term} (hm : a.m * b.m < 2 ^ 64) (hfin : (mulTerm a b).1.kind = .fin) : (mulTerm a b).1.addend = true := by
  refine Term.addend_iff.mpr ⟨hfin, ?_⟩
  rcases mulTerm_of_fin hfin with ⟨hk, hround⟩ | ⟨hk, hsize, hkeq, hmeq⟩
  · rw [hk]
    refine ⟨Int.le_refl _, ?_⟩
    calc (mulTerm a b).1.m * 2 ^ ((-149 : Int) + 149).toNat = (mulTerm a b).1.m := Nat.mul_one _
      _ ≤ 2 ^ 64 := Nat.le_trans hround hm
      _ < 2 ^ 277 := Nat.pow_lt_pow_right (by decide) (by decide)
  · rw [hkeq, hmeq]
    exact ⟨hk, scaled_lt_of_log2 hk hsize⟩

/-! ## Resolution (R217) -/

@[simp] theorem resolveFrom_single (c : Int) (a : BitVec 40) : resolveFrom c [a] = [BitVec.ofInt 40 (limbInt a + c)] := rfl

/-- R217: a carry of at most one GUARD unit moves on from a limb whose GUARD lies within -127 to +126. -/
theorem resolveFrom_cons {c : Int} (hc : -4294967296 ≤ c ∧ c ≤ 4294967296) {a b : BitVec 40} {r : List (BitVec 40)}
    (hlo : -(127 * 4294967296) ≤ limbInt a) (hhi : limbInt a < 127 * 4294967296) :
    resolveFrom c (a :: b :: r) =
      BitVec.ofInt 40 ((limbInt a + c) % 4294967296) :: resolveFrom ((limbInt a + c) / 4294967296) (b :: r) := by
  simp only [resolveFrom, ofInt_toInt (x := limbInt a + c) (by omega) (by omega)]

/-- R217: a resolution that begins with a carry spells N and the carry. -/
theorem resolveFrom_eq_limbsOf {c : Int} (hc : -4294967296 ≤ c ∧ c ≤ 4294967296) {l : List (BitVec 40)} (hl : limbsWithin 127 l = true) :
    resolveFrom c l = limbsOf l.length (limbsN l + c) := by
  induction l generalizing c with
  | nil => rfl
  | cons a r ih =>
    obtain ⟨⟨hlo, hhi⟩, hr⟩ := limbsWithin_cons.mp hl
    cases r with
    | nil => simp [limbsOf, limbsN]
    | cons b r =>
      have hsum : limbsN (a :: b :: r) + c = limbInt a + c + 4294967296 * limbsN (b :: r) := by rw [limbsN]; omega
      have hdigit : (limbsN (a :: b :: r) + c) % 4294967296 = (limbInt a + c) % 4294967296 := by omega
      have hrest : (limbsN (a :: b :: r) + c) / 4294967296 = limbsN (b :: r) + (limbInt a + c) / 4294967296 := by omega
      rw [resolveFrom_cons hc hlo hhi, ih (by omega) hr, List.length_cons (as := b :: r), limbsOf, hdigit, hrest]
      exact Nat.succ_ne_zero _

/-- R217: the canonical limbs are those of N. -/
theorem resolve_eq_limbsOf {l : List (BitVec 40)} (hl : limbsWithin 127 l = true) : resolve l = limbsOf l.length (limbsN l) := by
  rw [resolve, resolveFrom_eq_limbsOf (by decide) hl, Int.add_zero]

/-! ## Residues (R220) -/

@[simp] theorem res_cast (v : Int) : ((res v : Nat) : Int) = v % 65535 := Int.toNat_of_nonneg (Int.emod_nonneg v (by decide))

/-- 2^32 is 1 modulo 65535, so that each limb counts alike. -/
theorem res_sum_emod (l : List (BitVec 40)) : (((l.map (fun x => res (limbInt x))).sum : Nat) : Int) % 65535 = limbsN l % 65535 := by
  induction l with
  | nil => rfl
  | cons a r ih =>
    rw [List.map_cons, List.sum_cons, limbsN, Int.natCast_add, res_cast]
    omega

/-- R220: the residues of the limbs add up to the residue of N. -/
theorem resElement_eq_res (l : List (BitVec 40)) : resElement l = res (limbsN l) := by
  rw [resElement]
  apply Int.ofNat_inj.mp
  rw [res_cast, ← res_sum_emod l, Int.natCast_emod]
  rfl

/-! ## Sums of addends (R213) -/

/-- A sum of integers has no order. -/
theorem sum_units_perm {ts us : List Term} (hperm : ts.Perm us) : (ts.map Term.units).sum = (us.map Term.units).sum := by
  induction hperm with
  | nil => rfl
  | cons t _ ih => simp only [List.map_cons, List.sum_cons, ih]
  | swap t u ts =>
    simp only [List.map_cons, List.sum_cons]
    omega
  | trans _ _ ih₁ ih₂ => exact ih₁.trans ih₂

/-- R216: each of a list of additions raises or lowers a GUARD by at most 2, so that every one of them is exact while the GUARDs have room. -/
theorem Elem.foldl_add_exact {e : Elem} {ts : List Term} {g : Int} (hlen : e.limbs.length = 10) (hmin : 1 ≤ g)
    (hroom : g + 2 * ts.length ≤ 128) (hl : limbsWithin g e.limbs = true) (hts : ∀ t ∈ ts, t.addend = true) :
    (ts.foldl Elem.add e).n = e.n + (ts.map Term.units).sum ∧ (ts.foldl Elem.add e).limbs.length = 10 ∧
      limbsWithin (g + 2 * ts.length) (ts.foldl Elem.add e).limbs = true := by
  induction ts generalizing e g with
  | nil => simpa using ⟨hlen, hl⟩
  | cons t ts ih =>
    obtain ⟨ht, hts⟩ := List.forall_mem_cons.mp hts
    rw [List.length_cons, Int.natCast_succ] at hroom ⊢
    obtain ⟨hn, hlen', hl'⟩ := ih ((Elem.add_limbs_length ht).trans hlen) (by omega) (by omega)
      (Elem.limbsWithin_add ht hmin (by omega) hl) hts
    rw [List.foldl_cons]
    refine ⟨?_, hlen', ?_⟩
    · rw [hn, Elem.add_n ht hlen (limbsWithin_mono (by omega) hl), List.map_cons, List.sum_cons, Int.add_assoc]
    · rwa [show g + 2 * ((ts.length : Int) + 1) = g + 2 + 2 * ts.length by omega]

end Sys2Proof.Machine
end

section
/-! Ledger arithmetic: sums, exact additions and the canonical form. -/

namespace Sys2Proof.Machine

/-- R213: what up to 60 additions leave of an element whose GUARDs are 0 or -1 is a state whose N is the sum and which `resolve` still takes. -/
theorem Elem.foldl_add_resolves {e : Elem} {ts : List Term} (hlen : e.limbs.length = 10) (hl : limbsWithin 1 e.limbs = true)
    (hcount : ts.length ≤ 60) (hts : ∀ t ∈ ts, t.addend = true) :
    (ts.foldl Elem.add e).n = e.n + (ts.map Term.units).sum ∧
      resolve (ts.foldl Elem.add e).limbs = limbsOf 10 (e.n + (ts.map Term.units).sum) := by
  obtain ⟨hn, hlen', hl'⟩ := Elem.foldl_add_exact hlen (Int.le_refl 1) (by omega) hl hts
  refine ⟨hn, ?_⟩
  rw [resolve_eq_limbsOf (limbsWithin_mono (by omega) hl'), hlen', ← hn, Elem.n]

/-- Settles O54: each addition is exact and moves a GUARD by at most 2, so that 60 of them leave N plus the sum, which no order changes. -/
theorem ledgerOrderDoesNotMatter : Obligations.LedgerOrderDoesNotMatter := by
  unfold Obligations.LedgerOrderDoesNotMatter
  refine ⟨fun e ts hlen hl hcount hts => Elem.foldl_add_resolves hlen hl hcount hts, fun e ts us hperm hlen hl hcount hts => ?_⟩
  obtain ⟨-, hts'⟩ := Elem.foldl_add_resolves hlen hl hcount hts
  obtain ⟨-, hus'⟩ := Elem.foldl_add_resolves hlen hl (hperm.length_eq ▸ hcount) fun t ht => hts t (hperm.mem_iff.mpr ht)
  rw [hts', hus', sum_units_perm hperm]

/-- Settles O51, clause by clause: an addition, a carry step, a term that is not finite, and a finite product. -/
theorem ledgerAddsExactly : Obligations.LedgerAddsExactly := by
  unfold Obligations.LedgerAddsExactly
  exact ⟨fun e t ht hlen hl => ⟨Elem.add_n ht hlen hl, Elem.add_flag ht, Elem.add_flag2 ht, (Elem.add_limbs_length ht).trans hlen,
      fun g hmin hmax hg => Elem.limbsWithin_add ht hmin hmax hg⟩,
    fun l hl => limbsN_carryStep hl, fun e t hkind => Elem.add_of_not_fin hkind, fun a b hm hfin => mulTerm_addend hm hfin⟩

/-- Settles O52: the digits by induction on the limbs with the carry general, and the residue because 2^32 is 1 modulo 65535. -/
theorem ledgerCanonicalForm : Obligations.LedgerCanonicalForm := by
  unfold Obligations.LedgerCanonicalForm
  exact ⟨fun l hlen hl => hlen ▸ resolve_eq_limbsOf hl, resElement_eq_res⟩

end Sys2Proof.Machine
end

section
/-! The 44-byte Ledger image and the packed element (R218, R219, R226 to R228), and how they read back. -/

namespace Sys2Proof.Machine

/-! ## Numbers in bytes (R11) -/

theorem twos_lt (w : Nat) (v : Int) : twos w v < 2 ^ w := by
  have hpos : (0 : Int) < 2 ^ w := Int.pow_pos (by decide)
  rw [twos, Int.toNat_lt (Int.emod_nonneg _ (Int.ne_of_gt hpos)), Int.natCast_pow]
  exact Int.emod_lt_of_pos _ hpos

theorem two_pow_le_two_pow {j k : Nat} (hle : j ≤ k) : (2 : Int) ^ j ≤ 2 ^ k := by
  exact_mod_cast Nat.pow_le_pow_right (n := 2) (by decide) hle

/-- A signed number is read back from the bytes of its two's complement. -/
theorem signedOf_leNat_le_twos {w k : Nat} {v : Int} (hw : w = 8 * k) (hk : k ≠ 0) (hlo : -(2 : Int) ^ (w - 1) ≤ v)
    (hhi : v < (2 : Int) ^ (w - 1)) : signedOf w (leNat (le k (twos w v))) = v := by
  have hbytes : 256 ^ k = 2 ^ w := by rw [hw, Nat.pow_mul]
  rw [leNat_le, hbytes, Nat.mod_eq_of_lt (twos_lt w v), signedOf_twos (by omega) hlo hhi]

theorem leNat_le_one {v : Nat} (hv : v < 256) : leNat (le 1 v) = v := by
  rw [leNat_le, Nat.pow_one, Nat.mod_eq_of_lt hv]

/-- The field that stands after `o` bytes. -/
theorem fieldAt_append {o n : Nat} {p b r : List Byte} (hp : p.length = o) (hb : b.length = n) :
    readImage.fieldAt' (p ++ b ++ r) o n = leNat b := by
  rw [readImage.fieldAt', List.append_assoc, List.drop_left' hp, List.take_left' hb]

/-! ## The flag word (Table 8.3) -/

theorem fwPinf_lt (f : BitVec 40) : fwPinf f < 256 := Nat.mod_lt _ (by decide)

theorem fwNinf_lt (f : BitVec 40) : fwNinf f < 256 := Nat.mod_lt _ (by decide)

/-- The flags byte of an image. -/
theorem flagsByte (nan poison : Bool) :
    b2n nan + 2 * b2n poison < 4 ∧ ((b2n nan + 2 * b2n poison) % 2 == 1) = nan ∧ ((b2n nan + 2 * b2n poison) / 2 == 1) = poison := by
  cases nan <;> cases poison <;> decide

/-! ## The image (R218, R219) -/

/-- The fields of Table 8.5, each at its offset. -/
theorem imageFields {n p m fl z : List Byte} (hn : n.length = 40) (hp : p.length = 1) (hm : m.length = 1) (hfl : fl.length = 1) (hz : z.length = 1) :
    readImage.fieldAt' (n ++ p ++ m ++ fl ++ z) 0 40 = leNat n ∧ readImage.fieldAt' (n ++ p ++ m ++ fl ++ z) 40 1 = leNat p ∧
    readImage.fieldAt' (n ++ p ++ m ++ fl ++ z) 41 1 = leNat m ∧ readImage.fieldAt' (n ++ p ++ m ++ fl ++ z) 42 1 = leNat fl ∧
    readImage.fieldAt' (n ++ p ++ m ++ fl ++ z) 43 1 = leNat z := by
  refine ⟨?_, ?_, ?_, ?_, ?_⟩
  · rw [List.append_assoc, List.append_assoc, List.append_assoc, ← List.nil_append n]
    exact fieldAt_append rfl hn
  · rw [List.append_assoc, List.append_assoc]
    exact fieldAt_append hn hp
  · rw [List.append_assoc]
    exact fieldAt_append (by simp [hn, hp]) hm
  · exact fieldAt_append (by simp [hn, hp, hm]) hfl
  · rw [← List.append_nil (_ ++ z)]
    exact fieldAt_append (by simp [hn, hp, hm, hfl]) hz

@[simp] theorem imageBytes_length (n : Int) (f : BitVec 40) : (imageBytes n f).length = 44 := by
  simp [imageBytes]

/-- R218, R219: an image reads back as what it was made of. -/
theorem readImage_imageBytes {n : Int} {f : BitVec 40} (hlo : -(2 : Int) ^ 308 < n) (hhi : n < 2 ^ 308)
    (hf : f = mkFw (fwPinf f) (fwNinf f) (fwNan f) (fwPoison f)) : readImage (imageBytes n f) = some (n, f) := by
  obtain ⟨hfn, hfp, hfm, hffl, hfz⟩ := imageFields (le_length 40 (twos 320 n)) (le_length 1 (fwPinf f)) (le_length 1 (fwNinf f))
    (le_length 1 (b2n (fwNan f) + 2 * b2n (fwPoison f))) (z := [0]) rfl
  obtain ⟨hsmall, hnan, hpoison⟩ := flagsByte (fwNan f) (fwPoison f)
  rw [leNat_le_one (fwPinf_lt f)] at hfp
  rw [leNat_le_one (fwNinf_lt f)] at hfm
  rw [leNat_le_one (by omega)] at hffl
  have hexp : (2 : Int) ^ 308 ≤ 2 ^ (320 - 1) := two_pow_le_two_pow (by decide)
  have hsigned : signedOf 320 (leNat (le 40 (twos 320 n))) = n :=
    signedOf_leNat_le_twos rfl (by decide) (Int.le_trans (Int.neg_le_neg hexp) (Int.le_of_lt hlo)) (Int.lt_of_lt_of_le hhi hexp)
  have hok : nOk n = true := by
    rw [nOk, decide_eq_true (Int.le_of_lt hlo), decide_eq_true hhi]
    rfl
  have hlen := imageBytes_length n f
  rw [imageBytes] at hlen ⊢
  rw [readImage, hlen, hfn, hfp, hfm, hffl, hfz, hsigned, hok, hnan, hpoison, ← hf, if_neg]
  simpa [leNat] using hsmall

/-! ## The packed element (R226 to R228) -/

/-- The exponent of a packed element is at most 224 and N is a multiple of its power of 2. -/
theorem ctzUpTo_spec (n : Int) (k c : Nat) : ∃ j ≤ k, ctzUpTo n k c = c + j ∧ (2 : Int) ^ j ∣ n := by
  induction k generalizing n c with
  | zero => exact ⟨0, Nat.le_refl 0, rfl, Int.one_dvd n⟩
  | succ k ih =>
    by_cases heven : n % 2 = 0
    · obtain ⟨j, hj, hcount, hdvd⟩ := ih (n / 2) (c + 1)
      refine ⟨j + 1, by omega, ?_, ?_⟩
      · rw [ctzUpTo, if_pos heven, hcount]
        omega
      · rw [← Int.mul_ediv_cancel' (Int.dvd_of_emod_eq_zero heven), Int.pow_succ, Int.mul_comm]
        exact Int.mul_dvd_mul (Int.dvd_refl 2) hdvd
    · exact ⟨0, Nat.zero_le _, by rw [ctzUpTo, if_neg heven]; rfl, Int.one_dvd n⟩

/-- R227: the forms of a packed element: an image, the one byte of 0, and 96 bits of which an exponent says where they stand. -/
theorem packElem_forms (n : Int) (f : BitVec 40) :
    packElem n f = 0xFF#8 :: imageBytes n f ∨ (n = 0 ∧ f = 0 ∧ packElem n f = [0xFE#8]) ∨
    (f = 0 ∧ ∃ off ≤ 224, ∃ w : Int, n = w * 2 ^ off ∧ (-(2 : Int) ^ 95 ≤ w ∧ w < 2 ^ 95) ∧
      packElem n f = BitVec.ofNat 8 off :: le 12 (twos 96 w)) := by
  by_cases hf : f = 0
  case neg => exact .inl (if_pos hf)
  rw [packElem, if_neg (not_not_intro hf)]
  by_cases hn : n = 0
  case pos => exact .inr (.inl ⟨hn, hf, if_pos hn⟩)
  rw [if_neg hn]
  obtain ⟨off, hoff, hcount, hdvd⟩ := ctzUpTo_spec n 224 0
  rw [hcount, Nat.zero_add]
  by_cases hsmall : -(2 : Int) ^ 95 ≤ n / 2 ^ off ∧ n / 2 ^ off < 2 ^ 95
  case pos => exact .inr (.inr ⟨hf, off, hoff, n / 2 ^ off, (Int.ediv_mul_cancel hdvd).symm, hsmall, if_pos hsmall⟩)
  case neg => exact .inl (if_neg hsmall)

/-- R226: after the code 0xFF stands an image. -/
theorem unpackElem_image {img r : List Byte} (hlen : img.length = 44) :
    unpackElem (0xFF#8 :: (img ++ r)) = (readImage img).map (fun v => (v, r)) := by
  have hroom : ¬ (img ++ r).length < 44 := by simp [hlen]
  rw [unpackElem, if_neg (by decide), if_pos rfl, if_neg hroom, List.take_left' hlen, List.drop_left' hlen]

/-- R226: after an exponent stand 96 bits. -/
theorem unpackElem_scaled {off : Nat} (hoff : off ≤ 224) {b r : List Byte} (hlen : b.length = 12)
    (hsize : (signedOf 96 (leNat b) * (2 : Int) ^ off).natAbs < 2 ^ 308) :
    unpackElem (BitVec.ofNat 8 off :: (b ++ r)) = some ((signedOf 96 (leNat b) * 2 ^ off, 0), r) := by
  have hcode : (BitVec.ofNat 8 off).toNat = off := by rw [BitVec.toNat_ofNat, Nat.mod_eq_of_lt (by omega)]
  have hne (c : Byte) (hc : 224 < c.toNat) : BitVec.ofNat 8 off ≠ c := fun h => by rw [← h, hcode] at hc; omega
  have hroom : ¬ (b ++ r).length < 12 := by simp [hlen]
  rw [unpackElem, if_neg (hne _ (by decide)), if_neg (hne _ (by decide)), hcode, if_pos hoff, if_neg hroom, List.take_left' hlen,
    List.drop_left' hlen]
  exact if_pos hsize

/-- R208 as the reader checks it. -/
theorem natAbs_lt_two_pow {n : Int} {k : Nat} (hlo : -(2 : Int) ^ k < n) (hhi : n < 2 ^ k) : n.natAbs < 2 ^ k := by
  have hcast : ((2 ^ k : Nat) : Int) = 2 ^ k := Int.natCast_pow 2 k
  omega

/-- R226 to R228: a packed element reads back, and what follows it is left over. -/
theorem unpackElem_packElem {n : Int} {f : BitVec 40} (r : List Byte) (hlo : -(2 : Int) ^ 308 < n) (hhi : n < 2 ^ 308)
    (hf : f = mkFw (fwPinf f) (fwNinf f) (fwNan f) (fwPoison f)) : unpackElem (packElem n f ++ r) = some ((n, f), r) := by
  obtain himage | ⟨rfl, rfl, hzero⟩ | ⟨rfl, off, hoff, w, rfl, ⟨hwlo, hwhi⟩, hscaled⟩ := packElem_forms n f
  · rw [himage, List.cons_append, unpackElem_image (imageBytes_length n f), readImage_imageBytes hlo hhi hf]
    rfl
  · rw [hzero]
    rfl
  · have hw : signedOf 96 (leNat (le 12 (twos 96 w))) = w := signedOf_leNat_le_twos rfl (by decide) hwlo hwhi
    rw [hscaled, List.cons_append, unpackElem_scaled hoff (le_length _ _), hw]
    rw [hw]
    exact natAbs_lt_two_pow hlo hhi

/-- Settles O53: the image field by field, the packed element form by form. -/
theorem ledgerPackedRoundTrip : Obligations.LedgerPackedRoundTrip := by
  unfold Obligations.LedgerPackedRoundTrip
  exact ⟨fun n f hlo hhi hf => readImage_imageBytes hlo hhi hf, fun n f r hlo hhi hf => unpackElem_packElem r hlo hhi hf⟩

end Sys2Proof.Machine
end

section
/-! The commit gate (R236, R270, R303, R304, R413): what a drain that passes, a result copy and the acknowledgements answer. -/

namespace Sys2Proof.Machine

variable {s0 s : State} {l : Link} {k k0 : ChunkKey} {c : HChunk} {p : HPlan}

/-! ## The drain and the gate (R236) -/

/-- R236: at the span pair a first drain without a failed check gates its chunk. -/
theorem hubDrain_passed (hchunk : s.hchunk k = some c) (hplan : s.kplan k = some p) (hstate : c.state = .draining) (hfirst : c.attempt = 0)
    (hchecks : ∀ q ∈ c.panes, (s.pane c.tile q).check p.desc q (s.expected p k.inst) = none) (hspan : s.spans p.desc = true) :
    s.hubDrain k none = (s.chunkFree k false).gateSpan k c p (c.panes.map (fun q => s.pane c.tile q)) := by
  have hpass : c.panes.findSome? (fun q => (s.pane c.tile q).check p.desc q (s.expected p k.inst)) = none :=
    List.findSome?_eq_none_iff.mpr hchecks
  simp [State.hubDrain, hchunk, hplan, hstate, hfirst, hpass, hspan]

/-- R236: the primary drains. -/
theorem execDrainComplete_primary (k : ChunkKey) (fail : Option TileCheck) (hhub : s.isHub = true) (hprimary : s.isPrimary = true) :
    execDrainComplete k fail s = .next ((s.hubDrain k fail).trySave k.slot k.handle) := by
  simp [execDrainComplete, hhub, hprimary]

/-! ## The copy and its acknowledgement (R270, R303, R304) -/

/-- R270, R303: the partner's copy and shadow record carry the Hallmark that it forms itself. -/
theorem execResultCopyReceive_partner {r : ResultCopy} (htake : s0.takeFlit l 1 = (s, true)) (hchord : s0.params.isChord l.port = true)
    (hhub : s.isHub = true) (hprimary : s.isPrimary = false) (hrole : s.pair.role ≠ .isolated)
    (hplan : s.plan r.msg.key.slot r.msg.key.handle = some p) :
    execResultCopyReceive l r s0 = .next (({ s with
        coll := { s.coll with copies := s.coll.copies.filter (fun (x : ResultCopy) => x.msg.key != r.msg.key) ++
          [{ r with msg := { r.msg with hallmark := s.hallmarkOf p.desc r.msg.key r.bytes r.msg.flags r.fwVersion } }] }
        hm := { s.hm with shadows := s.hm.shadows.filter (fun (x : HmRec) => x.key != r.msg.key) ++
          [s.hmRec p.desc r.msg.key (s.hallmarkOf p.desc r.msg.key r.bytes r.msg.flags r.fwVersion) r.msg.flags] } }.seeInst r.msg.key).sendChord
            (.copyAck r.msg.key)) := by
  rw [execResultCopyReceive, State.receivedIf_done htake hchord]
  simp [hhub, hprimary, hrole, hplan]

/-- R270, R304: the commit of a chunk that has its commit message. -/
theorem commitChunk_of_msg {m : CommitMsg} (hchunk : s.hchunk k = some c) (hplan : s.kplan k = some p) (hmsg : c.msg = some m) :
    s.commitChunk k = (((s.addHm (s.hmRec p.desc k m.hallmark m.flags)).setChunk { c with state := .committed, copyAcked := true }).noteDone k).sendCommit
      (s.planKids p.desc) m c.result := by
  simp [State.commitChunk, hchunk, hplan, hmsg]

/-- R270: the partner's acknowledgement commits a gated chunk. -/
theorem execResultCopyAck_gated (htake : s0.takeFlit l 1 = (s, true)) (hchord : s0.params.isChord l.port = true) (hprimary : s.isPrimary = true)
    (hchunk : s.hchunk k = some c) (hstate : c.state = .gated) (hmsg : c.msg.isSome = true) :
    execResultCopyAck l k s0 = .next ((s.commitChunk k).trySave k.slot k.handle) := by
  rw [execResultCopyAck, State.receivedIf_done htake hchord]
  simp [hchunk, hprimary, hstate, hmsg]

/-! ## Acknowledgements of a result (R272, R413) -/

/-- A chunk of the newest instance, none of which is done, is not done while this Hub does not hold it. -/
theorem undone_of_noChunk (hchunk : s.hchunk k = none) (hnewest : p.newest = k.inst) (hdone : p.done = []) : s.undone p k = true := by
  simp [State.undone, hchunk, hnewest, hdone]

/-- A committed chunk is done. -/
theorem undone_of_committed (p : HPlan) (hchunk : s.hchunk k = some c) (hstate : c.state = .committed) : s.undone p k = false := by
  simp [State.undone, hchunk, hstate]

/-- An instance that is seen touches no chunk. -/
@[simp] theorem seeInst_hchunk (s : State) (j k : ChunkKey) : (s.seeInst j).hchunk k = s.hchunk k := by
  unfold State.seeInst State.modPlan
  split <;> rfl

/-- R413: at the span pair a lost commit of a chunk that this Hub does not hold fails it with ST_NO_SPARE. -/
theorem lostCommit_of_noChunk (hchunk : s.hchunk k = none) (hplan : s.kplan k = some p) (hspan : s.spans p.desc = true) :
    s.lostCommit k = ((s.seeInst k).setChunk { key := k }).failChunk k .noSpare := by
  simp [State.lostCommit, hplan, hspan, hchunk]

section
variable (htake : s0.takeFlit l 1 = (s, true)) (hdown : s0.params.isDown l.port = true) (hprimary : s.isPrimary = true)
  (hplan : s.kplan (s.formKey k0) = some p) (hkid : (s.planKids p.desc).contains (s.portChild l.port) = true)
include htake hdown hprimary hplan hkid

/-- R413: a receiver acknowledges a chunk that this Hub neither holds nor has committed. -/
theorem execResultAckReceive_lost (hchunk : s.hchunk (s.formKey k0) = none) (hundone : s.undone p (s.formKey k0) = true) :
    execResultAckReceive l k0 s0 = .next (s.lostCommit (s.formKey k0)) := by
  rw [execResultAckReceive, State.receivedIf_done htake hdown]
  simp only [hchunk, hplan, hprimary, hkid, hundone, Bool.and_self, if_true]

/-- Table 10.5: the last receiver's acknowledgement retires a committed chunk. -/
theorem execResultAckReceive_last (hchunk : s.hchunk (s.formKey k0) = some c) (hstate : c.state = .committed)
    (hall : subList (s.planKids p.desc) (addNew c.acked (s.portChild l.port)) = true) (hspan : s.spans p.desc = true) :
    execResultAckReceive l k0 s0 = .next
      (((((s.delChunk (s.formKey k0)).modPlan (s.formKey k0).slot (s.formKey k0).handle
        (fun p => if p.newest = (s.formKey k0).inst then { p with ackd := p.ackd + 1 } else p)).mirror (.retired (s.formKey k0))).instanceEnd
          (s.formKey k0).slot (s.formKey k0).handle).trySave (s.formKey k0).slot (s.formKey k0).handle) := by
  have hundone : s.undone p (s.formKey k0) = false := undone_of_committed p hchunk hstate
  rw [execResultAckReceive, State.receivedIf_done htake hdown]
  simp only [hchunk, hplan, hprimary, hkid, hundone, hstate, hall, hspan, Bool.not_true, Bool.or_false, Bool.false_eq_true, true_or, decide_true,
    if_true, if_false]

end

end Sys2Proof.Machine
end

section
namespace Sys2Proof.Machine

/-- Settles O21, message by message: the drain that gates, the partner's copy, its acknowledgement, and a receiver's acknowledgement of a lost commit and as the last. -/
theorem commitAtAHub : Obligations.CommitAtAHub := by
  unfold Obligations.CommitAtAHub
  refine ⟨fun s k c p hhub hprimary hchunk hplan hstate hfirst hchecks hspan => ?drain,
    fun s0 s l r p htake hchord hhub hprimary hrole hplan => execResultCopyReceive_partner htake hchord hhub hprimary hrole hplan,
    fun s0 s l k c p m htake hchord hprimary hchunk hplan hstate hmsg => ?commit,
    fun s0 s l k0 k p htake hdown hprimary hkey hchunk hplan hkid hnewest hdone hspan => ?lost,
    fun s0 s l child k0 k c p htake hdown hchild hprimary hkey hchunk hplan hstate hkid hall hspan => ?last⟩
  case drain =>
    change execDrainComplete k none s = _
    rw [execDrainComplete_primary k none hhub hprimary, hubDrain_passed hchunk hplan hstate hfirst hchecks hspan]
  case commit =>
    change execResultCopyAck l k s0 = _
    rw [execResultCopyAck_gated htake hchord hprimary hchunk hstate (by rw [hmsg]; rfl), commitChunk_of_msg hchunk hplan hmsg]
  case lost =>
    subst hkey
    change execResultAckReceive l k0 s0 = _
    rw [execResultAckReceive_lost htake hdown hprimary hplan hkid hchunk (undone_of_noChunk hchunk hnewest hdone),
      lostCommit_of_noChunk hchunk hplan hspan]
  case last =>
    subst hkey hchild
    exact execResultAckReceive_last htake hdown hprimary hplan hkid hchunk hstate hall hspan

end Sys2Proof.Machine
end

section
/-! A collective at a Leaf (R254, R255, R258, R276, R277): what the bodies of its commands answer, and its start and query registers. -/

namespace Sys2Proof.Machine

variable {s t : State} {c : Nat} {h : CmdHdr} {x : LColl}

/-! ## CMD_COLL_PLAN and CMD_COLL_BIND (R254, R255, R276) -/

/-- R276: the plan of a local reduction that the Leaf can hold. -/
theorem localPlan_taken {d : BitVec 512} {w : Nat} (hmask : dMask d = 0) (hbound : dK d 1 ≤ 2 ^ 31) (htake : s.leafTake d w = .ok t) :
    s.localPlan d w = .ok t (layout [(4, dChunks d), (2, (t.ackInfo (.collOpen d w)).panes)]) := by
  simp only [State.localPlan, hmask, Nat.not_lt.mpr hbound, htake, ne_eq, not_true_eq_false, or_self, if_false]

/-- R254, R276: a well-formed plan of a local reduction completes at a Leaf. -/
theorem execCollPlanOpen_leaf {a w : Nat} {d : BitVec 512} (hrun : RunsHere (.collPlanOpen h a (.ok d) w) s) (halign : a % 64 = 0)
    (hleaf : s.isHub = false) (haccess : h.access = 0) (hopen : s.openCtx (dSlot d) (dGen d) = true) (hrange : dRangeOk d = true) (hw : 1 ≤ w)
    (hw64 : w ≤ 64) (hlocal : dSpan d = 0) (hmask : dMask d = 0) (hbound : dK d 1 ≤ 2 ^ 31) (htake : s.leafTake d w = .ok t) :
    execCollPlanOpen h a (.ok d) w s =
      .next (complete t h.src 0x0401 .ok (layout [(4, dChunks d), (2, (t.ackInfo (.collOpen d w)).panes)])) := by
  have hplan := localPlan_taken hmask hbound htake
  exact runRead_of_runsHere hrun rfl (by
    simp [withRead, halign, hleaf, haccess, hopen, hrange, Nat.not_lt.mpr hw, Nat.not_lt.mpr hw64, hlocal, hplan, CmdRes.ok])

/-- R276: CLOSE of a local reduction that is idle. -/
theorem execCollPlanClose_idle (hrun : RunsHere (.collPlanClose h c) s) (hleaf : s.isHub = false) (hcoll : s.lcoll h.slot c = some x)
    (hc : c < 512) (hlocal : dSpan x.desc = 0) (hidle : x.running = false) (hunarmed : s.armedColl h.slot c = false) :
    execCollPlanClose h c s = .next (complete (s.leafClose h.slot c) h.src 0x0401 .ok []) :=
  runCmd_of_runsHere hrun rfl (by simp [hleaf, hcoll, Nat.not_le.mpr hc, hlocal, hidle, hunarmed, CmdRes.ok])

/-- R255: the source of a collective that is idle. -/
theorem execCmdCollBind_idle {src : Nat} (hrun : RunsHere (.cmdCollBind h c src) s) (hcoll : s.lcoll h.slot c = some x) (hc : c < 512)
    (halign : src % 64 = 0) (hidle : x.running = false) :
    execCmdCollBind h c src s = .next (complete (s.setLcoll h.slot c (some { x with src := some src })) h.src 0x0402 .ok []) :=
  runCmd_of_runsHere hrun rfl (by simp [hcoll, Nat.not_le.mpr hc, halign, hidle, CmdRes.ok])

/-! ## The start and the query registers (R258, R277) -/

/-- R258: what a start makes of a bound collective with elements. -/
theorem startColl_elements {n : Nat} (hcoll : s.lcoll c n = some x) (hbound : x.src.isSome = true) (hidle : x.running = false)
    (hcount : dCount x.desc ≠ 0) :
    s.startColl c n = s.setLcoll c n (some { x with
      started := x.started + 1, chunks := [], sent := 0, committed := 0, noSignal := false, stopped := false, owed := none, running := true, ended := false }) := by
  simp [State.startColl, hcoll, Option.ne_none_iff_isSome.mpr hbound, hidle, hcount]

/-- R258: what a start makes of a bound collective without elements and without a signal. -/
theorem startColl_empty {n : Nat} (hcoll : s.lcoll c n = some x) (hbound : x.src.isSome = true) (hidle : x.running = false)
    (hcount : dCount x.desc = 0) (hsig : dSigEn x.desc = false) :
    s.startColl c n = s.setLcoll c n (some { x with
      started := x.started + 1, chunks := [], sent := 0, committed := 0, noSignal := false, stopped := false, owed := none
      running := false, ended := true, failed := false, code := 0, flags := 0 }) := by
  simp [State.startColl, hcoll, Option.ne_none_iff_isSome.mpr hbound, hidle, hcount, hsig]

/-- R258: a start of a bound collective from an open context, and from slot 0, is taken. -/
theorem execCollStart_bound {v : Word} (hleaf : s.isHub = false) (hopen : c ≠ 0 → s.openCtx c (s.slot c).lastGen = true)
    (hcoll : s.lcoll c (v.toNat % 512) = some x) (hbound : x.src.isSome = true) :
    execCollStart c v s = .next ((s.startColl c (v.toNat % 512)).answer 0 false) := by
  have hctx : ¬ (c ≠ 0 ∧ s.openCtx c (s.slot c).lastGen = false) := fun hshut => Bool.noConfusion ((hopen hshut.1).symm.trans hshut.2)
  simp only [execCollStart, hleaf, Bool.false_eq_true, hctx, hcoll, Option.isNone_eq_false_iff.mpr hbound, if_false]

/-- R277: a query of a planned handle latches its status. -/
theorem execCollQuery_planned {v : Word} (hleaf : s.isHub = false) (hopen : (s.slot c).clearing = false)
    (hcoll : s.lcoll c (v.toNat % 512) = some x) :
    execCollQuery c v s = .next ({ s with coll := { s.coll with
      qSlot := some c
      qState := BitVec.ofNat 32 (x.stateVal + (x.started - 1) % 65536 * 65536)
      qCode := BitVec.ofNat 32 (x.code % 65536 + x.flags % 128 * 65536)
      qWin := BitVec.ofNat 32 (min 64 (x.sent - x.committed).toNat + x.w * 256) } }.answer 0 false) := by
  simp only [execCollQuery, hleaf, hopen, hcoll, Bool.and_false, Bool.or_false, Bool.false_eq_true, if_false]

end Sys2Proof.Machine
end

section
namespace Sys2Proof.Machine

/-- Settles O18: the commands run their bodies, and a start goes by whether the collective has elements. -/
theorem collectivesOfALeaf : Obligations.CollectivesOfALeaf := by
  unfold Obligations.CollectivesOfALeaf
  refine ⟨fun h a d w t s hrun halign hleaf haccess hopen hrange hw hw64 hlocal hmask hbound htake =>
      execCollPlanOpen_leaf hrun halign hleaf haccess hopen hrange hw hw64 hlocal hmask hbound htake,
    fun h c x s hrun hleaf hcoll hc hlocal hidle hunarmed => execCollPlanClose_idle hrun hleaf hcoll hc hlocal hidle hunarmed,
    fun h c src x s hrun hcoll hc halign hidle => execCmdCollBind_idle hrun hcoll hc halign hidle,
    fun s c v x hleaf hopen hcoll hbound hidle hcount => ?elements,
    fun s c v x hleaf hopen hcoll hbound hidle hcount hsig => ?empty,
    fun s c v x hleaf hopen hcoll => execCollQuery_planned hleaf hopen hcoll⟩
  case elements =>
    change execCollStart c v s = _
    rw [execCollStart_bound hleaf hopen hcoll hbound, startColl_elements hcoll hbound hidle hcount]
  case empty =>
    change execCollStart c v s = _
    rw [execCollStart_bound hleaf hopen hcoll hbound, startColl_empty hcoll hbound hidle hcount hsig]

end Sys2Proof.Machine
end

section
/-! A chunk at the serving Hub (R264, R266 to R268, R325, R542): what a contribution, a notice, the sequencer, a spill, a reload and a replay
mark make of it. -/

namespace Sys2Proof.Machine

variable {s0 s : State} {l : Link} {k k0 : ChunkKey} {c : HChunk} {p : HPlan} {child : Nat}

/-! ## What marking an instance as seen and withholding a credit leave alone -/

/-- Withholding a credit concerns the port alone. -/
@[simp] theorem withhold_plan (s : State) (n cls : Nat) (j : ChunkKey) (slot handle : Nat) :
    (s.withhold n cls j).plan slot handle = s.plan slot handle := by
  unfold State.withhold
  split <;> rfl

@[simp] theorem setChunk_plan (s : State) (c : HChunk) (slot handle : Nat) : (s.setChunk c).plan slot handle = s.plan slot handle := rfl

/-- Storing a plan is read back at its handle. -/
@[simp] theorem setPlan_plan (s : State) (slot handle : Nat) (p : Option HPlan) : (s.setPlan slot handle p).plan slot handle = p := by
  simp [State.plan, State.setPlan]

/-- An instance that is the newest already leaves its plan as it is. -/
theorem seeInst_plan (hplan : s.plan k.slot k.handle = some p) (hnewest : p.newest = k.inst) :
    (s.seeInst k).plan k.slot k.handle = some p := by
  simp [State.seeInst, State.modPlan, hplan, hnewest]

/-- A plan that no SAVE waits for. -/
theorem trySave_of_notSaving {slot handle : Nat} (hplan : s.plan slot handle = some p) (hsaving : p.saving = none) :
    s.trySave slot handle = s := by
  simp [State.trySave, hplan, hsaving]

/-- R413: a chunk that no contributor has released is not a lost commit. -/
theorem not_lost_of_noneReleased (s : State) (k : ChunkKey) (hreleased : p.released = []) : s.lost p k = false := by
  simp [State.lost, hreleased]

/-! ## Contributions and notices (R264, R542) -/

section
variable (hkplan : s.kplan k = some p) (hkid : (s.planKids p.desc).contains child = true) (hdone : p.done = []) (hreleased : p.released = [])
include hkplan hkid hdone hreleased

/-- R264: a flit that is not the last, the first of a new chunk, is kept. -/
theorem hubRx_first {d : CollData} {r : RxBuf} (hplan : s.plan k.slot k.handle = some p) (hnewest : p.newest = k.inst) (hchunk : s.hchunk k = none)
    (hput : ({ child := child, aux := d.aux, part := d.partialKind } : RxBuf).put d = r) (hwhole : r.whole = false) (hop : dOp p.desc ≠ 6) :
    s.hubRx child k d none = (s.seeInst k).setChunk { key := k, rx := [r] } := by
  have hempty : ({ child := child, aux := d.aux, part := d.partialKind } : RxBuf).whole = false := rfl
  simp [State.hubRx, hkplan, List.contains_iff_mem.mp hkid, seeInst_plan hplan hnewest, hnewest, hdone, not_lost_of_noneReleased s k hreleased,
    hchunk, hempty, hput, hwhole, hop]

/-- R542: a notice of a contributor that has sent nothing of a waiting chunk fails it with ST_RANGE. -/
theorem hubNotice_unheard (hchunk : s.hchunk k = some c) (hstate : c.state = .waiting) (hheard : c.heard = []) (harrived : c.arrived = []) :
    s.hubNotice child k .range =
      ((s.seeInst k).setChunk { c with heard := [child], rx := c.rx.filter (fun r => r.child != child) }).markFailed k .range := by
  simp [State.hubNotice, hkplan, List.contains_iff_mem.mp hkid, hdone, not_lost_of_noneReleased s k hreleased, hchunk, hstate, hheard, harrived]

end

section
variable (hdown : s0.params.isDown l.port = true) (hhub : s.isHub = true) (hprimary : s.isPrimary = true) (hopen : s.openCtx k0.slot k0.gen = true)
include hdown hhub hprimary hopen

/-- R264: the primary takes a flit of an open context. -/
theorem execContributionFlitReceive_primary {d : CollData} (fail : Option TileCheck)
    (htake : s0.takeFlit l (s0.classOf (.contribution k0 d)) = (s, true)) :
    execContributionFlitReceive l k0 d fail s0 = .next (((s.hubRx (s.portChild l.port) (s.formKey k0) d fail).withhold l.port
      (s.classOf (.contribution k0 d)) (s.formKey k0)).trySave k0.slot k0.handle) := by
  rw [execContributionFlitReceive, State.receivedIf_done htake hdown]
  simp [hhub, hprimary, State.staleMsg, hopen]

/-- R542: the primary takes a notice of an open context. -/
theorem execContributionNoticeReceive_primary (code : St) (htake : s0.takeFlit l 1 = (s, true)) :
    execContributionNoticeReceive l k0 code s0 = .next ((s.hubNotice (s.portChild l.port) (s.formKey k0) code).trySave k0.slot k0.handle) := by
  rw [execContributionNoticeReceive, State.receivedIf_done htake hdown]
  simp [hhub, hprimary, State.staleMsg, hopen]

end

/-! ## The sequencer (R266) -/

/-- R266: a tenant chunk that waits is mapped when the sequencer serves its slot and its tile is on. -/
theorem hubMap_served {t : Nat} (hchunk : s.hchunk k = some c) (hkplan : s.kplan k = some p) (hstate : c.state = .waiting) (hwaits : c.waits = true)
    (hmapping : s.pair.stopMapping = false) (hsequencer : (s.dom 79).on = true) (htenant : dRadio p.desc = false)
    (hturn : (s.awaken 2000 s.seqBacklog).pickFrom 2000 s.seqBacklog = some k.slot) (htile : s.tileFor p.desc = some t) (hon : (s.dom t).on = true) :
    s.hubMap k = ((s.awaken 2000 s.seqBacklog).served 2000 k.slot false).mapChunk k := by
  simp [State.hubMap, hchunk, hkplan, hstate, hwaits, hmapping, hsequencer, htenant, hturn, htile, hon]

/-! ## Spill and replay (R267, R325) -/

/-- R267: the end of a spill. -/
theorem execPaneSpillComplete_spilling (hchunk : s.hchunk k = some c) (hstate : c.state = .spilling) :
    execPaneSpillComplete k s = .next ((({ s with coll := { s.coll with spills := (s.coll.spills + 1) % 2 ^ 32 } } : State).dropPanes c.tile c.panes false).setChunk
      { c with state := .spilled, panes := [], image := c.panes.map (fun q => (s.pane c.tile q).canonical (((s.plan k.slot k.handle).map (·.desc)).getD 0)) }) := by
  simp [execPaneSpillComplete, hchunk, hstate]

/-- R325: the replay mark of the present attempt lets the child's flits count again. -/
theorem execReplayMarkReceive_attempt (htake : s0.takeFlit l 1 = (s, true)) (hdown : s0.params.isDown l.port = true)
    (hchunk : s.hchunk (s.formKey k) = some c) (hprimary : s.isPrimary = true) :
    execReplayMarkReceive l k c.attempt s0 = .next
      (s.setChunk { c with discard := c.discard.filter (fun x => x != s.portChild l.port), rx := c.rx.filter (fun r => r.child != s.portChild l.port) }) := by
  rw [execReplayMarkReceive, State.receivedIf_done htake hdown]
  simp [hchunk, hprimary]

end Sys2Proof.Machine
end

section
namespace Sys2Proof.Machine

/-- Settles O20, message by message. A contribution ends without a SAVE since none waits for its plan; a reload goes on since its images are canonical
and no page of the journal holds them. -/
theorem contributionsAtAHub : Obligations.ContributionsAtAHub := by
  unfold Obligations.ContributionsAtAHub
  refine ⟨fun s0 s l k0 k d p r htake hdown hhub hprimary hopen hkey hslot hhandle hkplan hplan hsaving hnewest hdone hreleased hchunk hkid
      hput hwhole hop => ?contribution,
    fun s0 s l child k0 k p c htake hdown hchild hhub hprimary hopen hkey hslot hhandle hkplan _ hkid hnewest hdone hreleased hchunk hstate
      hheard harrived => ?notice,
    fun s k c p t hprimary hchunk hkplan hstate hwaits hmapping hsequencer htenant hturn htile hon => ?map,
    fun s k c hchunk hstate => execPaneSpillComplete_spilling hchunk hstate,
    fun s k c hchunk hstate hspill hpages himages => ⟨_, _, rfl, rfl, ?reload⟩,
    fun s0 s l k c htake hdown hchunk hprimary => execReplayMarkReceive_attempt htake hdown hchunk hprimary⟩
  case contribution =>
    change execContributionFlitReceive l k0 d none s0 = _
    rw [execContributionFlitReceive_primary hdown hhub hprimary hopen none htake, hkey,
      hubRx_first hkplan hkid hdone hreleased hplan hnewest hchunk hput hwhole hop, ← hslot, ← hhandle]
    refine congrArg Host.Outcome.next (trySave_of_notSaving ?_ hsaving)
    rw [withhold_plan, setChunk_plan, seeInst_plan hplan hnewest]
  case notice =>
    change execContributionNoticeReceive l k0 .range s0 = _
    rw [execContributionNoticeReceive_primary hdown hhub hprimary hopen .range htake, hkey, hchild,
      hubNotice_unheard hkplan hkid hdone hreleased hchunk hstate hheard harrived, hslot, hhandle]
  case map =>
    change execChunkMap k s = _
    rw [execChunkMap, if_pos hprimary, hubMap_served hchunk hkplan hstate hwaits hmapping hsequencer htenant hturn htile hon]
  case reload =>
    have hcanonical : c.image.any (fun q => !q.imagesOk) = false := by simpa using himages
    change execSpillReloadComplete k false s = _
    simp [execSpillReloadComplete, hchunk, hstate, hcanonical, hspill, hpages]

end Sys2Proof.Machine
end

section
/-! CMD_CLASS_CONFIG and its effective times (R281, R284, R296), and a shaper that becomes eligible (R291): what the command and each event
answer. -/

namespace Sys2Proof.Machine

/-! ## CMD_CLASS_CONFIG (R281, R284, R296) -/

/-- R281, R284, R388: values in range, where RADIO_TILES stays as it is, or the groups of the new set stand at divider point 0 and no
collective is open. -/
theorem execCmdClassConfig_inRange {h : CmdHdr} {rs rt : Nat} {e : HT} {s : State}
    (hrun : RunsHere (.cmdClassConfig h s.boot.cfg.pairId rs rt e) s) (hslots : rs ≤ 16) (htiles : rt ≤ s.params.maxRadioTiles)
    (hahead : s.htNs + 1000000 ≤ e) (hchange : rt = s.sched.radioTiles ∨ (s.radioGroups rt = true ∧ s.coll.hub = [])) :
    execCmdClassConfig h s.boot.cfg.pairId rs rt e s = .next
      ((({ s with sched := { s.sched with tilesPend := some (rt, e) } } : State).mirror (.radioTiles rt e)).distBegin (.classConfig rs e) h.src none
        (layout [(2, s.sched.radioSlots), (2, s.sched.radioTiles)]) none) := by
  have hrange : ¬ (s.boot.cfg.pairId ≠ s.boot.cfg.pairId ∨ 16 < rs ∨ s.params.maxRadioTiles < rt ∨ e < s.htNs + 1000000) := by
    simp [hslots, htiles, hahead]
  refine runCmd_wait_of_runsHere hrun rfl ?_
  rw [if_neg hrange]
  obtain hkept | ⟨hgroups, hnone⟩ := hchange
  · simp [hkept]
  · simp [hgroups, hnone]

/-! ## The effective times (R281, R284) -/

/-- R281: nothing pending is never due. -/
@[simp] theorem slotsDue_none (now : HT) : slotsDue now none = none := rfl

/-- R281: the pair's share takes effect while none from above is pending. -/
theorem execRadioSlotsApply_own {s : State} {v : Nat} (hdue : slotsDue s.htNs s.sched.slotsPend = some v) (hup : s.sched.upSlotsPend = none) :
    execRadioSlotsApply s = .next { s with sched := { s.sched with radioSlots := v, slotsPend := none } } := by
  simp [execRadioSlotsApply, hdue, hup]

/-- R284: a pending RADIO_TILES of a Hub whose effective HT has come chooses the radio tiles and is pending no more. -/
theorem execRadioTilesApply_due {s : State} {n : Nat} {e : HT} (hhub : s.isHub = true) (hpend : s.sched.tilesPend = some (n, e))
    (hdue : e ≤ s.htNs) :
    execRadioTilesApply s = .next { s.chooseRadio n with sched := { (s.chooseRadio n).sched with tilesPend := none } } := by
  simp [execRadioTilesApply, hhub, hpend, hdue]

/-! ## Shapers (R291) -/

/-- R291: the held queue of a Leaf wakes where it is not awake. -/
theorem execShaperEligible_held {s : State} {c : Nat} (hleaf : s.isHub = false) (hheld : (s.shapeOf c).held = true)
    (heligible : (s.shapeOf c).eligible = true) :
    execShaperEligible c s = .next (([0, 1].filter (fun p => !s.sched.awake.contains (p * 256 + c))).foldl (fun s p => s.wakeQueue p c)
      (s.modShape c (fun x => { x with held := false }))) := by
  simp only [execShaperEligible, hleaf, hheld, heligible, Bool.not_false, Bool.and_self, if_true]

end Sys2Proof.Machine
end

section
namespace Sys2Proof.Machine

/-- Settles O24, the command and then event by event. -/
theorem classesAndShaping : Obligations.ClassesAndShaping := by
  unfold Obligations.ClassesAndShaping
  refine ⟨?config,
    fun s v hdue hup => execRadioSlotsApply_own hdue hup,
    fun s n e hhub hpend hdue => ⟨_, execRadioTilesApply_due hhub hpend hdue, rfl, rfl⟩,
    fun s c hleaf hheld heligible => execShaperEligible_held hleaf hheld heligible⟩
  case config =>
    rintro h _ rs rt e s hrun rfl hslots htiles hahead hchange
    exact execCmdClassConfig_inRange hrun hslots htiles hahead hchange

end Sys2Proof.Machine
end

section
/-! What every step keeps (R447, R507), from what every command and a tick keep, and the state that they start from. -/

namespace Sys2Proof.Machine

/-- R507: a step leaves a well-formed answer of the register interface. -/
theorem step_rgOk {s t : State} (hok : s.RgOk) (h : step s = .next t) : t.RgOk := by
  obtain ⟨_, hkept⟩ | ⟨_, _, _, _, _, _, hrg, _⟩ := step_next h
  · have hrg : t.rg = s.rg := congrArg (fun k => k.2.2.1) hkept
    rwa [State.RgOk, hrg]
  · obtain hsame | hwf := hrg
    · rwa [State.RgOk, hsame]
    · exact hwf

/-- R447: a tick is a step that every command's relation covers. -/
theorem step_keyOk {s t : State} (hok : s.KeyOk) (h : step s = .next t) : t.KeyOk := by
  obtain ⟨_, hkept⟩ | ⟨_, _, _, _, _, _, _, hkey⟩ := step_next h
  · exact (good_kept hkept).1.2.2.2 hok
  · exact hkey hok

/-- R447, R474: a step whose front command is not a power-on reset locks no unlocked block. -/
theorem step_unlocked {s t : State} (hfront : s.pending.head? ≠ some .powerOnReset) (hunlocked : s.sec.unlocked = true) (h : step s = .next t) :
    t.sec.unlocked = true := by
  cases hq : s.pending with
  | nil => exact (good_kept (tick_kept (by simpa only [step, hq] using h))).2 hunlocked
  | cons i r =>
    rw [step_cons hq] at h
    obtain ⟨u, hu, hgood⟩ := exec_good (i := i) (by rintro rfl; simp [hq] at hfront) (s.withPending r)
    obtain rfl : u = t := by simpa [hu] using h
    exact hgood.2 hunlocked

end Sys2Proof.Machine
end

section
namespace Sys2Proof.Machine

/-- Settles O46: a tick answers no access, and every command keeps the answer or gives a well-formed one. -/
theorem errorResponsesCarryZero : Obligations.ErrorResponsesCarryZero := by
  unfold Obligations.ErrorResponsesCarryZero
  exact fun s t hok h => step_rgOk hok h

/-- Settles O47: no step gives a key to an unlocked block, and only a power-on reset locks it. -/
theorem unlockedBlocksHoldNoKey : Obligations.UnlockedBlocksHoldNoKey := by
  unfold Obligations.UnlockedBlocksHoldNoKey
  refine ⟨fun s t hok h => step_keyOk hok h, fun s t hfront hok hunlocked h => ?_⟩
  have hstill := step_unlocked hfront hunlocked h
  exact ⟨hstill, step_keyOk hok h hstill⟩

/-- Settles O48: State.reset is one closed state, whose fields are what the statement says. -/
theorem invariantsAtReset : Obligations.InvariantsAtReset := by
  unfold Obligations.InvariantsAtReset State.RgOk State.KeyOk
  decide

/-- Settles O41: the queue of the state decides what a step runs. -/
theorem stepTakesTheFrontCommand : Obligations.StepTakesTheFrontCommand := by
  unfold Obligations.StepTakesTheFrontCommand
  refine ⟨fun s c r => step_cons rfl, fun s hempty => ?_⟩
  rw [step, hempty]

end Sys2Proof.Machine
end

section
/-! The requests of a transfer on the fabric (R509): by induction on the fuel, with the address and the bytes general. -/

namespace Sys2Proof.Machine

variable {n a : Nat} {l : List Byte}

/-- R509: what reaches to the 4 KiB boundary at most is one request. -/
theorem fabricPieces_fits (hfits : l.length ≤ 4096 - a % 4096) : fabricPieces (n + 1) a l = [(a, l)] := if_pos hfits

/-- R509: of what goes beyond the boundary the first request ends there. -/
theorem fabricPieces_crosses (hcross : 4096 - a % 4096 < l.length) :
    fabricPieces (n + 1) a l =
      (a, l.take (4096 - a % 4096)) :: fabricPieces n (a + (4096 - a % 4096)) (l.drop (4096 - a % 4096)) := if_neg (Nat.not_le.mpr hcross)

/-- The bytes of the requests are those of the transfer. -/
theorem fabricPieces_bytes (hfuel : l.length < n) : ((fabricPieces n a l).map (fun e => e.2)).flatten = l := by
  induction n generalizing a l with
  | zero => omega
  | succ n ih =>
    by_cases hfits : l.length ≤ 4096 - a % 4096
    · simp [fabricPieces_fits hfits]
    · have hpos : a % 4096 < 4096 := Nat.mod_lt a (by decide)
      rw [fabricPieces_crosses (Nat.not_le.mp hfits), List.map_cons, List.flatten_cons, ih (by rw [List.length_drop]; omega), List.take_append_drop]

/-- A request starts where those before it end. -/
theorem fabricPieces_start {ps qs : List (Nat × List Byte)} {e : Nat × List Byte} (hcut : fabricPieces n a l = ps ++ e :: qs) :
    e.1 = a + ((ps.map (fun x => x.2)).flatten).length := by
  induction n generalizing a l ps with
  | zero => simp [fabricPieces] at hcut
  | succ n ih =>
    by_cases hfits : l.length ≤ 4096 - a % 4096
    · rw [fabricPieces_fits hfits] at hcut
      obtain ⟨rfl, rfl, _⟩ : ps = [] ∧ e = (a, l) ∧ qs = [] := by
        cases ps <;> simp_all
      rfl
    · have hcross := Nat.not_le.mp hfits
      rw [fabricPieces_crosses hcross] at hcut
      cases ps with
      | nil =>
        obtain ⟨rfl, _⟩ := List.cons.inj hcut
        rfl
      | cons p ps =>
        obtain ⟨rfl, hrest⟩ := List.cons.inj hcut
        simp only [ih hrest, List.map_cons, List.flatten_cons, List.length_append, List.length_take, Nat.min_eq_left hcross.le, Nat.add_assoc]

/-- A request is no longer than what is left up to the boundary. -/
theorem fabricPieces_length {e : Nat × List Byte} (he : e ∈ fabricPieces n a l) : e.2.length ≤ 4096 - e.1 % 4096 := by
  induction n generalizing a l with
  | zero => simp [fabricPieces] at he
  | succ n ih =>
    by_cases hfits : l.length ≤ 4096 - a % 4096
    · rw [fabricPieces_fits hfits, List.mem_singleton] at he
      rwa [he]
    · rw [fabricPieces_crosses (Nat.not_le.mp hfits), List.mem_cons] at he
      obtain rfl | hrest := he
      · exact List.length_take_le _ _
      · exact ih hrest

end Sys2Proof.Machine
end

section
namespace Sys2Proof.Machine

/-- Settles O56: the bytes, the starts and the ends of the requests. -/
theorem transfersAreCut : Obligations.TransfersAreCut := by
  unfold Obligations.TransfersAreCut
  refine ⟨fun a l => fabricPieces_bytes (Nat.lt_succ_self _), fun a l ps qs e hcut => fabricPieces_start hcut, fun a l e he hsome => ?_⟩
  have hlength := fabricPieces_length he
  omega

end Sys2Proof.Machine
end

section
/-! The journal's symbol code (R346 to R348): multiplying by a power of α is linear, so that a fact about it needs a look at the eight basis
symbols only; from there the check symbols, the syndromes of one wrong symbol, and the decoder. -/

namespace Sys2Proof.Machine

/-! ## The field -/

/-- A symbol is the sum of its bits, so that what sums keep holds of every symbol when it holds of one bit. -/
theorem sym_induction {P : Sym → Prop} (hzero : P 0#8) (hxor : ∀ a b, P a → P b → P (a ^^^ b)) (hbit : ∀ i < 8, P (BitVec.twoPow 8 i)) (v : Sym) :
    P v := by
  have hsum : ∀ v : Sym, v = (List.range 8).foldr (fun i r => (if v.getLsbD i then BitVec.twoPow 8 i else 0#8) ^^^ r) 0#8 := by decide +kernel
  rw [hsum v]
  have hrange : ∀ i ∈ List.range 8, i < 8 := fun i hi => List.mem_range.mp hi
  generalize List.range 8 = l at hrange
  induction l with
  | nil => exact hzero
  | cons i l ih =>
    obtain ⟨hi, hl⟩ := List.forall_mem_cons.mp hrange
    refine hxor _ _ ?_ (ih hl)
    split
    · exact hbit i hi
    · exact hzero

@[simp] theorem gfDouble_zero : gfDouble 0#8 = 0#8 := rfl

theorem gfDouble_iterate_xor (n : Nat) (a b : Sym) : gfDouble^[n] (a ^^^ b) = gfDouble^[n] a ^^^ gfDouble^[n] b := by
  induction n generalizing a b with
  | zero => rfl
  | succ n ih => simp only [Function.iterate_succ_apply, gfDouble_xor, ih]

@[simp] theorem gfDouble_iterate_zero (n : Nat) : gfDouble^[n] 0#8 = 0#8 := Function.iterate_fixed gfDouble_zero n

/-- Times αⁿ is n times doubled, for the powers that a codeword uses. -/
theorem gfMul_gfAlpha {n : Nat} (hn : n < 20) (v : Sym) : gfMul v (gfAlpha n) = gfDouble^[n] v := by
  induction v using sym_induction with
  | hzero => simp
  | hxor a b ha hb => rw [gfMul_xor_left, gfDouble_iterate_xor, ha, hb]
  | hbit i hi =>
    revert n i
    decide +kernel

/-- 1 + αⁿ has an inverse, so that no symbol but 0 stays itself when it is n times doubled. -/
theorem eq_zero_of_gfDouble_iterate {n : Nat} (hpos : 0 < n) (hn : n < 20) {v : Sym} (hfix : gfDouble^[n] v = v) : v = 0#8 := by
  have hinverse : ∀ n < 20, 0 < n → ∃ c : Sym, ∀ i < 8,
      gfMul (BitVec.twoPow 8 i ^^^ gfDouble^[n] (BitVec.twoPow 8 i)) c = BitVec.twoPow 8 i := by decide +kernel
  obtain ⟨c, hc⟩ := hinverse n hn hpos
  have hback : ∀ u, gfMul (u ^^^ gfDouble^[n] u) c = u := fun u => by
    induction u using sym_induction with
    | hzero => simp
    | hxor a b ha hb =>
      have hsplit : a ^^^ b ^^^ (gfDouble^[n] a ^^^ gfDouble^[n] b) = (a ^^^ gfDouble^[n] a) ^^^ (b ^^^ gfDouble^[n] b) := by ac_rfl
      rw [gfDouble_iterate_xor, hsplit, gfMul_xor_left, ha, hb]
    | hbit i hi => exact hc i hi
  simpa [hfix] using (hback v).symm

theorem gfDouble_injective : Function.Injective gfDouble := by
  intro a b hab
  have hzero : gfDouble (a ^^^ b) = 0#8 := by rw [gfDouble_xor, hab, BitVec.xor_self]
  have hkernel : ∀ v : Sym, gfDouble v = 0#8 → v = 0#8 := by decide +kernel
  exact BitVec.xor_eq_zero_iff.mp (hkernel _ hzero)

/-- Different powers of α take a symbol that is not 0 to different symbols. -/
theorem gfDouble_iterate_inj {m n : Nat} (hm : m < 20) (hn : n < 20) {v : Sym} (hv : v ≠ 0#8) (heq : gfDouble^[m] v = gfDouble^[n] v) : m = n := by
  wlog hle : m ≤ n generalizing m n
  · exact (this hn hm heq.symm (Nat.le_of_not_le hle)).symm
  by_contra hne
  refine hv (eq_zero_of_gfDouble_iterate (n := n - m) (by omega) (by omega) ?_)
  refine gfDouble_injective.iterate m ?_
  rw [← Function.iterate_add_apply, Nat.add_sub_cancel' hle, heq]

/-! ## The check symbols (R346) -/

/-- The generator is 0 at α⁰ to α³: at each, times x⁴ is what its other coefficients give. -/
theorem rsGen_root {i : Nat} (hi : i < 4) (f : Sym) :
    gfMul (gfMul (gfMul (gfMul f 15#8) (gfAlpha i)) (gfAlpha i)) (gfAlpha i) ^^^ gfMul (gfMul (gfMul f 54#8) (gfAlpha i)) (gfAlpha i) ^^^
      gfMul (gfMul f 120#8) (gfAlpha i) ^^^ gfMul f 64#8 = gfMul (gfMul (gfMul (gfMul f (gfAlpha i)) (gfAlpha i)) (gfAlpha i)) (gfAlpha i) := by
  induction f using sym_induction with
  | hzero => simp
  | hxor a b ha hb =>
    simp only [gfMul_xor_left, ← ha, ← hb]
    ac_rfl
  | hbit j hj =>
    revert i j
    decide +kernel

theorem rsGen_tail : rsGen.drop 1 = [15#8, 54#8, 120#8, 64#8] := by decide +kernel

/-- A sum taken together in pairs. -/
theorem xor_pairs {e f g h y : Sym} (hsum : e ^^^ f ^^^ g ^^^ h = y) (p q r : Sym) :
    (p ^^^ e) ^^^ (q ^^^ f) ^^^ (r ^^^ g) ^^^ h = p ^^^ q ^^^ r ^^^ y := by
  subst hsum
  ac_rfl

/-- The four check symbols, as a polynomial, are at α⁰ to α³ what the data times x⁴ are. -/
theorem rsCheck_eval {i : Nat} (hi : i < 4) (data : List Sym) : ∃ a b c d, rsCheck data = [a, b, c, d] ∧
    gfMul (gfMul (gfMul a (gfAlpha i)) (gfAlpha i)) (gfAlpha i) ^^^ gfMul (gfMul b (gfAlpha i)) (gfAlpha i) ^^^ gfMul c (gfAlpha i) ^^^ d =
      gfMul (gfMul (gfMul (gfMul (rsSyn data i) (gfAlpha i)) (gfAlpha i)) (gfAlpha i)) (gfAlpha i) := by
  induction data using List.reverseRecOn with
  | nil => exact ⟨0#8, 0#8, 0#8, 0#8, rfl, by simp [rsSyn]⟩
  | append_singleton data x ih =>
    obtain ⟨a, b, c, d, hcheck, heval⟩ := ih
    refine ⟨b ^^^ gfMul (x ^^^ a) 15#8, c ^^^ gfMul (x ^^^ a) 54#8, d ^^^ gfMul (x ^^^ a) 120#8, 0#8 ^^^ gfMul (x ^^^ a) 64#8, ?_, ?_⟩
    · rw [rsCheck, List.foldl_append, ← rsCheck, hcheck, rsGen_tail]
      rfl
    · rw [rsSyn, List.foldl_append, ← rsSyn]
      have hroot := rsGen_root hi (x ^^^ a)
      generalize gfMul (x ^^^ a) 15#8 = e at hroot ⊢
      generalize gfMul (x ^^^ a) 54#8 = f at hroot ⊢
      generalize gfMul (x ^^^ a) 120#8 = g at hroot ⊢
      generalize gfMul (x ^^^ a) 64#8 = h at hroot ⊢
      simp only [List.foldl_cons, List.foldl_nil, gfMul_xor_left, ← heval, BitVec.zero_xor] at hroot ⊢
      rw [xor_pairs hroot]
      ac_rfl

/-- R346: every syndrome of a codeword is 0. -/
theorem rsSyn_rsEncode {i : Nat} (hi : i < 4) (data : List Sym) : rsSyn (rsEncode data) i = 0#8 := by
  obtain ⟨a, b, c, d, hcheck, heval⟩ := rsCheck_eval hi data
  rw [rsEncode, hcheck, rsSyn, List.foldl_append, ← rsSyn]
  simp only [List.foldl_cons, List.foldl_nil, gfMul_xor_left, ← heval]
  have hself : ∀ p q r : Sym, (p ^^^ q ^^^ r ^^^ d) ^^^ p ^^^ q ^^^ r ^^^ d = 0#8 := fun p q r => by
    rw [BitVec.xor_assoc _ p q, BitVec.xor_assoc _ _ r, BitVec.xor_assoc _ _ d, BitVec.xor_self]
  exact hself _ _ _

/-! ## One wrong symbol (R347) -/

/-- A word with one symbol that is not 0, at a position of Table 14.1. -/
def wordAt (p : Nat) (v : Sym) : List Sym := (List.range 20).map (fun q => if q = p then v else 0#8)

theorem wordAt_eq {p : Nat} (hp : p < 20) (v : Sym) : wordAt p v = List.replicate p 0#8 ++ v :: List.replicate (19 - p) 0#8 := by
  interval_cases p <;> rfl

/-- Table 14.1. -/
theorem symDev_devPos : ∀ p < 20, devPos (symDev p) = p ∧ symDev (devPos p) = p ∧ symDev p < 20 ∧ devPos p < 20 := by decide

/-- Syndrome i of one wrong symbol v at position p is v times the i-th power of the position's locator. -/
theorem rsSyn_wordAt {p i : Nat} (hp : p < 20) (hi : i < 4) (v : Sym) : rsSyn (wordAt p v) i = (gfDouble^[19 - p])^[i] v := by
  have htail : ∀ (n : Nat) (r : Sym), (List.replicate n 0#8).foldl (fun r c => gfMul r (gfAlpha i) ^^^ c) r = (gfDouble^[i])^[n] r := fun n => by
    induction n with
    | zero => exact fun r => rfl
    | succ n ih =>
      intro r
      rw [List.replicate_succ, List.foldl_cons, ih, BitVec.xor_zero, gfMul_gfAlpha (Nat.lt_trans hi (by decide)), Function.iterate_succ_apply]
  rw [wordAt_eq hp, rsSyn, List.foldl_append, htail, List.foldl_cons, htail, Function.iterate_fixed (gfDouble_iterate_zero i), gfMul_zero_left,
    BitVec.zero_xor, ← Function.iterate_mul, ← Function.iterate_mul, Nat.mul_comm]

/-- The four syndromes of one wrong symbol. -/
theorem rsSyns_wordAt {p : Nat} (hp : p < 20) (v : Sym) :
    (List.range 4).map (rsSyn (wordAt p v)) = (List.range 4).map (fun i => (gfDouble^[19 - p])^[i] v) :=
  List.map_congr_left fun _ hi => rsSyn_wordAt hp (List.mem_range.mp hi) v

/-- The wrong bits of codeword j in one device make one wrong symbol, at the device's position. -/
theorem cwSyns_of_device {e : JournalErr} {d : Nat} (hd : d < 20) (herrs : ∀ x ∈ e.errs, x.dev = d) (j : Nat) :
    ∃ v, cwSyns e j = (List.range 4).map (fun i => (gfDouble^[19 - devPos d])^[i] v) := by
  obtain ⟨_, hback, _, hpos⟩ := symDev_devPos d hd
  refine ⟨(e.errs.filter (fun x => x.cw == j && x.dev == d)).foldl (fun v x => v ^^^ x.bits) 0#8, ?_⟩
  rw [← rsSyns_wordAt hpos, cwSyns, wordAt]
  refine congrArg (fun w => (List.range 4).map (rsSyn w)) (List.map_congr_left fun p hp => ?_)
  obtain ⟨hinv, _⟩ := symDev_devPos p (List.mem_range.mp hp)
  split
  · next heq => rw [heq, hback]
  · next hne =>
    have hnone : e.errs.filter (fun x => x.cw == j && x.dev == symDev p) = [] := List.filter_eq_nil_iff.mpr fun x hx => by
      have hother : d ≠ symDev p := fun h => hne (by rw [h, hinv])
      simp [herrs x hx, hother]
    rw [hnone]
    rfl

/-- R347: the syndromes of one wrong symbol name its position and no other. -/
theorem rsLocate_of_one {p : Nat} (hp : p < 20) {v : Sym} (hv : v ≠ 0#8) :
    rsLocate ((List.range 4).map (fun i => (gfDouble^[19 - p])^[i] v)) none = some p := by
  have hlt : ∀ q, 19 - q < 20 := fun q => by omega
  rw [rsLocate]
  cases hfind : (List.range 20).find? _ with
  | none =>
    have hno := List.find?_eq_none.mp hfind p (List.mem_range.mpr hp)
    exact absurd (by simp [List.range, List.range.loop, gfMul_gfAlpha (hlt p), hv]) hno
  | some q =>
    have hq := List.mem_range.mp (List.mem_of_find?_eq_some hfind)
    have hyes := List.find?_some hfind
    have hfirst : gfDouble^[19 - p] v = gfDouble^[19 - q] v := by
      simp only [List.range, List.range.loop, List.map, List.drop, List.zip, List.zipWith, List.all, Function.iterate_zero_apply, Function.iterate_one,
        gfMul_gfAlpha (hlt q), Bool.and_eq_true, beq_iff_eq] at hyes
      obtain ⟨_, hfirst, _⟩ := hyes
      exact hfirst
    have heq := gfDouble_iterate_inj (hlt p) (hlt q) hv hfirst
    exact congrArg some (by omega)

/-! ## The decoder (R347, R348) -/

/-- R347, R348: wrong bits in one device alone are corrected there, on a channel without a mark and on one that marks that device. -/
theorem decodeCw_of_device {mark : Option Nat} {e : JournalErr} {d : Nat} (hd : d < 20) (herrs : ∀ x ∈ e.errs, x.dev = d)
    (hmark : mark = none ∨ mark = some d) (j : Nat) : decodeCw mark (cwSyns e j) = .clean ∨ decodeCw mark (cwSyns e j) = .fixed [d] := by
  obtain ⟨_, hback, _, hpos⟩ := symDev_devPos d hd
  obtain ⟨v, hsyns⟩ := cwSyns_of_device hd herrs j
  rw [hsyns]
  by_cases hv : v = 0#8
  · left
    simp [decodeCw, hv, Function.iterate_fixed (gfDouble_iterate_zero _)]
  · right
    have herror : ((List.range 4).map (fun i => (gfDouble^[19 - devPos d])^[i] v)).all (· == 0#8) = false := by
      simp [List.range, List.range.loop, hv]
    obtain rfl | rfl := hmark
    · simp only [decodeCw, herror, rsLocate_of_one hpos hv, hback, Bool.false_eq_true, if_false]
    · rw [decodeCw.eq_def, herror]
      simp [List.range, List.range.loop, gfMul_gfAlpha (Nat.lt_of_le_of_lt (Nat.sub_le 19 (devPos d)) (by decide))]

/-- Entries that are all the same leave one at most when repetitions are taken out. -/
theorem length_eraseDups_le_one {d : Nat} {l : List Nat} (hall : ∀ x ∈ l, x = d) : l.eraseDups.length ≤ 1 := by
  cases l with
  | nil => exact Nat.zero_le _
  | cons a l =>
    have hrest : l.filter (fun b => !b == a) = [] := List.filter_eq_nil_iff.mpr fun x hx => by
      simp [hall x (List.mem_cons_of_mem a hx), hall a List.mem_cons_self]
    rw [List.eraseDups_cons, hrest]
    exact Nat.le_refl _

/-- An access of which every codeword is without an error or corrected in one device. -/
theorem decodeAcc_of_device {mark : Option Nat} {e : JournalErr} {d : Nat}
    (hcws : ∀ j, decodeCw mark (cwSyns e j) = .clean ∨ decodeCw mark (cwSyns e j) = .fixed [d]) :
    ∃ l, decodeAcc mark e = some l ∧ ∀ x ∈ l, x = d := by
  have houts : ∀ o ∈ decodeCws mark e, o = .clean ∨ o = .fixed [d] := fun o ho => by
    obtain ⟨j, _, rfl⟩ := List.mem_map.mp ho
    exact hcws j
  have hnamed : ∀ x ∈ namedDevs mark e, x = d := fun x hx => by
    obtain ⟨o, ho, hx⟩ := List.mem_flatMap.mp (List.mem_eraseDups.mp hx)
    obtain rfl | rfl := houts o ho
    · exact absurd hx List.not_mem_nil
    · exact List.mem_singleton.mp hx
  have hgood : (decodeCws mark e).any (· == .bad) = false := List.any_eq_false.mpr fun o ho => by
    obtain rfl | rfl := houts o ho <;> simp
  have hshort : ((namedDevs mark e).filter (fun x => mark != some x)).length ≤ 1 := by
    refine Nat.le_trans (List.length_filter_le _ _) (length_eraseDups_le_one (d := d) fun x hx => ?_)
    exact hnamed x (List.mem_eraseDups.mpr hx)
  exact ⟨(namedDevs mark e).filter (fun x => mark != some x), by simp [decodeAcc, hgood, Nat.not_lt.mpr hshort], fun x hx => hnamed x (List.mem_of_mem_filter hx)⟩

end Sys2Proof.Machine
end

section
namespace Sys2Proof.Machine

/-- Settles O55: Table 14.1 is finite; the syndromes of a codeword by the generator's roots, and the decoder by the locators of the positions. -/
theorem symbolCode : Obligations.SymbolCode := by
  unfold Obligations.SymbolCode
  exact ⟨symDev_devPos, fun data i hi => rsSyn_rsEncode hi data,
    fun e d hd herrs => decodeAcc_of_device (decodeCw_of_device hd herrs (.inl rfl)),
    fun e d hd herrs => decodeAcc_of_device (decodeCw_of_device hd herrs (.inr rfl))⟩

end Sys2Proof.Machine
end

section
/-! The commands of the mailboxes all run in one way (R460, R461, R545): the checks, the reads over the fabric, the route. -/

namespace Sys2Proof.Machine

/-- What a command reads is there or not, whatever it is. -/
theorem runRead_unit {α : Type} (inf : CmdInfo) (h : CmdHdr) (s : State) (r : FabRead α) (body : State → CmdRes) :
    runRead inf h s (bothReads (.ok ()) r) body = runRead inf h s r body := by
  simp only [runRead, bothReads_unit]

/-- A command that makes no read of its own. -/
theorem runRead_ok (inf : CmdInfo) (h : CmdHdr) (s : State) (body : State → CmdRes) :
    runRead inf h s (FabRead.ok ()) body = runCmd inf h s body := by
  simp only [runRead, bothReads_ok_right, ite_self]

/-- Every command of Table 19.7 runs with its row, its header and its own read. -/
theorem exec_of_cmdOf {i : Instr} {s : State} {inf : CmdInfo} {h : CmdHdr} (hrow : cmdOf i s = some (inf, h)) :
    ∃ body, exec i s = runRead inf h s (ownRead i) body := by
  cases i
  all_goals simp only [cmdOf, Option.some.injEq, Prod.mk.injEq, reduceCtorEq] at hrow
  all_goals obtain ⟨rfl, rfl⟩ := hrow
  all_goals rw [exec]
  all_goals simp only [ownRead, runRead_unit]
  case docketLoad | collPlanOpen | manifestRegister | manifestVerify | patternLoad | powerPlanLoad | attestCertLoad | cmdCtxOpen | debugUnlock
      | cmdFwStage => exact ⟨_, rfl⟩
  all_goals exact ⟨_, (runRead_ok ..).symm⟩

end Sys2Proof.Machine
end

section
/-! What a read of a register returns (R444, R507, R530): by the register at the address, the access's right and the register's own rule. -/

namespace Sys2Proof.Machine

variable {s : State} {a access : Nat} {r : Reg}

/-- R507, R530: no register lies there. -/
theorem regRead_of_noReg (hat : regAt s.params a = none) : s.regRead a access = (0, true) := by
  simp only [State.regRead, hat]

/-- R444: no right to the register. -/
theorem regRead_of_noRight (hat : regAt s.params a = some r) (hright : s.regRight r access = false) : s.regRead a access = (0, true) := by
  simp [State.regRead, hat, hright]

/-- R507: the value of the register. -/
theorem regRead_of_right (hat : regAt s.params a = some r) (hright : s.regRight r access = true) (hread : s.readFails r access = false) :
    s.regRead a access = (s.regVal r access, false) := by
  simp [State.regRead, hat, hright, hread]

/-- R507: an error response carries the data 0. -/
theorem regRead_error (herr : (s.regRead a access).2 = true) : (s.regRead a access).1 = 0 := by
  cases hat : regAt s.params a with
  | none => rw [regRead_of_noReg hat]
  | some r =>
    by_cases hread : (s.regRight r access && !s.readFails r access) = true
    · simp [State.regRead, hat, hread] at herr
    · simp only [State.regRead, hat, if_neg hread]

/-- R444: a tenant has no right to an operator's register. -/
theorem regRight_of_op (htenant : access ≠ 0) (hclass : s.regClass r = .op) : s.regRight r access = false := by
  simp [State.regRight, hclass, htenant]

/-- R444: a tenant has no right to a register of another slot. -/
theorem regRight_of_otherSlot {c : Nat} (htenant : access ≠ 0) (hclass : s.regClass r = .slot c) (hother : access ≠ c) :
    s.regRight r access = false := by
  simp [State.regRight, hclass, State.mayUse, htenant, hother]

end Sys2Proof.Machine
end

section
namespace Sys2Proof.Machine

/-- Settles O49: every command of Table 19.7 is run by the one way that the checks, the routes and the reads belong to. -/
theorem commandsFailTheirChecks : Obligations.CommandsFailTheirChecks := by
  unfold Obligations.CommandsFailTheirChecks
  refine ⟨fun i s inf h c hrow hgate => ?fails, fun i s inf h hrow hgate hreads => ⟨fun hroute => ?up, fun hroute => ?chord⟩,
    fun i s t inf h c hrow hgate hroute hfailed => ?unread⟩
  all_goals
    obtain ⟨body, hexec⟩ := exec_of_cmdOf hrow
    rw [hexec]
  case fails => exact runRead_fails body hgate
  case up => exact runRead_up body hgate hreads hroute
  case chord => exact runRead_chord body hgate hreads hroute
  case unread => exact runRead_unread body hgate hroute hfailed

/-- Settles O50, read by read and class by class. -/
theorem registerReadsAndRights : Obligations.RegisterReadsAndRights := by
  unfold Obligations.RegisterReadsAndRights
  exact ⟨fun s a k => ⟨regRead_of_noReg, fun r hat hright => regRead_of_noRight hat hright,
      fun r hat hright hread => regRead_of_right hat hright hread, regRead_error⟩,
    fun s r k c htenant => ⟨regRight_of_op htenant, regRight_of_otherSlot htenant⟩⟩

end Sys2Proof.Machine
end

section
/-! Hallmark batches and the manifests of a Leaf (R306, R308, R311, R315): what their commands' bodies answer. -/

namespace Sys2Proof.Machine

variable {s t : State} {h : CmdHdr}

/-- R306: a due batch of a primary with keys is signed. -/
theorem execHallmarkBatchClose_due (hprimary : s.isPrimary = true) (hdue : s.batchDue = true) (hkeys : s.sec.keysValid = true) :
    execHallmarkBatchClose s = .next s.signBatch := by
  simp [execHallmarkBatchClose, hprimary, hdue, hkeys]

/-- R308: batches that the archive holds. -/
theorem execCmdHallmarkRead_held {first count addr len : Nat} {l : List Batch} (hrun : RunsHere (.cmdHallmarkRead h first count addr len none false) s)
    (hl : l = s.hm.archive.filter (fun b => decide (first ≤ b.seq) && decide (b.seq < first + count))) (hheld : l.length = count)
    (hmin : 1 ≤ count) (hmax : count ≤ 256) (halign : addr % 64 = 0) (hroom : (l.map batchSize).sum ≤ len) :
    execCmdHallmarkRead h first count addr len none false s = .next (complete (s.fabricWrite addr (l.flatMap batchBytes) false 1) h.src 0x0502 .ok
      (layout [(2, l.length), (4, (l.map batchSize).sum), (8, s.oldestBatch)])) := by
  refine runCmd_of_runsHere hrun rfl ?_
  have hsome : l.isEmpty = false := by
    cases l with
    | nil => simp only [List.length_nil] at hheld; omega
    | cons b l => rfl
  simp only [← hl, hheld, halign, hsome, Nat.not_lt.mpr hmin, Nat.not_lt.mpr hmax, Nat.not_lt.mpr hroom, ne_eq, not_true_eq_false, or_self, if_false,
    Bool.false_eq_true, CmdRes.ok]

/-! ## Manifests (R311) -/

/-- R311: the Assay engine takes the segments of a valid manifest that are those that their entries describe. -/
theorem assayRun_sound {c n : Nat} {f : List Byte} {items : List (Nat × FabRead (List Byte))} (k : State → Nat → CmdRes) (hmin : 1 ≤ items.length)
    (hmax : items.length ≤ 1024) (hasc : ascending (items.map (·.1)) = true) (hfile : manifestEntries f = some n)
    (hitems : ∀ i ∈ items, i.1 < n ∧ ∃ g, i.2 = .ok g ∧ entryOk f i.1 g = true) :
    s.assayRun c (.ok f) items k =
      k { s with hm := { s.hm with assaySlot := c, assay := 3 } } (Config.sha384 f) := by
  have hin : items.any (fun i => decide (n ≤ i.1)) = false :=
    List.any_eq_false.mpr fun i hi => by simpa using (hitems i hi).1
  simp only [State.assayRun, Nat.not_lt.mpr hmin, Nat.not_lt.mpr hmax, hasc, Bool.true_eq_false, or_self, if_false, withRead, hfile, hin,
    Bool.false_eq_true]
  exact State.hashItems_ok fun i hi => (hitems i hi).2

variable {label n : Nat} {f : List Byte} {items : List (Nat × FabRead (List Byte))}

/-- R311: REGISTER of a sound manifest of a context without one and without a collective. -/
theorem execManifestRegister_sound (hrun : RunsHere (.manifestRegister h label (.ok f) items) s) (hnone : s.manifest h.slot = none)
    (hidle : s.leafCollOpen h.slot = false) (hmin : 1 ≤ items.length) (hmax : items.length ≤ 1024) (hasc : ascending (items.map (·.1)) = true)
    (hfile : manifestEntries f = some n) (hitems : ∀ i ∈ items, i.1 < n ∧ ∃ g, i.2 = .ok g ∧ entryOk f i.1 g = true) :
    execManifestRegister h label (.ok f) items s = .next (complete
      (({ s with hm := { s.hm with
          assaySlot := h.slot, assay := 2, manifests := s.hm.manifests.set none (h.slot * 256) (some (Config.sha384 f, label)) } } : State).sendUp
        (.manifest h.slot h.gen (Config.sha384 f) label)) h.src 0x0501 .ok (manifestOut (Config.sha384 f) label items.length)) := by
  refine runRead_of_runsHere hrun rfl ?_
  simp only [hnone, hidle, Option.isSome_none, Bool.false_eq_true, if_false]
  exact assayRun_sound _ hmin hmax hasc hfile hitems

/-- R311: VERIFY of the manifest whose digest is registered. -/
theorem execManifestVerify_registered (hrun : RunsHere (.manifestVerify h (.ok f) items) s)
    (hreg : s.manifest h.slot = some (Config.sha384 f, label)) (hmin : 1 ≤ items.length) (hmax : items.length ≤ 1024)
    (hasc : ascending (items.map (·.1)) = true) (hfile : manifestEntries f = some n)
    (hitems : ∀ i ∈ items, i.1 < n ∧ ∃ g, i.2 = .ok g ∧ entryOk f i.1 g = true) :
    execManifestVerify h (.ok f) items s = .next (complete { s with hm := { s.hm with assaySlot := h.slot, assay := 2 } } h.src 0x0501 .ok
      (manifestOut (Config.sha384 f) label items.length)) := by
  refine runRead_of_runsHere hrun rfl ?_
  simp only [hreg, Option.getD_some, Option.isNone_some, ne_eq, not_true_eq_false, Bool.false_eq_true, or_self, if_false, Nat.not_lt.mpr hmin,
    Nat.not_lt.mpr hmax, hasc, Bool.true_eq_false]
  exact assayRun_sound _ hmin hmax hasc hfile hitems

/-- R311: READ of what is registered. -/
theorem execManifestRead_registered {d : Nat} (hrun : RunsHere (.manifestRead h) s) (hreg : s.manifest h.slot = some (d, label)) :
    execManifestRead h s = .next (complete s h.src 0x0501 .ok (manifestOut d label 0)) :=
  runCmd_of_runsHere hrun rfl (by simp only [hreg, Option.getD_some, CmdRes.ok])

end Sys2Proof.Machine
end

section
/-! Fences, the Daybook and fault notices (R26, R330, R331, R337, R342, R535). -/

namespace Sys2Proof.Machine

variable {s s0 : State} {h : CmdHdr} {u : UnitId} {t p : Nat}

/-- R330, R331: FENCE of a tile in service. -/
theorem execFenceTileFence_inService (hrun : RunsHere (.fenceTileFence h u) s) (htile : s.unitTile u = some t) (hfenced : (s.tile t).state ≠ 3)
    (htest : (s.tile t).state ≠ 4) : execFenceTileFence h u s = .next (complete (s.fenceTile t 1) h.src 0x0601 .ok []) :=
  runCmd_of_runsHere hrun rfl (by simp only [htile, hfenced, htest, or_self, if_false, CmdRes.ok])

/-- R331: UNFENCE of a fenced tile that passed a test since. -/
theorem execFenceTileUnfence_tile (hrun : RunsHere (.fenceTileUnfence h u) s) (htile : s.unitTile u = some t) (hfenced : (s.tile t).state = 3)
    (hpassed : (s.tile t).testPassed = true) : execFenceTileUnfence h u s = .next (complete (s.unfenceTile t) h.src 0x0601 .ok []) :=
  runCmd_of_runsHere hrun rfl (by simp only [htile, hfenced, hpassed, and_self, if_true, CmdRes.ok])

/-- R331: UNFENCE of a fenced port. -/
theorem execFenceTileUnfence_port (hrun : RunsHere (.fenceTileUnfence h u) s) (htile : s.unitTile u = none) (hport : s.unitPort u = some p)
    (hfenced : s.portFenced p = true) : execFenceTileUnfence h u s = .next (complete (s.unfencePort p) h.src 0x0601 .ok []) :=
  runCmd_of_runsHere hrun rfl (by simp only [htile, hport, hfenced, if_true, CmdRes.ok])

/-- R331: READ at a Leaf. -/
theorem execFenceTileRead_leaf (hrun : RunsHere (.fenceTileRead h) s) (hleaf : s.isHub = false) :
    execFenceTileRead h s = .next (complete s h.src 0x0601 .ok
      (mapBytes s.flt.tilesMap 0 0 ++ le 2 0 ++ (List.range s.params.tiles).flatMap (fun t => le 2 (s.eventsIn t)))) :=
  runCmd_of_runsHere hrun rfl (by simp only [hleaf, Bool.false_eq_true, if_false, CmdRes.ok])

/-- R342: records that the ring holds. -/
theorem execCmdDaybookRead_held {first count addr len : Nat} {l : List DbRec} (hrun : RunsHere (.cmdDaybookRead h first count addr len false) s)
    (hl : l = s.flash.daybook.filter (fun r => decide (first ≤ r.seq) && decide (r.seq < first + count))) (hheld : l.length = count)
    (hmin : 1 ≤ count) (hmax : count ≤ 4096) (halign : addr % 64 = 0) (hroom : 64 * count ≤ len) :
    execCmdDaybookRead h first count addr len false s = .next (complete (s.fabricWrite addr (l.flatMap recBytes) false 1) h.src 0x0602 .ok
      (layout [(2, count), (8, ((s.flash.daybook.head?).map (·.seq)).getD 0), (4, s.flt.dropped)])) :=
  runCmd_of_runsHere hrun rfl (by
    simp only [← hl, hheld, halign, Nat.not_lt.mpr hmin, Nat.not_lt.mpr hmax, Nat.not_lt.mpr hroom, ne_eq, not_true_eq_false, or_self, if_false,
      Bool.false_eq_true, CmdRes.ok])

/-- R337: a write that succeeds stores the oldest buffered record. -/
theorem execDaybookRecordWrite_stored {r : DbRec} {l : List DbRec} (hbuf : s.flt.buf = r :: l) (hidle : s.scriv.restarting = false) :
    execDaybookRecordWrite true s = .next (s.storeRecords 1) := by
  simp [execDaybookRecordWrite, hbuf, hidle]

/-- R337, R338: the ring keeps the newest records that fit, and the record leaves the buffer. -/
theorem storeRecords_one {r : DbRec} {l : List DbRec} (hbuf : s.flt.buf = r :: l) : s.storeRecords 1 = { s with
    flash := { s.flash with daybook := (s.flash.daybook ++ [r]).drop (s.flash.daybook.length + 1 - s.boot.cfg.daybookBytes / 64) }
    flt := { s.flt with buf := l } } := by
  simp [State.storeRecords, hbuf]

/-- R26, R535: a notice of a child that is up joins the queue while it has room. -/
theorem execFaultNoticeReceive_queued {l : Link} (n : Notice) (htake : s0.takeFlit l 1 = (s, true)) (hdown : s.params.isDown l.port = true)
    (hup : (s.port l.port).up = true) (hroom : s.flt.notices.length < 256) :
    execFaultNoticeReceive l n s0 = .next
      { s with flt := { s.flt with notices := s.flt.notices ++ [{ event := n.event, unit := n.unit, port := l.port, self := false, seqLo := n.seqLo }] } } := by
  rw [execFaultNoticeReceive, State.received_done htake]
  simp only [hdown, hup, Bool.and_self, if_true, State.pushNotice, if_pos hroom]

end Sys2Proof.Machine
end

section
namespace Sys2Proof.Machine

/-- Settles O25, event and operation by operation. -/
theorem hallmarkBatchesAndManifests : Obligations.HallmarkBatchesAndManifests := by
  unfold Obligations.HallmarkBatchesAndManifests
  exact ⟨fun s hprimary hdue hkeys => execHallmarkBatchClose_due hprimary hdue hkeys,
    fun h first count addr len l s hrun hl hheld hmin hmax halign hroom => execCmdHallmarkRead_held hrun hl hheld hmin hmax halign hroom,
    fun h label n f items s hrun hnone hidle hmin hmax hasc hfile hitems =>
      execManifestRegister_sound hrun hnone hidle hmin hmax hasc hfile hitems,
    fun h label n f items s hrun hreg hmin hmax hasc hfile hitems => execManifestVerify_registered hrun hreg hmin hmax hasc hfile hitems,
    fun h label d s hrun hreg => execManifestRead_registered hrun hreg⟩

/-- Settles O26, operation by operation, and the record's write and the notice. -/
theorem fencesDaybookAndNotices : Obligations.FencesDaybookAndNotices := by
  unfold Obligations.FencesDaybookAndNotices
  refine ⟨fun h u t s hrun htile hfenced htest => execFenceTileFence_inService hrun htile hfenced htest,
    fun h u t s hrun htile hfenced hpassed => execFenceTileUnfence_tile hrun htile hfenced hpassed,
    fun h u p s hrun htile hport hfenced => execFenceTileUnfence_port hrun htile hport hfenced,
    fun h s hrun hleaf => execFenceTileRead_leaf hrun hleaf,
    fun h first count addr len l s hrun hl hheld hmin hmax halign hroom => execCmdDaybookRead_held hrun hl hheld hmin hmax halign hroom,
    fun s r l hbuf hidle => ⟨_, execDaybookRecordWrite_stored hbuf hidle, ?_⟩,
    fun s0 s l n htake hdown hup hroom => execFaultNoticeReceive_queued n htake hdown hup hroom⟩
  rw [storeRecords_one hbuf]
  exact ⟨rfl, rfl, rfl⟩

end Sys2Proof.Machine
end

section
/-! The journal by itself (R347, R352 to R354, R361, R516, R517): what each event answers at a journal that is powered. -/

namespace Sys2Proof.Machine

variable {s : State} {page acc c : Nat}

/-- R354: the self-test of a powered journal ends. -/
theorem execJournalSelfTest_powered (ok lok : Bool) (bad : List Nat) (hhub : s.isHub = true) (hon : (s.dom 77).on = true)
    (hready : s.jm.ready = false) (hfail : s.jm.fail = false) : execJournalSelfTest ok bad lok s = .next (s.selfTest ok bad lok) := by
  simp [execJournalSelfTest, hhub, hon, hready, hfail]

/-- R347: a use reads an access of a page of its own. -/
theorem execJournalRead_inUse {use : Nat} (e : JournalErr) (hlive : s.jmLive page acc = true) (huse : (s.jpage page).state = .inUse use) :
    execJournalRead use page acc e s = .next (s.jmAccess use page acc e).1 := by
  simp [execJournalRead, hlive, huse]

/-- R352: setting the valid bits of pages sets those of the pages named. -/
theorem foldl_setValid_jpage (l : List Nat) (q : Nat) (hq : q ∈ l ∨ (s.jpage q).valid = true) :
    ((l.foldl (fun s p => s.modPage p (fun x => { x with valid := true })) s).jpage q).valid = true := by
  induction l generalizing s with
  | nil => exact hq.resolve_left List.not_mem_nil
  | cons p l ih =>
    refine ih ?_
    by_cases heq : q = p
    · exact .inr (by simp [heq])
    · obtain hmem | hvalid := hq
      · exact .inl (List.mem_of_ne_of_mem heq hmem)
      · exact .inr (by simp [heq, hvalid])

/-- R352: a double error of the page-state SRAM makes each page of the word count as valid. -/
theorem pageSram_double_valid {q : Nat} (hword : q / 64 = page / 64) (hq : q < s.pageCount) : ((s.pageSram page .double).jpage q).valid = true := by
  have hmem : q ∈ ((List.range 64).map (fun i => page / 64 * 64 + i)).filter (fun p => decide (p < s.pageCount)) := by
    refine List.mem_filter.mpr ⟨List.mem_map.mpr ⟨q % 64, List.mem_range.mpr (Nat.mod_lt q (by decide)), ?_⟩, by simpa using hq⟩
    omega
  have hvalid := foldl_setValid_jpage (s := s) _ q (.inl hmem)
  simpa only [State.pageSram, State.jpage, State.record_jm] using hvalid

/-- R353: the scrubber reads its next access, which is not the last of a page and reads without an error, and goes on from it. -/
theorem execScrubRead_clean (hlive : s.jmLive page acc = true) (hnext : s.nextScrub (s.pageChan page) = some (page, acc))
    (hdue : s.scrubDue (s.pageChan page) = true) (hacc : acc < 31) (hclean : (s.jmAccess 5 page acc {}).2 = false) :
    execScrubRead page acc {} s = .next
      ((s.jmAccess 5 page acc {}).1.modChan (s.pageChan page) (fun x => { x with scrub := some (page, acc), scrubAt := some s.htNs })) := by
  simp [execScrubRead, hlive, hnext, hdue, hacc.ne, hclean]

/-- R361: a working channel that stops responding fails. -/
theorem execChannelFailure_live (hlive : s.chanLive c = true) : execChannelFailure c s = .next (s.failChan c) := if_pos hlive

/-- R517: a refresh that is due. -/
theorem execDramRefresh_due (hlive : s.chanLive c = true)
    (hdue : (s.chan c).lastRefresh + (if (s.chan c).doubled = true then 1950 else 3900) ≤ s.htNs) :
    execDramRefresh c s = .next (s.modChan c (fun x => { x with refreshes := x.refreshes + 1, lastRefresh := s.htNs })) := by
  simp only [execDramRefresh, hlive, decide_eq_true hdue, Bool.and_self, if_true]

/-- R517: a read of MR4 that is due. -/
theorem execMr4Read_due (d : Bool) (hlive : s.chanLive c = true) (hdue : (s.chan c).lastMr4 + 32000000 ≤ s.htNs) :
    execMr4Read c d s = .next (s.modChan c (fun x => { x with doubled := d, lastMr4 := s.htNs })) := by
  simp [execMr4Read, hlive, hdue]

/-- R517: a ZQ calibration that is due. -/
theorem execZqCalibration_due (hlive : s.chanLive c = true) (hdue : (s.chan c).lastZq + 128000000 ≤ s.htNs) :
    execZqCalibration c s = .next (s.modChan c (fun x => { x with zqs := x.zqs + 1, lastZq := s.htNs })) := by
  simp [execZqCalibration, hlive, hdue]

/-- R516: a PHY update request of a working channel. -/
theorem execPhyUpdateRequest_live (hlive : s.chanLive c = true) :
    execPhyUpdateRequest c s = .next (s.modChan c (fun x => { x with phyGrants := x.phyGrants + 1 })) := if_pos hlive

end Sys2Proof.Machine
end

section
/-! CMD_JOURNAL_RETIRE and CMD_JOURNAL_CONFIG (R348, R353, R355): what their bodies answer. -/

namespace Sys2Proof.Machine

variable {s t : State} {h : CmdHdr} {c dev : Nat}

/-- R355: PAGE of a page that can be retired. -/
theorem execJournalRetirePage_retired {page : Nat} {l : List Nat} (hrun : RunsHere (.journalRetirePage h page l) s) (hpage : page < s.pageCount)
    (hroom : s.jm.retired.length < 65536) (hone : s.retireOne page l (fun _ => false) = some t) :
    execJournalRetirePage h page l s = .next (complete t h.src 0x0506 .ok []) :=
  runCmd_of_runsHere hrun rfl (by
    simp only [Nat.not_le.mpr hpage, Nat.not_le.mpr hroom, false_and, or_self, if_false, hone, CmdRes.ok])

/-- R355: BANK of a bank none of whose pages is in use, and that is not retired yet. -/
theorem execJournalRetireBank_unused {b : Nat} {l : List Nat} (hrun : RunsHere (.journalRetireBank h c b l) s) (hc : c < s.params.channels)
    (hb : b < 32) (hroom : s.jm.banks.length < 32) (hnew : s.jm.banks.contains (c, b) = false) (hunused : ∀ p ∈ s.jm.pages, s.pageChan p.1 ≠ c) :
    execJournalRetireBank h c b l s = .next (complete
      (({ s with jm := { s.jm with
          banks := s.jm.banks ++ [(c, b)]
          retired := s.jm.retired.filter (fun p => !(s.pageChan p == c && s.pageBank p == b)) } } : State).keepList.jmRecord
        0x0605 c 0xFFFF (c + s.params.channels * b) 0 0 0xFF) h.src 0x0506 .ok []) := by
  refine runCmd_of_runsHere hrun rfl ?_
  have hnone : ∀ f : Nat × Page → Bool, s.jm.pages.filter (fun p => (s.pageChan p.1 == c && s.pageBank p.1 == b) && f p) = [] :=
    fun f => List.filter_eq_nil_iff.mpr fun p hp => by simp [hunused p hp]
  simp only [Nat.not_le.mpr hc, Nat.not_le.mpr hb, Nat.not_le.mpr hroom, hnew, false_and, or_self, if_false, Bool.false_eq_true, hnone,
    List.map_nil, State.retireMany, if_true, CmdRes.ok]

/-- R348: MARK of a device of a channel without a mark. -/
theorem execJournalRetireMark_unmarked (hrun : RunsHere (.journalRetireMark h c dev) s) (hc : c < s.params.channels) (hdev : dev < 20)
    (hmark : (s.chan c).mark = none) : execJournalRetireMark h c dev s = .next (complete (s.setMark c (some dev) dev) h.src 0x0506 .ok []) :=
  runCmd_of_runsHere hrun rfl (by simp [Nat.not_le.mpr hc, Nat.not_le.mpr hdev, hmark, CmdRes.ok])

/-- R348: UNMARK of the marked device. -/
theorem execJournalRetireUnmark_marked (hrun : RunsHere (.journalRetireUnmark h c dev) s) (hc : c < s.params.channels) (hdev : dev < 20)
    (hmark : (s.chan c).mark = some dev) : execJournalRetireUnmark h c dev s =
      .next (complete ((s.setMark c none dev).modChan c (fun x => { x with recent := [] })) h.src 0x0506 .ok []) :=
  runCmd_of_runsHere hrun rfl (by simp [Nat.not_le.mpr hc, Nat.not_le.mpr hdev, hmark, CmdRes.ok])

/-- R355: READ. -/
theorem execJournalRetireRead_runsHere (hrun : RunsHere (.journalRetireRead h) s) :
    execJournalRetireRead h s = .next (complete s h.src 0x0506 .ok
      (le 4 s.jm.retired.length ++ le 4 s.jm.banks.length ++ s.jm.retired.flatMap (le 4) ++ s.jm.banks.flatMap (fun b => le 1 b.1 ++ le 1 b.2) ++
        (List.range s.params.channels).flatMap (fun c => le 1 (((s.chan c).mark).getD 0xFF)))) :=
  runCmd_of_runsHere hrun rfl rfl

/-- R353: a scrub interval in range. -/
theorem execCmdJournalConfig_inRange {n : Nat} (hrun : RunsHere (.cmdJournalConfig h n) s) (hmin : 1 ≤ n) (hmax : n ≤ 168) :
    execCmdJournalConfig h n s = .next (complete { s with jm := { s.jm with scrubHours := n } } h.src 0x0507 .ok (layout [(4, s.jm.scrubHours)])) :=
  runCmd_of_runsHere hrun rfl (by simp [Nat.not_lt.mpr hmin, Nat.not_lt.mpr hmax, CmdRes.ok])

end Sys2Proof.Machine
end

section
/-! Saved states and staged sets at the span pair (R358 to R360, R440): what the bodies of their commands answer. -/

namespace Sys2Proof.Machine

variable {s : State} {h : CmdHdr} {c id : Nat} {p : HPlan}

/-- R358: SAVE of a running collective under a free SAVE_ID. -/
theorem execLedgerSave_running (hrun : RunsHere (.ledgerSave h c id) s) (hplan : s.plan h.slot c = some p) (hc : c < 512) (hid : id < 256)
    (hspan : s.spans p.desc = true) (hfree : s.jm.saves.get none id = none) (hrunning : s.hubRunning p = true)
    (hothers : ∀ e ∈ s.coll.hub, ∀ q, e.2 = some q → q.saving = none) (hready : s.jm.ready = true) (hidle : p.saving = none) :
    execLedgerSave h c id s = .next (((s.modPlan h.slot c (fun p => { p with saving := some (id, some h.src) })).sendKids (s.planKids p.desc)
      (.saveStop h.slot (dGen p.desc) c id false)).trySave h.slot c) := by
  refine runCmd_wait_of_runsHere hrun rfl ?_
  simp only [hplan, Nat.not_le.mpr hc, Nat.not_le.mpr hid, hspan, hfree, hrunning, hready, hidle, Option.isSome_none, Bool.false_eq_true,
    Bool.true_eq_false, or_self, false_or, if_false]
  refine if_neg (Bool.eq_false_iff.mp (List.any_eq_false.mpr fun e he => ?_))
  cases hq : e.2 with
  | none => simp
  | some q => simp [hothers e he q hq]

/-- R358: DELETE of a saved state that nothing resumes. -/
theorem execLedgerSaveDelete_unused {v : Save} (hrun : RunsHere (.ledgerSaveDelete h id) s) (hsave : s.jm.saves.get none id = some v)
    (hready : s.jm.ready = true) (hunused : s.saveInUse id = false) :
    execLedgerSaveDelete h id s = .next (complete
      (({ s.releasePages v.pages with
          jm := { (s.releasePages v.pages).jm with saves := (s.releasePages v.pages).jm.saves.set none id none } } : State).mirror (.save id none))
      h.src 0x0503 .ok (layout [(4, v.chunks.length), (4, v.pages.length)])) :=
  runCmd_of_runsHere hrun rfl (by simp [hsave, hready, hunused, CmdRes.ok])

/-- R359: RESUME of a saved operator state into an idle collective of the same descriptor, whose images are good. -/
theorem execCmdLedgerResume_idle {v : Save} (hrun : RunsHere (.cmdLedgerResume h id c none true false) s)
    (hsave : s.jm.saves.get none id = some v) (hkey : v.tenantKeyed = false) (hslot : (s.slot h.slot).tenantKeyed = false)
    (hplan : s.plan h.slot c = some p) (hdesc : descBody p.desc = descBody v.desc) (hready : s.jm.ready = true) (hidle : s.hubRunning p = false)
    (hsaving : p.saving = none) (hunused : s.saveInUse id = false) (hpages : v.pages.any s.pageBad = false)
    (himages : v.chunks.all (fun c => c.panes.all (·.imagesOk)) = true) :
    execCmdLedgerResume h id c none true false s = .next (complete
      (((s.planKids p.desc).foldl
        (fun s k => s.sendKids [k] (.owed h.slot (dGen p.desc) c id v.inst (owesOf v (dChunks p.desc) k) v.committed))
        ((s.modPlan h.slot c (fun p => { p with newest := v.inst, done := v.committed, ackd := v.committed.length, resumed := some id })).loadSaved
          h.slot (dGen p.desc) c v)).instanceEnd h.slot c)
      h.src 0x0504 .ok (layout [(4, ((s.planKids p.desc).map (fun k => (owesOf v (dChunks p.desc) k).length)).sum)])) := by
  refine runCmd_of_runsHere hrun rfl ?_
  have hgood : v.chunks.any (fun c => c.panes.any (fun q => !q.imagesOk)) = false := by simpa using himages
  simp only [hsave, hkey, hslot, hplan, hdesc, hready, hidle, hsaving, hunused, hpages, hgood, ne_eq, not_true_eq_false, Bool.false_eq_true,
    Bool.true_eq_false, Option.isSome_none, false_and, or_self, if_false, Bool.or_self]

/-! ## Staging (R360) -/

/-- R360: STAGE OUT under a free SET_ID. -/
theorem execJournalStageOut_free (hrun : RunsHere (.journalStageOut h c id) s) (hplan : s.plan h.slot c = some p) (hc : c < 512) (hid : id < 256)
    (hspan : s.spans p.desc = true) (hfree : s.jm.stages.get none id = none) (hready : s.jm.ready = true) (hidle : p.stageOut = none) :
    execJournalStageOut h c id s = .next (({ s with jm := { s.jm with stages := s.jm.stages.set none id (some
        { slot := h.slot, desc := p.desc, chunks := [], k := dK p.desc (s.leavesOf p.desc), m := none, pages := [], single := s.pair.solo }) } } : State).modPlan
      h.slot c (fun p => { p with stageOut := some (id, h.src), stageInst := some ((p.stageInst).getD (s.nextInst p)) })) :=
  runCmd_wait_of_runsHere hrun rfl (by simp [hplan, Nat.not_le.mpr hc, Nat.not_le.mpr hid, hspan, hfree, hready, hidle])

/-- R360: STAGE IN of a set that matches the collective. -/
theorem execJournalStageIn_matching {v : Stage} (hrun : RunsHere (.journalStageIn h c id) s) (hplan : s.plan h.slot c = some p)
    (hset : s.jm.stages.get none id = some v) (hc : c < 512) (hid : id < 256) (hspan : s.spans p.desc = true)
    (hop : dOp p.desc = 0 ∨ dOp p.desc = 1 ∨ dOp p.desc = 4 ∨ dOp p.desc = 5 ∨ dOp p.desc = 6) (hcount : dCount p.desc = dCount v.desc)
    (hpanes : dPanes p.desc = dPanes v.desc) (hwhole : v.incomplete = false) (hbound : v.k + dK p.desc (s.leavesOf p.desc) ≤ 2 ^ 31)
    (himages : v.chunks.all (fun c => c.panes.all (·.imagesOk)) = true) (hready : s.jm.ready = true) (hidle : p.stageIn = none)
    (hunused : s.setInUse id = false) :
    execJournalStageIn h c id s =
      .next (s.modPlan h.slot c (fun p => { p with stageIn := some (id, h.src), stageInst := some ((p.stageInst).getD (s.nextInst p)) })) := by
  refine runCmd_wait_of_runsHere hrun rfl ?_
  have hgood : v.chunks.any (fun c => c.panes.any (fun q => !q.imagesOk)) = false := by simpa using himages
  have hmatch : (!(dOp p.desc == 0 || dOp p.desc == 1 || dOp p.desc == 4 || dOp p.desc == 5 || dOp p.desc == 6) || dCount p.desc != dCount v.desc ||
      dPanes p.desc != dPanes v.desc || v.incomplete) = false := by
    have hsum : (dOp p.desc == 0 || dOp p.desc == 1 || dOp p.desc == 4 || dOp p.desc == 5 || dOp p.desc == 6) = true := by
      simpa [or_assoc] using hop
    simp only [hsum, hcount, hpanes, hwhole, bne_self_eq_false, Bool.not_true, Bool.or_self]
  simp only [hplan, hset, Nat.not_le.mpr hc, Nat.not_le.mpr hid, hspan, hmatch, Nat.not_lt.mpr hbound, hgood, hready, hidle, hunused,
    Option.isSome_none, Bool.false_eq_true, Bool.true_eq_false, or_self, if_false]

/-- R360: STAGE DELETE of a set that is not in use. -/
theorem execJournalStageDelete_unused {v : Stage} (hrun : RunsHere (.journalStageDelete h id) s) (hset : s.jm.stages.get none id = some v)
    (hready : s.jm.ready = true) (hunused : s.setInUse id = false) :
    execJournalStageDelete h id s = .next (complete
      (({ s.releasePages v.pages with
          jm := { (s.releasePages v.pages).jm with stages := (s.releasePages v.pages).jm.stages.set none id none } } : State).mirror (.stage id none))
      h.src 0x0505 .ok (layout [(4, v.chunks.length)])) :=
  runCmd_of_runsHere hrun rfl (by simp [hset, hready, hunused, CmdRes.ok])

end Sys2Proof.Machine
end

section
namespace Sys2Proof.Machine

/-- Settles O27, event by event. -/
theorem journalMaintenance : Obligations.JournalMaintenance := by
  unfold Obligations.JournalMaintenance
  exact ⟨fun s ok lok bad hhub hon hready hfail => execJournalSelfTest_powered ok lok bad hhub hon hready hfail,
    fun s use page acc e hlive huse => execJournalRead_inUse e hlive huse,
    fun s page q hword hq => pageSram_double_valid hword hq,
    fun s page acc hlive hnext hdue hacc hclean => execScrubRead_clean hlive hnext hdue hacc hclean,
    fun s c hlive => execChannelFailure_live hlive,
    fun s c hlive hdue => ⟨_, execDramRefresh_due hlive hdue, by simp, by simp, rfl⟩,
    fun s c d hlive hdue => execMr4Read_due d hlive hdue,
    fun s c hlive hdue => execZqCalibration_due hlive hdue,
    fun s c hlive => execPhyUpdateRequest_live hlive⟩

/-- Settles O28, operation by operation. -/
theorem journalRetirement : Obligations.JournalRetirement := by
  unfold Obligations.JournalRetirement
  exact ⟨fun h page l t s hrun hpage hroom hone => execJournalRetirePage_retired hrun hpage hroom hone,
    fun h c b l s hrun hc hb hroom hnew hunused => execJournalRetireBank_unused hrun hc hb hroom hnew hunused,
    fun h c dev s hrun hc hdev hmark => execJournalRetireMark_unmarked hrun hc hdev hmark,
    fun h c dev s hrun hc hdev hmark => execJournalRetireUnmark_marked hrun hc hdev hmark,
    fun h s hrun => execJournalRetireRead_runsHere hrun,
    fun h n s hrun hmin hmax => execCmdJournalConfig_inRange hrun hmin hmax⟩

/-- Settles O29, operation by operation. -/
theorem savedStatesAndStagedSets : Obligations.SavedStatesAndStagedSets := by
  unfold Obligations.SavedStatesAndStagedSets
  exact ⟨fun h c id p s hrun hplan hc hid hspan hfree hrunning hothers hready hidle =>
      execLedgerSave_running hrun hplan hc hid hspan hfree hrunning hothers hready hidle,
    fun h id v s hrun hsave hready hunused => execLedgerSaveDelete_unused hrun hsave hready hunused,
    fun h id c v p s hrun hsave hkey hslot hplan hdesc hready hidle hsaving hunused hpages himages =>
      execCmdLedgerResume_idle hrun hsave hkey hslot hplan hdesc hready hidle hsaving hunused hpages himages,
    fun h c id p s hrun hplan hc hid hspan hfree hready hidle => execJournalStageOut_free hrun hplan hc hid hspan hfree hready hidle,
    fun h c id p v s hrun hplan hset hc hid hspan hop hcount hpanes hwhole hbound himages hready hidle hunused =>
      execJournalStageIn_matching hrun hplan hset hc hid hspan hop hcount hpanes hwhole hbound himages hready hidle hunused,
    fun h id v s hrun hset hready hunused => execJournalStageDelete_unused hrun hset hready hunused⟩

end Sys2Proof.Machine
end

section
/-! Pattern packs and structural tests (R366 to R373): what the commands' bodies answer, a pack that arrives, and a test that ends. -/

namespace Sys2Proof.Machine

variable {s s0 : State} {h : CmdHdr} {u : UnitId} {i t : Nat} {p : Pack} {r : TestRun}

/-! ## Packs -/

/-- R366: a pack that every check accepts is stored. -/
theorem storePack_accepted (hcheck : s.packCheck p = .ok i) (hback : p.readBackOk = true) :
    s.storePack p = ((s.setPack i (some p)).record { event := 0x0803, sub := i, syn := packSyn p { mismatches := 0 } }, .ok i) := by
  simp only [State.storePack, hcheck, hback, if_true]

/-- R366: LOAD of such a pack for this block alone. -/
theorem execPatternLoad_accepted (hrun : RunsHere (.patternLoad h (.ok p) true false) s) (hcheck : s.packCheck p = .ok i)
    (hback : p.readBackOk = true) : execPatternLoad h (.ok p) true false s = .next (complete
      ((s.setPack i (some p)).record { event := 0x0803, sub := i, syn := packSyn p { mismatches := 0 } }) h.src 0x0603 .ok (layout [(2, i)])) :=
  runRead_of_runsHere hrun rfl (by
    simp only [Bool.not_true, Bool.false_eq_true, if_false, withRead, storePack_accepted hcheck hback, Bool.false_and, CmdRes.ok])

/-- R367: a pack over the chord, or from the parent of a Leaf, is checked, stored and passed on. -/
theorem execPackReceive_fromParent {l : Link} (k : Pack) (htake : s0.takeFlit l 1 = (s, true)) (hport : s.params.hasPort l.port = true)
    (hup : (s.port l.port).up = true) (hdown : s.params.isDown l.port = false) (hhub : (s.params.isUp l.port && s.isHub) = false) :
    execPackReceive l k s0 = .next ((s.storePack k).1.passPack k) := by
  rw [execPackReceive, State.received_done htake]
  simp only [hport, hup, hdown, hhub, Bool.not_false, Bool.and_self, if_true, Bool.false_eq_true, if_false]

/-- R368: DELETE of a slot that holds a pack and that no test uses. -/
theorem execPatternDelete_unused (hrun : RunsHere (.patternDelete h i) s) (hi : i < 16) (hidle : s.packBusy i = false) (hpack : s.packAt i = some p) :
    execPatternDelete h i s = .next (complete
      ((s.setPack i none).record { event := 0x0805, sub := i, syn := packSyn p { mismatches := 0 } }) h.src 0x0603 .ok (layout [(2, i)])) :=
  runCmd_of_runsHere hrun rfl (by simp only [Nat.not_le.mpr hi, hidle, hpack, Bool.false_eq_true, if_false, CmdRes.ok])

/-- R368: READ lists the stored packs. -/
theorem execPatternRead_runsHere (hrun : RunsHere (.patternRead h) s) :
    execPatternRead h s = .next (complete s h.src 0x0603 .ok
      ((List.range 16).flatMap (fun i => match s.packAt i with | some p => packHdr i p | none => []))) :=
  runCmd_of_runsHere hrun rfl rfl

/-! ## Tests -/

/-- R369, R370: RUN of a tile that may be tested takes it out of mapping. -/
theorem execTestTileRun_tile {id : Nat} (hrun : RunsHere (.testTileRun h u id) s) (htile : s.unitTile u = some t)
    (hslot : s.packSlot id u.kind = some i) (hmay : s.testRefusal u = none) :
    execTestTileRun h u id s = .next { s.modTile t (fun x => { x with state := 4 }) with test := { s.test with
      runs := s.test.runs ++ [{ unit := u, packSlot := i, prev := (s.tile t).state, src := h.src, started := s.htNs }] } } :=
  runCmd_wait_of_runsHere hrun rfl (by
    simp only [htile, hslot, hmay, Option.isSome_some, Bool.true_or, if_true, State.modTile_test])

/-- R373: ABORT of a running test of a tile. -/
theorem execTestTileAbort_running (hrun : RunsHere (.testTileAbort h u) s) (htile : s.unitTile u = some t) (htest : s.testOf u = some r) :
    execTestTileAbort h u s = .next (complete (s.abortTest r) h.src 0x0604 .ok []) :=
  runCmd_of_runsHere hrun rfl (by simp only [htile, htest, Option.isNone_some, Bool.false_and, Bool.false_eq_true, if_false, CmdRes.ok])

/-- R372, Table 15.4: a tile that was in service and passes. -/
theorem execTestComplete_passes {k : Pack} {x : TestResult} (htest : s.testOf u = some r) (htile : s.unitTile u = some t)
    (hpack : s.packAt r.packSlot = some k) (hover : r.started + s.testNs k ≤ s.htNs) (hprev : r.prev ≠ 3) (hpass : x.mismatches = 0) :
    execTestComplete u x s = .next (complete
      ((({ s with test := { s.test with
          runs := s.test.runs.filter (fun (y : TestRun) => y.unit != u), done := true, lastUnit := unitVal u } } : State).modTile t (fun y => { y with
            state := r.prev, panes := [], idleSince := s.htNs })).record { event := 0x0800, unit := unitVal u, sub := r.packSlot, syn := packSyn k x })
      r.src 0x0604 .ok (layout [(1, 0), (4, x.pattern), (2, x.chain), (2, x.bitPos), (4, 0)])) := by
  simp only [execTestComplete, htest, htile, hpack, Option.map_some, Option.getD_some, Nat.not_lt.mpr hover, hpass, hprev, decide_true, Bool.not_true,
    Bool.or_false, if_false, if_true, b2n, Bool.false_eq_true]

end Sys2Proof.Machine
end

section
namespace Sys2Proof.Machine

/-- Settles O30, operation by operation, a pack that arrives, and a test that ends. -/
theorem patternPacksAndTests : Obligations.PatternPacksAndTests := by
  unfold Obligations.PatternPacksAndTests
  exact ⟨fun h p i s hrun hcheck hback => execPatternLoad_accepted hrun hcheck hback,
    fun s0 s l k htake hport hup hdown hhub => execPackReceive_fromParent k htake hport hup hdown hhub,
    fun h i p s hrun hi hidle hpack => execPatternDelete_unused hrun hi hidle hpack,
    fun h s hrun => execPatternRead_runsHere hrun,
    fun h u id i t s hrun htile hslot hmay => execTestTileRun_tile hrun htile hslot hmay,
    fun h u t r s hrun htile htest => execTestTileAbort_running hrun htile htest,
    fun s u t r k x htest htile hpack hover hprev hpass => execTestComplete_passes htest htile hpack hover hprev hpass⟩

end Sys2Proof.Machine
end

section
/-! Stretch groups and their clocks (R381 to R388): what each event and each operation of CMD_TALLY_CLOCK answers. -/

namespace Sys2Proof.Machine

variable {s : State} {h : CmdHdr} {g f : Nat} {e : HT} {l : List Nat}

/-- R382: a slack below the margin of a group that runs. -/
theorem execMonitorFire_below {t x : Nat} (ht : t < s.params.tiles) (hslack : x < (s.grp (t / 4)).margin) (hrun : (s.grp (t / 4)).stopped = false) :
    execMonitorFire t x s = .next (s.modGrp (t / 4) (fun g => { g with stretches := (g.stretches + 1) % 2 ^ 24, interval := g.interval + 1 })) :=
  if_pos ⟨ht, hslack, hrun⟩

/-- R384: an interval with at most a quarter of the periods stretched ends with its count cleared. -/
theorem execStretchIntervalEnd_low (hgrp : s.hasGrp g = true) (hover : (s.grp g).intervalAt / 1048576 < s.htNs / 1048576)
    (hlow : 9 * (s.grp g).interval * 2 ^ (s.grp g).freq ≤ 4 * 1048576) :
    execStretchIntervalEnd g s = .next (s.modGrp g (fun x => { x with interval := 0, intervalAt := s.htNs })) := by
  simp only [execStretchIntervalEnd, hgrp, Bool.not_true, Bool.false_or, decide_eq_true_eq, if_neg (Nat.not_le.mpr hover), if_neg (Nat.not_lt.mpr hlow)]

/-- R386, R388: SET of a point that the group may take. -/
theorem execTallyClockSet_inRange (hrun : RunsHere (.tallyClockSet h g f e) s) (hgrp : s.hasGrp g = true) (hf : f ≤ 3) (hahead : s.htNs + 10000 ≤ e)
    (hpinned : s.grpPinned g = false ∨ f = 0) (htest : (grpTiles g).all (fun t => (s.tile t).state != 4) = true) (hidle : (s.grp g).pend = none) :
    execTallyClockSet h g f e s = .next (complete (s.modGrp g (fun x => { x with pend := some (f, e) })) h.src 0x0701 .ok
      (layout [(1, (s.grp g).freq), (4, (s.grp g).stretches)])) := by
  refine runCmd_of_runsHere hrun rfl ?_
  have hrange : (!s.hasGrp g || decide (3 < f) || decide (e < s.htNs + 10000)) = false := by simp [hgrp, hf, hahead]
  have hmay : (s.grpPinned g && f != 0) = false := by obtain h | h := hpinned <;> simp [h]
  have hfree : ((grpTiles g).any (fun t => (s.tile t).state == 4) || (s.grp g).pend.isSome) = false := by
    have hnone : (grpTiles g).any (fun t => (s.tile t).state == 4) = false := by simpa using htest
    rw [hnone, hidle]
    rfl
  simp only [hrange, hmay, hfree, Bool.false_eq_true, if_false, CmdRes.ok]

/-- R385, R387: SYNC of points that the groups may take, while no chunk is mapped. -/
theorem execTallyClockSync_inRange (hrun : RunsHere (.tallyClockSync h l e) s) (hlen : l.length = s.params.groups)
    (hpoints : l.all (fun f => decide (f ≤ 3)) = true) (hgrid : e % 1024 = 0) (hahead : s.htNs + 10000 ≤ e)
    (hpinned : (List.range s.params.groups).all (fun g => !s.grpPinned g || (l[g]?).getD 0 == 0) = true) (hunmapped : s.chunkMapped = false) :
    execTallyClockSync h l e s = .next (complete { s with pwr := { s.pwr with syncPend := some (l, e) } } h.src 0x0701 .ok (clockOut s)) := by
  refine runCmd_of_runsHere hrun rfl ?_
  have hrange : (decide (l.length ≠ s.params.groups) || l.any (fun f => decide (3 < f)) || e % 1024 != 0 || decide (e < s.htNs + 10000)) = false := by
    have hnone : l.any (fun f => decide (3 < f)) = false := by simpa using hpoints
    simp [hlen, hnone, hgrid, hahead]
  have hmay : (List.range s.params.groups).any (fun g => s.grpPinned g && (l[g]?).getD 0 != 0) = false := by
    rw [← Bool.not_eq_true', List.not_any_eq_all_not]
    simpa only [Bool.not_and, bne, Bool.not_not] using hpinned
  simp only [hrange, hmay, hunmapped, Bool.false_eq_true, if_false, CmdRes.ok]

/-- R381: MARGIN in range. -/
theorem execTallyClockMargin_inRange {m : Nat} (hrun : RunsHere (.tallyClockMargin h g m) s) (hgrp : s.hasGrp g = true) (hm : m ≤ 7) :
    execTallyClockMargin h g m s = .next (complete (s.modGrp g (fun x => { x with margin := m })) h.src 0x0701 .ok
      (layout [(1, (s.grp g).margin), (4, (s.grp g).stretches)])) :=
  runCmd_of_runsHere hrun rfl (by simp [hgrp, Nat.not_lt.mpr hm, CmdRes.ok])

/-- R386: READ. -/
theorem execTallyClockRead_runsHere (hrun : RunsHere (.tallyClockRead h) s) :
    execTallyClockRead h s = .next (complete s h.src 0x0701 .ok (clockOut s)) := runCmd_of_runsHere hrun rfl rfl

/-- R386: the effective HT of a SET. -/
theorem execTallySetEffective_due (hpend : (s.grp g).pend = some (f, e)) (hdue : e ≤ s.htNs) :
    execTallySetEffective g s = .next (s.modGrp g (fun x => { x with pend := none, stopping := true, target := f })) := by
  simp only [execTallySetEffective, hpend, if_pos hdue]

/-- R386: a group of which no drain is in progress is held, and restarts 150 ns later. -/
theorem execGroupQuiesced_noDrain (hstopping : (s.grp g).stopping = true)
    (hnone : s.coll.chunks.all (fun c => !(decide (c.state = .draining) && c.tile / 4 == g)) = true) :
    execGroupQuiesced g s = .next (s.modGrp g (fun x => { x with stopping := false, stopped := true, restartAt := some (s.htNs + 150) })) := by
  rw [← List.not_any_eq_all_not] at hnone
  simp only [execGroupQuiesced, hstopping, hnone, Bool.and_self, if_true]

/-- R387: the effective HT of a SYNC. -/
theorem execTallySyncEffective_due (hpend : s.pwr.syncPend = some (l, e)) (hdue : e ≤ s.htNs) :
    execTallySyncEffective s = .next ((List.range s.params.groups).foldl (fun s g =>
      s.modGrp g (fun x => { x with stopping := false, stopped := true, target := (l[g]?).getD x.freq, restartAt := some (e + 200) }))
      { s with pwr := { s.pwr with syncPend := none } }) := by
  simp only [execTallySyncEffective, hpend, if_pos hdue]

end Sys2Proof.Machine
end

section
/-! Switched domains and the power sequencer of a Leaf (R390 to R396): what the commands' bodies and each event answer. -/

namespace Sys2Proof.Machine

variable {s : State} {h : CmdHdr} {d t i k : Nat} {p : Plan} {r : StepRun} {a : PlanAction} {at_ : HT}

/-! ## Domains -/

/-- R390, R391: ON of a domain that the block has. -/
theorem execCmdPowerSelf_on {idle : Nat} (hrun : RunsHere (.cmdPowerSelf h d .on idle) s) (hdom : s.params.hasDomain d = true) :
    execCmdPowerSelf h d .on idle s = .next (complete ((s.modDom d (fun x => { x with setting := .on })).turnOn d) h.src 0x0702 .ok
      (layout [(1, pwrVal (s.dom d).setting)])) :=
  runCmd_of_runsHere hrun rfl (by simp only [hdom, Bool.not_true, Bool.false_eq_true, if_false, CmdRes.ok])

/-- R390: an AUTO tenant tile in service that has been idle for its time. -/
theorem execTileAutoIdleOff_idle (ht : t < s.params.tiles) (hauto : (s.dom t).setting = .auto) (hon : (s.dom t).on = true)
    (hstays : (s.dom t).turningOff = false) (hservice : (s.tile t).state = 1) (htenant : (s.tile t).radio = false) (hempty : (s.tile t).panes = [])
    (hidle : (s.tile t).idleSince + (s.dom t).idle ≤ s.htNs) :
    execTileAutoIdleOff t s = .next (s.modDom t (fun x => { x with turningOff := true })) :=
  if_pos ⟨ht, hauto, hon, hstays, hservice, htenant, by rw [hempty]; rfl, hidle⟩

/-- R391: a domain that is not a tile has powered on. -/
theorem execDomainPowerOnComplete_notTile (hturning : (s.dom d).turningOn = true) (hd : 64 ≤ d) :
    execDomainPowerOnComplete d s = .next (s.modDom d (fun x => { x with on := true, turningOn := false })) := by
  simp only [execDomainPowerOnComplete, if_pos hturning, if_neg (Nat.not_lt.mpr hd)]

/-- R390: a tile that nothing asked for meanwhile has powered off. -/
theorem execDomainPowerOffComplete_tile (hturning : (s.dom t).turningOff = true) (hwanted : (s.dom t).wanted = false) (ht : t < 64) :
    execDomainPowerOffComplete t s = .next
      ((s.modDom t (fun x => { x with on := false, turningOff := false, wanted := false })).modTile t (fun x => { x with panes := [] })) := by
  simp only [execDomainPowerOffComplete, if_pos hturning, hwanted, if_pos ht, Bool.false_eq_true, if_false]

/-! ## Plans -/

/-- R394, R396: LOAD of a well-formed plan while no step runs or waits. -/
theorem execPowerPlanLoad_wellFormed (hrun : RunsHere (.powerPlanLoad h (.ok p)) s) (hidle : s.pwr.run = none) (hempty : s.pwr.waiting = [])
    (hok : planOk p = true) : execPowerPlanLoad h (.ok p) s = .next (complete { s with pwr := { s.pwr with plan := some p } } h.src 0x0703 .ok
      (layout [(2, p.steps.length), (2, p.actions.length)])) :=
  runRead_of_runsHere hrun rfl (by simp [hidle, hempty, withRead, hok, CmdRes.ok])

/-- R396: SCHEDULE to a queue of the firmware with room. -/
theorem execPowerPlanSchedule_room {q : Nat} (hrun : RunsHere (.powerPlanSchedule h q i at_) s) (hplan : s.pwr.plan = some p) (hq : q < 16)
    (howner : (s.queue q).owner = some .firmware) (hroom : (s.queue q).entries.length < 256) :
    execPowerPlanSchedule h q i at_ s = .next (complete
      (s.modQueue q (fun d => { d with entries := d.entries ++ [{ bits := powerEntry i at_ }] })) h.src 0x0703 .ok
      (layout [(2, p.steps.length), (2, p.actions.length)])) :=
  runCmd_of_runsHere hrun rfl (by
    simp only [hplan, Nat.not_le.mpr hq, howner, Nat.not_le.mpr hroom, ne_eq, not_true_eq_false, if_false, CmdRes.ok])

/-- R396: READ of the plan held. -/
theorem execPowerPlanRead_held (hrun : RunsHere (.powerPlanRead h) s) (hplan : s.pwr.plan = some p) :
    execPowerPlanRead h s = .next (complete s h.src 0x0703 .ok
      (layout [(2, p.steps.length), (2, p.actions.length)] ++ le 4 p.magic ++ le 4 p.version ++ le 2 p.steps.length ++ le 2 p.actions.length ++
        List.replicate 52 0)) :=
  runCmd_of_runsHere hrun rfl (by simp only [hplan, CmdRes.ok])

/-! ## Steps -/

/-- R395: a waiting step starts. -/
theorem execPowerStepStart_waiting {l : List Nat} (hidle : s.pwr.run = none) (hwaiting : s.pwr.waiting = i :: l) :
    execPowerStepStart s = .next { s with pwr := { s.pwr with run := some { step := i, act := 0 }, waiting := l } } := by
  simp only [execPowerStepStart, hidle, hwaiting]

/-- R392, R395: the acknowledgement that a WAIT of level 1 waits for. -/
theorem execPmAckChange_awaited (hleaf : s.isHub = false) (hk : k < 80) (hlow : s.pwr.pmAck.getLsbD k = false) (hreq : s.pwr.pmReq.getLsbD k = true)
    (hrun : s.pwr.run = some r) (hsince : r.since = some at_) (hact : (s.stepActions r.step)[r.act]? = some a) (hopc : paOpc a = 3)
    (hindex : paIndex a = k) :
    execPmAckChange k true s = .next (({ s with pwr := { s.pwr with pmAck := s.pwr.pmAck ||| (1#80 <<< k) } } : State).nextAct r) := by
  rw [State.stepActions] at hact
  simp only [execPmAckChange, State.stepActions, hleaf, decide_eq_false (Nat.not_le.mpr hk), hlow, hreq, hrun, hsince, hact, hopc, hindex,
    Bool.or_self, Bool.false_eq_true, beq_true, true_and, true_or, if_true, if_false]

variable (hrun : s.pwr.run = some r) (hsince : r.since = some at_) (hact : (s.stepActions r.step)[r.act]? = some a) (hdue : at_ + paTime a ≤ s.htNs)
include hrun hsince hact hdue

/-- R395: a DELAY whose time is over. -/
theorem execPowerDelayExpiry_due (hopc : paOpc a = 6) : execPowerDelayExpiry s = .next (s.nextAct r) := by
  simp only [execPowerDelayExpiry, hrun, hsince, hact, hopc, hdue, and_self, if_true]

/-- R395: a WAIT out of time. -/
theorem execPowerWaitTimeout_due (hopc : paOpc a = 3 ∨ paOpc a = 4) : execPowerWaitTimeout s = .next (s.abortStep r true) := by
  simp only [execPowerWaitTimeout, hrun, hsince, hact, hopc, hdue, and_self, if_true]

end Sys2Proof.Machine
end

section
namespace Sys2Proof.Machine

/-- Settles O31, event by event and operation by operation. -/
theorem clocksAndStretching : Obligations.ClocksAndStretching := by
  unfold Obligations.ClocksAndStretching
  exact ⟨fun s t x ht hslack hrun => execMonitorFire_below ht hslack hrun,
    fun s g hgrp hover hlow => execStretchIntervalEnd_low hgrp hover hlow,
    fun h g f e s hrun hgrp hf hahead hpinned htest hidle => execTallyClockSet_inRange hrun hgrp hf hahead hpinned htest hidle,
    fun h l e s hrun hlen hpoints hgrid hahead hpinned hunmapped => execTallyClockSync_inRange hrun hlen hpoints hgrid hahead hpinned hunmapped,
    fun h g m s hrun hgrp hm => execTallyClockMargin_inRange hrun hgrp hm,
    fun h s hrun => execTallyClockRead_runsHere hrun,
    fun s g f e hpend hdue => execTallySetEffective_due hpend hdue,
    fun s g hstopping hnone => execGroupQuiesced_noDrain hstopping hnone,
    fun s l e hpend hdue => execTallySyncEffective_due hpend hdue⟩

/-- Settles O32, operation by operation and event by event. -/
theorem powerDomainsAndPlans : Obligations.PowerDomainsAndPlans := by
  unfold Obligations.PowerDomainsAndPlans
  exact ⟨fun h d idle s hrun hdom => execCmdPowerSelf_on hrun hdom,
    fun s t ht hauto hon hstays hservice htenant hempty hidle => execTileAutoIdleOff_idle ht hauto hon hstays hservice htenant hempty hidle,
    fun s d hturning hd => execDomainPowerOnComplete_notTile hturning hd,
    fun s t hturning hwanted ht => execDomainPowerOffComplete_tile hturning hwanted ht,
    fun h p s hrun hidle hempty hok => execPowerPlanLoad_wellFormed hrun hidle hempty hok,
    fun h q i t p s hrun hplan hq howner hroom => execPowerPlanSchedule_room hrun hplan hq howner hroom,
    fun h p s hrun hplan => execPowerPlanRead_held hrun hplan,
    fun s i r hidle hwaiting => execPowerStepStart_waiting hidle hwaiting,
    fun s k r t a hleaf hk hlow hreq hrun hsince hact hopc hindex => execPmAckChange_awaited hleaf hk hlow hreq hrun hsince hact hopc hindex,
    fun s r t a hrun hsince hact hopc hdue => execPowerDelayExpiry_due hrun hsince hact hdue hopc,
    fun s r t a hrun hsince hact hopc hdue => execPowerWaitTimeout_due hrun hsince hact hdue hopc⟩

end Sys2Proof.Machine
end

section
/-! The lease of a pair (R402 to R406, R418, R483): what renewals, claims, confirmations, refusals, releases and the lapse answer. -/

namespace Sys2Proof.Machine

variable {s s0 : State} {l : Link} {f : LeaseFlit}

/-! ## The Hubs of the pair send (R404, R406) -/

/-- R404: a primary whose last renewal is 10,000 ns old renews. -/
theorem execLeaseRenewalSend_due {t : HT} (hprimary : s.isPrimary = true) (hlast : s.pair.lastRenew = some t) (hdue : t + 10000 ≤ s.htNs) :
    ∃ u : State, u = { s with pair := { s.pair with lastRenew := some s.htNs, confs := addConf s.pair.confs s.htNs } } ∧
      execLeaseRenewalSend s = .next ((u.sendAll u.voterPorts (.leaseRenew { epoch := s.pair.epoch, sendHt := s.htNs })).sendChord
        (.leaseRenew { epoch := s.pair.epoch, sendHt := s.htNs })) :=
  ⟨_, rfl, by simp only [execLeaseRenewalSend, hprimary, hlast, decide_eq_true hdue, Bool.and_self, if_true]⟩

/-- R406: a claim of an epoch that is newer than any known stays as it is. -/
theorem freshClaim_of_newer (hnewer : newerEpoch s.pair.epoch s.pair.newest = true) : s.freshClaim = s := by
  simp [State.freshClaim, hnewer]

/-- R406: the first claim of a Claiming Hub whose epoch is newer than any known. -/
theorem execLeaseClaimSend_first (hlater : s.firstClaim = false) (hrole : s.pair.role = .claiming) (hhub : s.isHub = true)
    (hvalid : s.time.valid = true) (hlast : s.pair.lastClaim = none) (hnewer : newerEpoch s.pair.epoch s.pair.newest = true) :
    ∃ u : State, u = { s with pair := { s.pair with lastClaim := some s.htNs, confs := addConf s.pair.confs s.htNs } } ∧
      execLeaseClaimSend s = .next (u.sendAll u.voterPorts (.leaseClaim { epoch := s.pair.epoch, sendHt := s.htNs })) :=
  ⟨_, rfl, by
    simp only [execLeaseClaimSend, hlater, hrole, hhub, hvalid, hlast, freshClaim_of_newer hnewer, hnewer, Bool.false_eq_true, decide_true,
      Bool.and_self, if_true, if_false]⟩

/-! ## A voter (R404 to R406) -/

/-- R402: on a port toward the upper pair a block that votes handles lease flits. -/
theorem vote_of_votes (kind : LeaseKind) (hup : s.params.isUp l.port = true) (hvotes : s.votes = true) :
    s.vote l.port kind f = s.onLeaseFlit l.port kind f := by
  simp only [State.vote, hup, hvotes, Bool.and_self, if_true]

section
variable (htake : s0.takeFlit l 1 = (s, true)) (hlink : (s.port l.port).up = true) (hup : s.params.isUp l.port = true) (hvotes : s.votes = true)
include htake hlink hup hvotes

theorem execLeaseRenewalReceive_voter (hchord : s.params.isChord l.port = false) :
    execLeaseRenewalReceive l f s0 = .next (s.onLeaseFlit l.port .renew f) := by
  rw [execLeaseRenewalReceive, State.received_done htake]
  simp only [hlink, hchord, Bool.not_true, Bool.false_eq_true, if_false, vote_of_votes .renew hup hvotes]

theorem execLeaseClaimReceive_voter : execLeaseClaimReceive l f s0 = .next (s.onLeaseFlit l.port .claim f) := by
  rw [execLeaseClaimReceive, State.received_done htake]
  simp only [if_pos hlink, vote_of_votes .claim hup hvotes]

theorem execLeaseReleaseReceive_voter (hchord : s.params.isChord l.port = false) :
    execLeaseReleaseReceive l f s0 = .next (s.onLeaseFlit l.port .release f) := by
  rw [execLeaseReleaseReceive, State.received_done htake]
  simp only [hlink, hchord, Bool.not_true, Bool.false_eq_true, if_false, vote_of_votes .release hup hvotes]

end

section
variable {p : Nat}

/-- R404: a renewal of the holder of the grant is confirmed, and its time kept. -/
theorem onLeaseFlit_renew_holder (hholder : f.epoch = s.pair.gEpoch ∧ s.hubOf p = s.pair.gPos) :
    s.onLeaseFlit p .renew f = ({ s with pair := { s.pair with gLastRenew := s.htNs } } : State).send p (.leaseConfirm f) := by
  simp only [State.onLeaseFlit, decide_eq_true hholder, if_true]

/-- R406: a renewal of another epoch or Hub is refused. -/
theorem onLeaseFlit_renew_other (hother : ¬ (f.epoch = s.pair.gEpoch ∧ s.hubOf p = s.pair.gPos)) :
    s.onLeaseFlit p .renew f = s.send p (.leaseRefuse s.pair.gEpoch f) := by
  simp only [State.onLeaseFlit, decide_eq_false hother, Bool.false_eq_true, if_false]

/-- R405: a newer claim is granted when the grant is stale. -/
theorem onLeaseFlit_claim_granted (hother : ¬ (f.epoch = s.pair.gEpoch ∧ s.hubOf p = s.pair.gPos))
    (hgrant : (newerEpoch f.epoch s.pair.gEpoch && s.grantStale) = true) :
    s.onLeaseFlit p .claim f =
      ({ s with pair := { s.pair with gEpoch := f.epoch, gPos := s.hubOf p, gReleased := false, gLastRenew := s.htNs } } : State).send p
        (.leaseConfirm f) := by
  simp only [State.onLeaseFlit, decide_eq_false hother, hgrant, Bool.false_eq_true, if_false, if_true]

/-- R405: any other claim is refused. -/
theorem onLeaseFlit_claim_refused (hother : ¬ (f.epoch = s.pair.gEpoch ∧ s.hubOf p = s.pair.gPos))
    (hrefuse : (newerEpoch f.epoch s.pair.gEpoch && s.grantStale) = false) :
    s.onLeaseFlit p .claim f = s.send p (.leaseRefuse s.pair.gEpoch f) := by
  simp only [State.onLeaseFlit, decide_eq_false hother, hrefuse, Bool.false_eq_true, if_false]

/-- R405: a release of the holder of the grant is kept. -/
theorem onLeaseFlit_release_holder (hholder : f.epoch = s.pair.gEpoch ∧ s.hubOf p = s.pair.gPos) :
    s.onLeaseFlit p .release f = { s with pair := { s.pair with gReleased := true } } := by
  simp only [State.onLeaseFlit, decide_eq_true hholder, if_true]

end

/-! ## What comes back to the Hubs (R404, R406) -/

/-- R404: the first confirmation of the only flit that is counted. -/
theorem addConf_only (r : HT) : addConf [(r, [])] r = [(r, [])] := by
  simp [addConf]

/-- R404: the confirmation that completes a quorum of one for the lease of a primary. -/
theorem execLeaseConfirmationReceive_quorum {v : Nat} {e : HT} (htake : s0.takeFlit l 1 = (s, true)) (hdown : s0.params.isDown l.port = true)
    (hv : v = s.portChild l.port) (hhub : s.isHub = true) (hrole : s.pair.role = .primary) (hepoch : f.epoch = s.pair.epoch) (hsome : f.epoch ≠ 0)
    (hroster : bit s.boot.cfg.roster v = true) (hlease : s.pair.leaseEnd = some e) (hconfs : s.pair.confs = [(f.sendHt, [])]) (hquorum : s.quorum = 1) :
    execLeaseConfirmationReceive l f s0 =
      .next { s with pair := { s.pair with confs := [(f.sendHt, addNew [] v)], leaseEnd := some (max e (f.sendHt + 20000)) } } := by
  subst hv
  have hzero : s.pair.epoch ≠ 0 := hepoch ▸ hsome
  rw [execLeaseConfirmationReceive, State.receivedIf_done htake hdown]
  simp [hhub, hrole, hepoch, hzero, hroster, hlease, hconfs, hquorum, addConf_only, addNew]

/-- R406: a Claiming Hub learns a newer epoch from a refusal. -/
theorem execLeaseRefusalReceive_newer {g : Nat} (htake : s0.takeFlit l 1 = (s, true)) (hhub : s.isHub = true) (hlink : (s.port l.port).up = true)
    (hdown : s.params.isDown l.port = true) (hrole : s.pair.role = .claiming) (hnewer : newerEpoch g s.pair.newest = true) :
    execLeaseRefusalReceive l g f s0 = .next ({ s with pair := { s.pair with newest := g } } : State).freshClaim := by
  rw [execLeaseRefusalReceive, State.received_done htake]
  simp only [hhub, hlink, hdown, hrole, hnewer, Bool.not_true, Bool.or_self, Bool.false_eq_true, if_false, if_true]

/-- R404, Table 17.4: a lease that has ended, while no HANDOVER waits. -/
theorem execLeaseLapse_ended {e : HT} (hprimary : s.isPrimary = true) (hlease : s.pair.leaseEnd = some e) (hended : e ≤ s.htNs)
    (hhandover : s.pair.handover = none) :
    execLeaseLapse s = .next ({ s.sendRelease with pair := { s.sendRelease.pair with lapsed := true } } : State).leavePrimary := by
  simp only [execLeaseLapse, hprimary, hlease, decide_eq_true hended, hhandover, Bool.and_self, if_true]

/-- R406: a partner without a renewal for 30,000 ns claims. -/
theorem execChordRenewalTimeout_due (hhub : s.isHub = true) (hrole : s.pair.role = .partner) (hdue : s.pair.chordRenewAt + 30000 ≤ s.htNs) :
    execChordRenewalTimeout s = .next { s with pair := { s.pair with role := .claiming, lastClaim := none, confs := [], since := s.htNs } } := by
  simp only [execChordRenewalTimeout, hhub, hrole, decide_eq_true hdue, decide_true, Bool.and_self, if_true, State.startClaim]

end Sys2Proof.Machine
end

section
/-! SOLO, the mirror, epoch records and CMD_PAIR (R411 to R416, R456). -/

namespace Sys2Proof.Machine

variable {s s0 : State} {h : CmdHdr}

/-- R413: a primary whose chord has been down for 16,384 ns runs alone. -/
theorem execChordDownSolo_due {t : HT} (hdown : s.pair.chordDownAt = some t) (hprimary : s.isPrimary = true) (hsolo : s.pair.solo = false)
    (hchord : s.chordUp = []) (hdue : t + 16384 ≤ s.htNs) : execChordDownSolo s = .next s.goSolo := by
  simp [execChordDownSolo, hdown, hprimary, hsolo, hchord, hdue]

/-- R411, R414: a partner applies a mirror flit and counts it in its record. -/
theorem execMirrorFlitReceive_partner {l : Link} (m : MirrorMsg) (htake : s0.takeFlit l 1 = (s, true)) (hport : s0.params.isChord l.port = true)
    (hchord : s.chordUp ≠ []) (hrole : s.pair.role = .partner) : execMirrorFlitReceive l m s0 = .next ((s.applyMirror m).logWrite m) := by
  rw [execMirrorFlitReceive, State.receivedIf_done htake hport]
  simp only [List.isEmpty_eq_false_iff.mpr hchord, hrole, Bool.false_eq_true, if_false]

/-- R456: a primary with a partner closes its record at the end of an epoch and sends it. -/
theorem execEpochRecordClose_primary (hhub : s.isHub = true) (hprimary : s.isPrimary = true)
    (hepoch : s.htNs / 1048576 ≠ s.scriv.epochAt / 1048576) (hsolo : s.pair.solo = false) :
    execEpochRecordClose none s = .next
      (({ s with scriv := { s.scriv with
          epochLog := [], epochAt := s.htNs, epochLast := some (epochDigest s.scriv.epochLog) } } : State).sendChord
        (.epochRecord (epochDigest s.scriv.epochLog))) := by
  simp only [execEpochRecordClose, hhub, hprimary, hepoch, hsolo, Bool.not_true, Bool.false_eq_true, if_false, if_true]

/-! ## CMD_PAIR (R415, R416) -/

/-- R415: ISOLATE of a Hub that is not Isolated. -/
theorem execPairIsolate_partner (hrun : RunsHere (.pairIsolate h) s) (hcheck : s.pairCheck = none) (hpeer : s.pair.peerRole ≠ .isolated) :
    ∃ t : State, t = s.sendChord (.mirror .isolate) ∧
      execPairIsolate h s = .next (complete ({ t with pair := { t.pair with peerRole := .isolated } } : State).goSolo h.src 0x0704 .ok []) :=
  ⟨_, rfl, runCmd_of_runsHere hrun rfl (by simp only [hcheck, if_neg hpeer, CmdRes.ok])⟩

/-- R415: REJOIN of an Isolated Hub of the same mirror version. -/
theorem execPairRejoin_isolated (hrun : RunsHere (.pairRejoin h) s) (hcheck : s.pairCheck = none) (hpeer : s.pair.peerRole = .isolated)
    (hver : s.pair.peerMirrorVer = s.scriv.mirrorVer) :
    execPairRejoin h s = .next (complete (s.sendChord (.mirror .rejoin)).rebuild h.src 0x0704 .ok []) :=
  runCmd_of_runsHere hrun rfl (by simp only [hcheck, hpeer, hver, ne_eq, not_true_eq_false, or_self, if_false, CmdRes.ok])

/-- R416: HANDOVER to a partner at a time that lies far enough ahead. -/
theorem execPairHandover_ahead {e : HT} (hrun : RunsHere (.pairHandover h e) s) (hahead : s.htNs + 1000000 ≤ e) (hcheck : s.pairCheck = none)
    (hpeer : s.pair.peerRole = .partner) :
    execPairHandover h e s = .next { s with pair := { s.pair with handover := some { eff := e, src := h.src } } } :=
  runCmd_wait_of_runsHere hrun rfl (by simp only [if_neg (Nat.not_lt.mpr hahead), hcheck, hpeer, ne_eq, not_true_eq_false, if_false])

/-- R416: at the time of the HANDOVER a primary that holds no chunk releases the lease. -/
theorem execHandoverEffective_idle {w : Handover} (hwaits : s.pair.handover = some w) (hprimary : s.isPrimary = true) (hdue : w.eff ≤ s.htNs)
    (hidle : s.coll.chunks = []) : execHandoverEffective s = .next
      ((complete { s with pair := { s.pair with stopMapping := true } } w.src 0x0704 .ok []).sendRelease.leavePrimary) := by
  simp only [execHandoverEffective, hwaits, hprimary, decide_eq_false (Nat.not_lt.mpr hdue), hidle, List.any_nil, Bool.not_true, Bool.or_self,
    Bool.false_eq_true, if_false]

/-- Table 17.5: READ of a pair without saved states and staged sets. -/
theorem execPairRead_noSaves (hrun : RunsHere (.pairRead h) s) (hsaves : s.jm.saves = []) (hstages : s.jm.stages = []) :
    execPairRead h s = .next (complete s h.src 0x0704 .ok (layout [(1, s.pair.role.val), (1, s.pair.peerRole.val), (4, s.pair.epoch),
      (2, ((s.pair.confs.getLast?).map (fun e => e.2.length)).getD 0), (1, b2n s.pair.solo), (8, idMask (s.chordUp.map (fun p => p - 288))),
      (32, idMask []), (32, idMask [])])) :=
  runCmd_of_runsHere hrun rfl (by simp only [hsaves, hstages, List.filterMap_nil, CmdRes.ok])

end Sys2Proof.Machine
end

section
namespace Sys2Proof.Machine

/-- Settles O33, flit by flit and timer by timer. -/
theorem leasesAndVoters : Obligations.LeasesAndVoters := by
  unfold Obligations.LeasesAndVoters
  refine ⟨fun s t hprimary hlast hdue => execLeaseRenewalSend_due hprimary hlast hdue,
    fun s hlater hrole hhub hvalid hlast hnewer => execLeaseClaimSend_first hlater hrole hhub hvalid hlast hnewer,
    fun s0 s l f htake hlink hchord hup hvotes => ⟨fun hholder => ?renewed, fun hother => ?refused⟩,
    fun s0 s l f htake hlink hup hvotes hother => ⟨fun hgrant => ?granted, fun hrefuse => ?claimRefused⟩,
    fun s0 s l f htake hlink hchord hup hvotes hepoch hpos => ?released,
    fun s0 s l v f e htake hdown hv hhub hrole hepoch hsome hroster hlease hconfs hquorum =>
      execLeaseConfirmationReceive_quorum htake hdown hv hhub hrole hepoch hsome hroster hlease hconfs hquorum,
    fun s0 s l g f htake hhub hlink hdown hrole hnewer => execLeaseRefusalReceive_newer (f := f) htake hhub hlink hdown hrole hnewer,
    fun s e hprimary hlease hended hhandover => execLeaseLapse_ended hprimary hlease hended hhandover,
    fun s hhub hrole hdue => execChordRenewalTimeout_due hhub hrole hdue⟩
  case renewed =>
    rw [← onLeaseFlit_renew_holder hholder]
    exact execLeaseRenewalReceive_voter htake hlink hup hvotes hchord
  case refused =>
    rw [← onLeaseFlit_renew_other hother]
    exact execLeaseRenewalReceive_voter htake hlink hup hvotes hchord
  case granted =>
    rw [← onLeaseFlit_claim_granted hother hgrant]
    exact execLeaseClaimReceive_voter htake hlink hup hvotes
  case claimRefused =>
    rw [← onLeaseFlit_claim_refused hother hrefuse]
    exact execLeaseClaimReceive_voter htake hlink hup hvotes
  case released =>
    rw [← onLeaseFlit_release_holder (p := l.port) (f := f) ⟨hepoch, hpos⟩]
    exact execLeaseReleaseReceive_voter htake hlink hup hvotes hchord

/-- Settles O34, event by event and operation by operation. -/
theorem mirrorAndHandover : Obligations.MirrorAndHandover := by
  unfold Obligations.MirrorAndHandover
  exact ⟨fun s t hdown hprimary hsolo hchord hdue => execChordDownSolo_due hdown hprimary hsolo hchord hdue,
    fun s0 s l m htake hport hchord hrole => execMirrorFlitReceive_partner m htake hport hchord hrole,
    fun s hhub hprimary hepoch hsolo => execEpochRecordClose_primary hhub hprimary hepoch hsolo,
    fun h s hrun hcheck hpeer => execPairIsolate_partner hrun hcheck hpeer,
    fun h s hrun hcheck hpeer hver => execPairRejoin_isolated hrun hcheck hpeer hver,
    fun h e s hrun hahead hcheck hpeer => execPairHandover_ahead hrun hahead hcheck hpeer,
    fun s w hwaits hprimary hdue hidle => execHandoverEffective_idle hwaits hprimary hdue hidle,
    fun h s hrun hsaves hstages => execPairRead_noSaves hrun hsaves hstages⟩

end Sys2Proof.Machine
end

section
/-! The life of a context (R431 to R441, R491, R492): what opening, shaping and closing distribute, what a block keeps of an open, and what the
clear and the slot reset leave. -/

namespace Sys2Proof.Machine

variable {h : CmdHdr} {s s0 : State}

/-- A command that reads data over the fabric, runs here and goes on. -/
theorem runRead_wait_of_runsHere {α : Type} {i : Instr} {inf : CmdInfo} {t : State} {a : FabRead α} {body : State → CmdRes}
    (hrun : RunsHere i s) (hrow : cmdOf i s = some (inf, h)) (hbody : body s = .wait t) : runRead inf h s a body = .next t := by
  obtain ⟨inf', h', hrow', hgate, hroute, hfree⟩ := hrun
  obtain ⟨rfl, rfl⟩ : inf = inf' ∧ h = h' := by simpa [hrow] using hrow'
  rw [runRead_here hroute]
  exact runCmd_wait hgate hroute hfree hbody

/-! ## The serving Hub (R433, R289, R441) -/

/-- R433, R434: the open of an operator context for which a slot is free. -/
theorem execCmdCtxOpen_operator {a : CtxOpenArgs} {c : Nat} (hrun : RunsHere (.cmdCtxOpen h a) s) (hlow : 1 ≤ a.spanTier) (hhigh : a.spanTier ≤ 3)
    (hrange : s.openRange a = false) (hkeys : s.sec.keysValid = true) (hslot : s.chooseSlot a = .ok c) (hoperator : a.tenantKeyed = false) :
    execCmdCtxOpen h a s = .next ({ s with freeCtr := s.freeCtr + 1 }.distBegin
      (.ctxOpen { slot := c, gen := s.nextGen a c, radio := a.radio, enc := a.enc, tenantKeyed := false, key := Config.freeRandom s.freeCtr,
                  span := a.spanTier, mask := some a.mask })
      h.src none (layout [(2, c), (2, s.nextGen a c)]) none) := by
  have hone : (a.spanTier = 0) = False := eq_false (by omega)
  exact runRead_wait_of_runsHere hrun rfl (by
    simp only [hone, Nat.not_lt.mpr hhigh, hrange, hkeys, hslot, hoperator, decide_false, Bool.or_self, Bool.not_true, Bool.false_eq_true, if_false,
      List.append_nil, State.drawn])

/-- R289, R290: a shape in range for a context that spans here. -/
theorem execCmdCtxShape_inRange {w r b : Nat} {full : Bool} (hrun : RunsHere (.cmdCtxShape h w r b full) s) (hrange : shapeRange w r b = true)
    (hspan : (s.slot h.slot).spanHere = true) :
    execCmdCtxShape h w r b full s = .next (s.distBegin (.ctxShape h.slot h.gen w r b full) h.src none
      (layout [(2, (s.shapeOf h.slot).weight), (4, (s.shapeOf h.slot).rate), (4, (s.shapeOf h.slot).burst)]) none) :=
  runCmd_wait_of_runsHere hrun rfl (by simp [hrange, hspan])

/-- R441: the first close of a context that spans here. -/
theorem execCmdCtxClose_first (hrun : RunsHere (.cmdCtxClose h) s) (hslot : h.slot ≠ 0) (hspan : (s.slot h.slot).spanHere = true)
    (hclear : (s.slot h.slot).clearing = false) (hasked : (s.slot h.slot).clearReq = false) :
    execCmdCtxClose h s =
      .next ((s.modSlot h.slot (fun x => { x with closing := some h.src })).distBegin (.ctxClose h.slot h.gen 0) h.src none [] none) :=
  runCmd_wait_of_runsHere hrun rfl (by simp [hslot, hspan, hclear, hasked])

/-! ## A Leaf that takes part (R434) -/

/-- What a Leaf holds of an open that it accepted: the context and the number under which it may be withdrawn. -/
def State.leafInstalled (s : State) (p id : Nat) (m : CtxMsg) : State :=
  let t := s.install m []
  { t with scriv := { t.scriv with seen := t.scriv.seen ++ [{ port := p, id := id, cmd := .ctxOpen m, undo := { gen := (s.slot m.slot).lastGen } }] } }

@[simp] theorem slot_leafInstalled (s : State) (p id : Nat) (m : CtxMsg) (c : Nat) : (s.leafInstalled p id m).slot c = (s.install m []).slot c := rfl

/-- R433: a participant accepts an open of a free slot, with the generation before it for an undo. -/
theorem distApply_ctxOpen_leaf {m : CtxMsg} {above : Bool} (hleaf : s.isHub = false) (hfree : (s.slot m.slot).free = true)
    (hslot : m.slot < s.params.contexts) :
    s.distApply above (.ctxOpen m) = .ok (s.install m [], { gen := (s.slot m.slot).lastGen }) := by
  simp [State.distApply, State.acceptCtx, hleaf, hfree, Nat.not_le.mpr hslot, Except.map]

/-- R434, R546: a Leaf installs the open of a free slot and acknowledges. -/
theorem distTake_ctxOpen_leaf {p id : Nat} {m : CtxMsg} (hleaf : s.isHub = false) (hfree : (s.slot m.slot).free = true)
    (hslot : m.slot < s.params.contexts) :
    s.distTake p id (.ctxOpen m) = (s.leafInstalled p id m).send p (.distAck id .ok ((s.leafInstalled p id m).ackInfo (.ctxOpen m))) := by
  simp only [State.distTake, hleaf, Bool.false_and, Bool.false_eq_true, if_false, State.distLeaf, distApply_ctxOpen_leaf hleaf hfree hslot,
    State.leafInstalled]

/-- R434: the context message of a port toward the parent. -/
theorem execContextMessageReceive_leaf {l : Link} {m : CtxMsg} {k : PortKeys} (htake : s0.takeFlit l 1 = (s, true)) (hleaf : s.isHub = false)
    (hup : s.params.isUp l.port = true) (hlink : (s.port l.port).up = true) (hkeys : (s.port l.port).keys = some k)
    (hfree : (s.slot m.slot).free = true) (hslot : m.slot < s.params.contexts) :
    ∃ t : State, execContextMessageReceive l m s0 =
        .next (t.send l.port (.distAck (openId m) .ok (t.ackInfo (.ctxOpen { m with key := Config.unwrap k.wrap m.key })))) ∧
      (t.slot m.slot).open_ = true ∧ (t.slot m.slot).lastGen = m.gen ∧ (t.slot m.slot).key = Config.unwrap k.wrap m.key ∧
      (∀ c, c ≠ m.slot → t.slot c = s.slot c) ∧ t = { s with ctx := t.ctx, scriv := t.scriv } := by
  refine ⟨s.leafInstalled l.port (openId m) { m with key := Config.unwrap k.wrap m.key }, ?_, ?_, ?_, ?_, fun c hc => ?_, rfl⟩
  · rw [execContextMessageReceive, State.received_done htake]
    simp only [hlink, hup, hkeys, Bool.not_true, Bool.or_self, Bool.false_eq_true, if_false, Option.map_some, Option.getD_some]
    rw [distTake_ctxOpen_leaf (m := { m with key := Config.unwrap k.wrap m.key }) hleaf hfree hslot]
  all_goals simp [State.install, *]

/-! ## Clears and slot resets (R195, R491, R438) -/

/-- R195, R491: the clear tick ends with the slot clearing and its key gone. -/
theorem execContextClear_asked {c : Nat} (hc : c ≠ 0) (hasked : (s.slot c).clearReq = true) (hopen : (s.slot c).open_ = true) :
    ∃ t : State, execContextClear c s = .next (t.modSlot c (fun x => { x with clearReq := false, clearing := true, key := 0, irq := 0, irqEn := 0 })) ∧
      t.modSlot c (fun x => { x with clearReq := false, clearing := true, key := 0, irq := 0, irqEn := 0 }) = s.clearTick c :=
  ⟨_, by rw [execContextClear, if_pos (by simp [hc, hasked, hopen]), State.clearTick], rfl⟩

/-- R195: the end of a clear that no one waits for. -/
theorem clearDone_unawaited {c : Nat} (hack : (s.slot c).ackTo = none) (hwords : s.sync.freeing.get [] c = []) (hdists : s.scriv.dists = []) :
    s.clearDone c =
      ({ s with sync := { s.sync with freeing := s.sync.freeing.set [] c [], clearAt := s.sync.clearAt.set 0 c 0 } } : State).modSlot c (fun x =>
        { x with open_ := false, clearing := false, clearedAt := s.htNs, ports := [], leaves := [], ackTo := none, spanHere := false }) := by
  simp [State.clearDone, hack, hwords, hdists]

theorem execContextClearComplete_unawaited {c : Nat} (hclear : (s.slot c).clearing = true) (hack : (s.slot c).ackTo = none)
    (hwords : s.sync.freeing.get [] c = []) (hdists : s.scriv.dists = []) :
    ∃ t : State, execContextClearComplete c s = .next t ∧ (t.slot c).open_ = false ∧ (t.slot c).clearing = false ∧ (t.slot c).clearedAt = s.htNs ∧
      (∀ d, d ≠ c → t.slot d = s.slot d) ∧
      t = { s with ctx := t.ctx, sync := { s.sync with freeing := t.sync.freeing, clearAt := t.sync.clearAt } } := by
  refine ⟨_, by rw [execContextClearComplete, if_pos hclear, clearDone_unawaited hack hwords hdists], ?_, ?_, ?_, fun d hd => ?_, rfl⟩
  case refine_4 => rw [State.modSlot_slot, if_neg hd]; rfl
  all_goals simp only [State.modSlot_slot, if_true]

/-- R491, R492: a freed pane of a tile has been cleared. -/
theorem execPaneClearAfterTeardown_dirty {t p : Nat} (ht : t < s.params.tiles) (hp : p < s.params.tilePanes) (hdirty : (s.pane t p).dirty = true) :
    execPaneClearAfterTeardown t p s = .next (s.modPane t p (fun x => { x with dirty := false })) := by
  rw [execPaneClearAfterTeardown, if_pos (by simp [ht, hp, hdirty])]

/-- R438: a slot whose reset is due, with no flit of it left in a replay buffer. -/
theorem execSlotResetComplete_due {c : Nat} (hreset : (s.slot c).resetting = true) (hclosed : (s.slot c).open_ = false)
    (hclear : (s.slot c).clearing = false) (hflushed : s.flushedSince (s.slot c).clearedAt = true) :
    execSlotResetComplete c s = .next (s.modSlot c (fun x => { x with lastGen := 0, resetting := false })) := by
  simp [execSlotResetComplete, hreset, hclosed, hclear, hflushed]

end Sys2Proof.Machine
end

section
/-! The statement about contexts. -/

namespace Sys2Proof.Machine

/-- Settles O17, clause by clause: the Hub's commands, the open at a Leaf, and the clears and resets. -/
theorem contextLifecycle : Obligations.ContextLifecycle := by
  unfold Obligations.ContextLifecycle
  exact ⟨fun _ _ _ _ => execCmdCtxOpen_operator,
    fun _ _ _ _ _ _ => execCmdCtxShape_inRange,
    fun _ _ => execCmdCtxClose_first,
    fun _ _ _ _ _ => execContextMessageReceive_leaf,
    fun _ _ => execContextClear_asked,
    fun _ _ => execContextClearComplete_unawaited,
    fun _ _ _ => execPaneClearAfterTeardown_dirty,
    fun _ _ => execSlotResetComplete_due⟩

end Sys2Proof.Machine
end

section
/-! Attestation and the debug unlock (R422, R427, R447): what CMD_ATTEST and CMD_DEBUG_UNLOCK keep and return. -/

namespace Sys2Proof.Machine

variable {h : CmdHdr} {s : State}

/-- R422: enrolment of a block without helper data draws them and forms the attestation key. -/
theorem execAttestEnroll_fresh (hrun : RunsHere (.attestEnroll h) s) (hnone : s.flash.helper = none) (hpuf : s.sec.pufOn = true) :
    ∃ t : State, execAttestEnroll h s = .next (complete t h.src 0x0803 .ok (be 96 t.attPub)) ∧
      t = { s with
        freeCtr := s.freeCtr + 1
        flash := { s.flash with helper := some (Config.freeRandom s.freeCtr) }
        sec := { s.sec with
          helper := Config.freeRandom s.freeCtr, enrolled := true, keysValid := true
          attKey := Config.hkdf (Config.rootKey (Config.freeRandom s.freeCtr)) "DXATT" [] } } :=
  ⟨_, runCmd_of_runsHere hrun rfl (by
    simp only [hnone, hpuf, Option.isSome_none, Bool.not_true, Bool.false_eq_true, if_false, CmdRes.ok]), rfl⟩

/-- R427: the report of a block whose keys exist. -/
theorem execAttestReport_enrolled {n u : Nat} (hrun : RunsHere (.attestReport h n u) s) (hkeys : s.sec.keysValid = true) :
    execAttestReport h n u s = .next (complete s h.src 0x0803 .ok (s.report n u)) :=
  runCmd_of_runsHere hrun rfl (by simp only [hkeys, Bool.not_true, Bool.false_eq_true, if_false, CmdRes.ok])

/-- R422: a chain in range that ends in the block's key is kept in flash. -/
theorem execAttestCertLoad_ends {len c : Nat} (hrun : RunsHere (.attestCertLoad h len (.ok (c, true))) s) (hlow : 1 ≤ len) (hhigh : len ≤ 8192)
    (hkeys : s.sec.keysValid = true) :
    execAttestCertLoad h len (.ok (c, true)) s = .next (complete
      { s with sec := { s.sec with certs := some (len, c) }, flash := { s.flash with certs := some (len, c) } } h.src 0x0803 .ok []) := by
  have hrange : ¬ (len = 0 ∨ 8192 < len) := by omega
  exact runRead_of_runsHere hrun rfl (by
    simp only [hrange, withRead, hkeys, Bool.not_true, Bool.or_self, Bool.false_eq_true, if_false, CmdRes.ok])

/-- R422: the chain that is stored. -/
theorem execAttestCertRead_stored {n c : Nat} (hrun : RunsHere (.attestCertRead h) s) (hcerts : s.sec.certs = some (n, c)) :
    execAttestCertRead h s = .next (complete s h.src 0x0803 .ok (le n c)) :=
  runCmd_of_runsHere hrun rfl (by simp only [hcerts, CmdRes.ok])

/-- R447: a challenge is drawn and kept. -/
theorem execDebugChallenge_runsHere (hrun : RunsHere (.debugChallenge h) s) :
    execDebugChallenge h s = .next (complete
      { s with freeCtr := s.freeCtr + 1, sec := { s.sec with challenge := some (Config.freeRandom s.freeCtr % 2 ^ 384) } } h.src 0x0804 .ok
      (be 48 (Config.freeRandom s.freeCtr % 2 ^ 384))) :=
  runCmd_of_runsHere hrun rfl rfl

/-- R447: a token of this device over the challenge that stands unlocks. -/
theorem execDebugUnlock_token {k : Token} (hrun : RunsHere (.debugUnlock h (.ok k)) s) (hmagic : k.magic = 0x54445844) (hver : k.tver = 1)
    (hroot : k.licHash = s.params.licRootHash) (hsig : k.sigOk = true) (hdevice : k.deviceId = s.deviceId)
    (hchallenge : s.sec.challenge = some k.challenge) :
    execDebugUnlock h (.ok k) s = .next (complete (s.unlock (mbOf h.src)) h.src 0x0804 .ok []) :=
  runRead_of_runsHere hrun rfl (by simp [withRead, hmagic, hver, hroot, hsig, hdevice, hchallenge, CmdRes.ok])

end Sys2Proof.Machine
end

section
/-! Distributed commands (R546, R469, R488): how a Leaf accepts, how the last acknowledgement ends a distribution, and CMD_HT_STEP. -/

namespace Sys2Proof.Machine

variable {h : CmdHdr} {s s0 : State} {l : Link}

/-- What a Leaf holds of a command that it accepted: its effect and what an undo needs. -/
def State.leafAccepted (t : State) (p id : Nat) (c : DistCmd) (u : Undo) : State :=
  { t with scriv := { t.scriv with seen := t.scriv.seen ++ [{ port := p, id := id, cmd := c, undo := u }] } }

/-- R546, R197: a Leaf that accepts a barrier acknowledges it. -/
theorem distTake_barrierDefine_leaf {t : State} {p id c g : Nat} {d : BarrierDef} {u : Undo} (hleaf : s.isHub = false)
    (happly : s.distApply (s.params.isUp p) (.barrierDefine c g d) = .ok (t, u)) :
    s.distTake p id (.barrierDefine c g d) = (t.leafAccepted p id (.barrierDefine c g d) u).send p
      (.distAck id .ok ((t.leafAccepted p id (.barrierDefine c g d) u).ackInfo (.barrierDefine c g d))) := by
  simp only [State.distTake, hleaf, Bool.false_and, Bool.false_eq_true, if_false, State.distLeaf, happly, State.leafAccepted]

theorem execDistributionReceive_leafBarrier {t : State} {id c g : Nat} {d : BarrierDef} {u : Undo} (htake : s0.takeFlit l 1 = (s, true))
    (hleaf : s.isHub = false) (hlink : (s.port l.port).up = true) (hdown : s.params.isDown l.port = false)
    (happly : s.distApply (s.params.isUp l.port) (.barrierDefine c g d) = .ok (t, u)) :
    execDistributionReceive l id (.barrierDefine c g d) s0 = .next ((t.leafAccepted l.port id (.barrierDefine c g d) u).send l.port
      (.distAck id .ok ((t.leafAccepted l.port id (.barrierDefine c g d) u).ackInfo (.barrierDefine c g d)))) := by
  rw [execDistributionReceive, State.received_done htake]
  simp only [hlink, hdown, Bool.not_true, Bool.or_self, Bool.false_eq_true, if_false, distTake_barrierDefine_leaf hleaf happly]

/-- R546: the acknowledgement of the one port that the one distribution waits for. -/
theorem distHeard_last {p id : Nat} {i : AckInfo} {d : Dist} (hdists : s.scriv.dists = [d]) (hid : d.id = id) (hwait : d.waiting = [p]) :
    s.distHeard p id .ok i = ({ s with scriv := { s.scriv with
      dists := [{ d with waiting := [], accepted := d.accepted ++ [p], infos := d.infos ++ [(p, i)] }] } } : State).distFinish id d.ownOk := by
  simp [State.distHeard, hdists, hid, hwait]

theorem execDistributionAckReceive_last {id : Nat} {i : AckInfo} {d : Dist} (htake : s0.takeFlit l 1 = (s, true)) (hlink : (s.port l.port).up = true)
    (hdists : s.scriv.dists = [d]) (hid : d.id = id) (hwait : d.waiting = [l.port]) :
    execDistributionAckReceive l id .ok i s0 = .next (({ s with scriv := { s.scriv with
      dists := [{ d with waiting := [], accepted := d.accepted ++ [l.port], infos := d.infos ++ [(l.port, i)] }] } } : State).distFinish id d.ownOk) := by
  rw [execDistributionAckReceive, State.received_done htake]
  simp only [hlink, if_true, distHeard_last hdists hid hwait]

/-- R469, R488: a step in range at the top pair is distributed, to be armed 1,000,000 ns before its effective HT. -/
theorem execCmdHtStep_inRange {d : Int} {e : HT} (hrun : RunsHere (.cmdHtStep h false d e) s) (htop : s.isTop = true)
    (hahead : s.htNs + 10000000 ≤ e) (hlow : 0 ≤ (e : Int) + d) (hhigh : (e : Int) + d < 2 ^ 62) :
    ∃ t : State, t = s.distBegin (.htStep d e) h.src none (layout [(8, twos 64 d)]) (some (e - 1000000)) ∧
      execCmdHtStep h false d e s = .next (if t.scriv.dists.any (fun x => match x.cmd with | .htStep _ _ => x.up.isNone | _ => false) then
        { t with time := { t.time with step := t.time.step.map (fun a => { a with src := some h.src }) } } else t) := by
  have hrange : ¬ (e < s.htNs + 10000000 ∨ (e : Int) + d < 0 ∨ (2 : Int) ^ 62 ≤ (e : Int) + d) := by
    simp only [Nat.not_lt.mpr hahead, Int.not_lt.mpr hlow, Int.not_le.mpr hhigh, or_self, not_false_eq_true]
  exact ⟨_, rfl, runCmd_wait_of_runsHere hrun rfl (by
    simp only [htop, hrange, Bool.not_true, Bool.false_eq_true, if_false] <;> rfl)⟩

/-- R488: a step that is not armed everywhere at its deadline fails. -/
theorem execHtStepArmingDeadline_due {d : Dist} {t : HT} (hdists : s.scriv.dists = [d]) (hdeadline : d.deadline = some t) (hdue : t ≤ s.htNs) :
    execHtStepArmingDeadline s = .next (s.distFail { d with accepted := d.accepted ++ d.waiting } .busy d.ownOk) := by
  simp [execHtStepArmingDeadline, hdists, hdeadline, hdue]

end Sys2Proof.Machine
end

section
/-! The statements about attestation, debug and distributed commands. -/

namespace Sys2Proof.Machine

/-- Settles O35, operation by operation. -/
theorem attestationAndDebug : Obligations.AttestationAndDebug := by
  unfold Obligations.AttestationAndDebug
  exact ⟨fun _ _ => execAttestEnroll_fresh,
    fun _ _ _ _ => execAttestReport_enrolled,
    fun _ _ _ _ => execAttestCertLoad_ends,
    fun _ _ _ _ => execAttestCertRead_stored,
    fun _ _ => execDebugChallenge_runsHere,
    fun _ _ _ => execDebugUnlock_token⟩

/-- Settles O36, event by event. -/
theorem distributedCommands : Obligations.DistributedCommands := by
  unfold Obligations.DistributedCommands
  exact ⟨fun _ _ _ _ _ _ _ _ _ => execDistributionReceive_leafBarrier,
    fun _ _ _ _ _ _ => execDistributionAckReceive_last,
    fun _ _ _ _ => execCmdHtStep_inRange,
    fun _ _ _ => execHtStepArmingDeadline_due⟩

end Sys2Proof.Machine
end

section
/-! Mailboxes and forwarded commands (R458 to R461): GO, ABORT and DONE, the acceptance of the mailbox posted first, and what becomes of a
forwarded command. -/

namespace Sys2Proof.Machine

variable {s s0 : State} {l : Link} {m : Option Nat} {a k : Nat}

/-! ## A mailbox and the order of the posted ones -/

/-- One mailbox changes, and the order in which the posted ones wait. -/
def State.requeueMb (s : State) (k : Nat) (b : Mailbox) (order : List Nat) : State :=
  { s with scriv := { s.scriv with mbs := s.scriv.mbs.set {} k b, order := order } }

@[simp] theorem requeueMb_same (s : State) (k : Nat) (b : Mailbox) (order : List Nat) : (s.requeueMb k b order).mb k = b := by
  simp [State.requeueMb, State.mb]

theorem requeueMb_other {j k : Nat} (h : j ≠ k) (s : State) (b : Mailbox) (order : List Nat) : (s.requeueMb k b order).mb j = s.mb j := by
  simp [State.requeueMb, State.mb, h]

/-- A mailbox posted with GO holds a copy of its command area. -/
def Mailbox.posted (b : Mailbox) : Mailbox := { b with state := 1, go := true, copy := b.cmd, irq := bit (fieldAt (copyBytes b.cmd) 2 1) 2 }

/-- A mailbox whose command ABORT withdrew. -/
def Mailbox.withdrawn (b : Mailbox) : Mailbox := { b with state := 3, go := false, code := St.aborted.val, irqDone := b.irq }

/-- A host mailbox whose command is accepted. -/
def Mailbox.accepted (b : Mailbox) (now : HT) : Mailbox := { b with state := 2, go := false, seq := (b.seq + 1) % 2 ^ 32, acceptHt := now }

/-! ## The register writes (R458) -/

/-- R458: GO of a FREE mailbox posts a copy of its command area. -/
theorem execMailboxGo_free (hat : s.mailboxAt m a = some k) (hfree : (s.mb k).state = 0) :
    ∃ t : State, execMailboxGo m a s = .next (t.answer 0 false) ∧ (t.mb k).state = 1 ∧ (t.mb k).copy = (s.mb k).cmd ∧
      t.scriv.order = s.scriv.order ++ [k] ∧ (∀ j, j ≠ k → t.mb j = s.mb j) ∧
      t = { s with scriv := { s.scriv with mbs := t.scriv.mbs, order := t.scriv.order } } := by
  refine ⟨s.requeueMb k (s.mb k).posted (s.scriv.order ++ [k]), ?_, ?_, ?_, rfl, fun j hj => requeueMb_other hj .., rfl⟩
  · simp only [execMailboxGo, hat, hfree, if_true]
    rfl
  all_goals rw [requeueMb_same, Mailbox.posted]

/-- R458: ABORT of a host mailbox that is POSTED withdraws its command. -/
theorem execMailboxAbort_posted (hat : s.mailboxAt m a = some k) (hposted : (s.mb k).state = 1) (hhost : k < 256) :
    ∃ t : State, execMailboxAbort m a s = .next (t.answer 0 false) ∧ (t.mb k).state = 3 ∧ (t.mb k).code = St.aborted.val ∧
      t.scriv.order = s.scriv.order.filter (fun x => x != k) ∧ (∀ j, j ≠ k → t.mb j = s.mb j) ∧
      t = { s with scriv := { s.scriv with mbs := t.scriv.mbs, order := t.scriv.order } } := by
  refine ⟨s.requeueMb k (s.mb k).withdrawn (s.scriv.order.filter (fun x => x != k)), ?_, ?_, ?_, rfl, fun j hj => requeueMb_other hj .., rfl⟩
  · have hpage : ¬ (256 ≤ k ∧ (s.mb k).irq = true) := fun h => Nat.not_le.mpr hhost h.1
    simp only [execMailboxAbort, hat, hposted, if_true, if_neg hpage]
    rfl
  all_goals rw [requeueMb_same, Mailbox.withdrawn]

/-- R458: a write to DONE frees a mailbox in DONE. -/
theorem execMailboxDoneClear_done (hat : s.mailboxAt m a = some k) (hdone : (s.mb k).state = 3) :
    execMailboxDoneClear m a s = .next ((s.modMb k (fun b => { b with state := 0, irqDone := false })).answer 0 false) := by
  simp only [execMailboxDoneClear, hat, hdone, if_true]

/-! ## Acceptance (R459, R460) -/

/-- A response without bytes of a running host mailbox: it is in DONE with the code, and nothing of the order moves. -/
theorem complete_runningHost {m o : Nat} {c : St} (hhost : m < 256) (hrun : (s.mb m).state = 2) :
    ((complete s (.host m) o c []).mb m).state = 3 ∧ ((complete s (.host m) o c []).mb m).code = c.val ∧
      (complete s (.host m) o c []).scriv.order = s.scriv.order := by
  have hpage : decide (256 ≤ m) = false := decide_eq_false (Nat.not_le.mpr hhost)
  have hruns (last : Option (CmdSrc × St × List Byte)) : (({ s with scriv := { s.scriv with lastDone := last } } : State).mb m).state = 2 := hrun
  simp only [complete, List.length_nil, Nat.not_lt_zero, decide_false, Bool.and_false, completeMb, hruns, hpage, Bool.false_and, Bool.false_eq_true,
    if_true, if_false, State.modMb_mb]
  exact ⟨trivial, trivial, rfl⟩

section
variable {n : Nat} {r : List Nat}
variable (horder : s.scriv.order = n :: r) (hhost : n < 256) (hrestart : s.scriv.restarting = false) (haccept : s.scriv.accepting = true)
  (hroom : s.runningMbs.length < 16) (hstage : 3 ≤ s.boot.stage)
include horder hhost hrestart haccept hroom hstage

/-- R459, R460: the mailbox posted first is accepted; a head that check 1 refuses completes it at once. -/
theorem execMailboxAccept_host : execMailboxAccept s = .next (if headOk (copyBytes (s.mb n).copy) then s.requeueMb n ((s.mb n).accepted s.htNs) r
    else complete (s.requeueMb n ((s.mb n).accepted s.htNs) r) (.host n) (fieldAt (copyBytes (s.mb n).copy) 0 2) (if s.recovery then .busy else .range) []) := by
  have hpage : ¬ 256 ≤ n := Nat.not_le.mpr hhost
  have hcopy : ((s.requeueMb n ((s.mb n).accepted s.htNs) r).mb n).copy = (s.mb n).copy := by rw [requeueMb_same, Mailbox.accepted]
  rw [← hcopy]
  simp only [execMailboxAccept, horder, hrestart, haccept, Nat.not_le.mpr hroom, Nat.not_lt.mpr hstage, decide_false, Bool.not_true, Bool.or_self,
    Bool.false_eq_true, if_false, hpage, srcOf]
  rfl

/-- R459: one whose head is right runs. -/
theorem execMailboxAccept_headOk (hhead : headOk (copyBytes (s.mb n).copy) = true) :
    ∃ t : State, execMailboxAccept s = .next t ∧ (t.mb n).state = 2 ∧ (t.mb n).go = false ∧ (t.mb n).seq = ((s.mb n).seq + 1) % 2 ^ 32 ∧
      (t.mb n).acceptHt = s.htNs ∧ t.scriv.order = r ∧ (∀ j, j ≠ n → t.mb j = s.mb j) ∧
      t = { s with scriv := { s.scriv with mbs := t.scriv.mbs, order := r } } := by
  refine ⟨s.requeueMb n ((s.mb n).accepted s.htNs) r, by rw [execMailboxAccept_host horder hhost hrestart haccept hroom hstage, if_pos hhead],
    ?_, ?_, ?_, ?_, rfl, fun j hj => requeueMb_other hj .., rfl⟩
  all_goals rw [requeueMb_same, Mailbox.accepted]

/-- R460: one whose head is wrong completes with ST_RANGE. -/
theorem execMailboxAccept_headWrong (hrecovery : s.boot.stage ≠ 8) (hhead : headOk (copyBytes (s.mb n).copy) = false) :
    ∃ t : State, execMailboxAccept s = .next t ∧ (t.mb n).state = 3 ∧ (t.mb n).code = St.range.val ∧ t.scriv.order = r := by
  have hruns : ((s.requeueMb n ((s.mb n).accepted s.htNs) r).mb n).state = 2 := by rw [requeueMb_same, Mailbox.accepted]
  have hnot : s.recovery = false := by simp [State.recovery, hrecovery]
  exact ⟨_, by rw [execMailboxAccept_host horder hhost hrestart haccept hroom hstage, hhead, hnot]; simp only [Bool.false_eq_true, if_false]; rfl,
    complete_runningHost hhost hruns⟩

end

/-! ## Forwarded commands (R461) -/

/-- R461: the primary of the tier that executes a forwarded command takes it. -/
theorem execForwardedCommandReceive_primary {b n q o : Nat} {mir again : Bool} {w : BitVec 512} (htake : s0.takeFlit l 1 = (s, true))
    (hhub : s.isHub = true) (hlink : (s.port l.port).up = true) (hprimary : s.isPrimary = true) :
    execForwardedCommandReceive l b n q s.tier o mir w again s0 = .next (s.takeFwd l.port b n q o (w.toNat / 2 ^ 64 % 256) again) := by
  rw [execForwardedCommandReceive, State.received_done htake]
  simp only [hhub, hlink, hprimary, Bool.not_true, Bool.or_self, Bool.false_eq_true, if_true, if_false, Nat.lt_irrefl]

/-- R461: a response completes the command of the host mailbox that it answers. -/
theorem execForwardResponseReceive_host {n q : Nat} {c : St} {out : List Byte} {f : Fwd} (htake : s0.takeFlit l 1 = (s, true))
    (hfwd : s.scriv.fwds.find? (fun f => f.src == .host n && f.seq == q) = some f) :
    execForwardResponseReceive l (.host n) q c out s0 = .next (complete (s.dropFwd (.host n) q) (.host n) f.opcode c out) := by
  rw [execForwardResponseReceive, State.received_done htake]
  simp only [hfwd]

/-- R461: 100,000,000 ns without a response. -/
theorem execForwardTimeout_host {n : Nat} {f : Fwd} (hfwds : s.scriv.fwds = [f]) (hsrc : f.src = .host n) (hdue : f.sentAt + 100000000 ≤ s.htNs) :
    execForwardTimeout (.host n) s = .next (complete (s.dropFwd (.host n) f.seq) (.host n) f.opcode .timeout []) := by
  have hfind : s.scriv.fwds.find? (fun g => g.src == .host n && decide (g.sentAt + 100000000 ≤ s.htNs)) = some f := by simp [hfwds, hsrc, hdue]
  simp only [execForwardTimeout, hfind]

end Sys2Proof.Machine
end

section
/-! The statement about mailboxes. -/

namespace Sys2Proof.Machine

/-- Settles O37, clause by clause: the register writes, the acceptance, the forwarded commands. -/
theorem mailboxes : Obligations.Mailboxes := by
  unfold Obligations.Mailboxes
  exact ⟨fun _ _ _ _ => execMailboxGo_free,
    fun _ _ _ _ => execMailboxAbort_posted,
    fun _ _ _ _ => execMailboxDoneClear_done,
    fun _ _ _ => execMailboxAccept_headOk,
    fun _ _ _ => execMailboxAccept_headWrong,
    fun _ _ _ _ _ _ _ _ _ _ => execForwardedCommandReceive_primary,
    fun _ _ _ _ _ _ _ _ => execForwardResponseReceive_host,
    fun _ _ _ => execForwardTimeout_host⟩

end Sys2Proof.Machine
end

section
/-! The Scrivener's faults, restarts and images, and the guard unit (R353, R453 to R455, R466, R467). -/

namespace Sys2Proof.Machine

variable {h : CmdHdr} {s : State}

/-! ## Faults and restarts (R453) -/

/-- R453: a fault of a running Scrivener is recorded, ends what runs and begins a restart. -/
theorem faultRestart_running (n : Nat) (hrestart : s.scriv.restarting = false) (hstage : 3 ≤ s.boot.stage) (hrecovery : s.recovery = false) :
    s.faultRestart n = (({ (s.record { event := n }).abortRunning none with
      scriv := { ((s.record { event := n }).abortRunning none).scriv with act := none, accepting := true } } : State).beginRestart).trialRestart := by
  simp only [State.faultRestart, hrestart, hrecovery, Nat.not_lt.mpr hstage, decide_false, Bool.or_self, Bool.false_eq_true, if_false]

theorem exec_faults_running (hrestart : s.scriv.restarting = false) (hstage : 3 ≤ s.boot.stage) (hrecovery : s.recovery = false) :
    ∃ f : Nat → State, (∀ n, f n = (({ (s.record { event := n }).abortRunning none with
        scriv := { ((s.record { event := n }).abortRunning none).scriv with act := none, accepting := true } } : State).beginRestart).trialRestart) ∧
      execSramDoubleError s = .next (f 0x0920) ∧ execBadFetch s = .next (f 0x0922) ∧
      (s.scriv.watchdog + 10000000 ≤ s.htNs → execWatchdogExpiry s = .next (f 0x0921)) :=
  ⟨s.faultRestart, fun n => faultRestart_running n hrestart hstage hrecovery, rfl, rfl, fun hdue => by rw [execWatchdogExpiry, if_pos hdue]⟩

/-- R453: a restart without an activation runs the active image again. -/
theorem execScrivenerRestartComplete_plain {i : Image} (hrestart : s.scriv.restarting = true) (hact : s.scriv.act = none)
    (himage : s.imageAt 0 s.flash.boot.fwActive = some i) : execScrivenerRestartComplete true s = .next (s.runFw i).restarted := by
  simp only [execScrivenerRestartComplete, hrestart, hact, himage, Bool.not_true, Bool.false_eq_true, if_true, if_false]

/-! ## Images (R466, R467) -/

/-- R466: a sound firmware image is written to the inactive slot. -/
theorem execCmdFwStage_sound {len : Nat} {i : Image} (hrun : RunsHere (.cmdFwStage h 0 len (.ok i)) s) (hact : s.scriv.act = none)
    (hrange : imgRange i.hdr 0 len = true) (hsig : i.hdr.sigOk = true) (hsvn : s.scriv.minSvn ≤ i.hdr.svn) (hback : i.hdr.readBackOk = true) :
    ∃ t : State, t = s.putImage 0 (1 - s.flash.boot.active 0) (some i) ∧ execCmdFwStage h 0 len (.ok i) s = .next (complete
      { t with scriv := { t.scriv with staged := addNew t.scriv.staged 0 } } h.src 0x0901 .ok
      (layout [(1, 1 - s.flash.boot.active 0)] ++ hdrBytes i.hdr)) :=
  ⟨_, rfl, runRead_of_runsHere hrun rfl (by simp [hact, withRead, hrange, hsig, Nat.not_lt.mpr hsvn, hback, CmdRes.ok])⟩

/-- R467: an activation of staged firmware at a stated time waits for it. -/
theorem execCmdFwActivate_staged {e : HT} {i : Image} (hrun : RunsHere (.cmdFwActivate h 0 e) s) (hleaf : s.isHub = false)
    (hrecovery : s.recovery = false) (hstaged : s.scriv.staged.contains 0 = true) (himage : s.imageAt 0 (1 - s.flash.boot.active 0) = some i)
    (he : e ≠ 0) (hahead : s.htNs + 1000000 ≤ e) (hact : s.scriv.act = none) :
    execCmdFwActivate h 0 e s = .next { s with scriv := { s.scriv with act := some { kind := 0, eff := e, src := h.src } } } := by
  have hrange : ¬ (e ≠ 0 ∧ e < s.htNs + 1000000) := fun hlate => Nat.not_lt.mpr hahead hlate.2
  exact runCmd_wait_of_runsHere hrun rfl (by
    simp only [hrecovery, hleaf, hstaged, himage, hact, if_neg hrange, if_neg he, Bool.false_and, Bool.and_false, Bool.false_eq_true, if_true,
      if_false, Option.isSome_none, Nat.reduceBEq])

/-- R467: the effective HT of an activation of firmware while nothing else runs. -/
theorem execFwActivateEffective_idle {a : Activation} (hact : s.scriv.act = some a) (hdue : a.eff ≤ s.htNs) (hrestart : s.scriv.restarting = false)
    (hkind : a.kind = 0) (hidle : s.runningMbs = []) :
    execFwActivateEffective s = .next
      (({ s with scriv := { s.scriv with accepting := false, act := some { a with effective := true } } } : State).flipFw a) := by
  simp [execFwActivateEffective, hact, Nat.not_lt.mpr hdue, hrestart, hkind, hidle]

/-- R467: what still runs 1,000,000,000 ns later is aborted. -/
theorem execActivationCommandWaitExpiry_due {a : Activation} (hact : s.scriv.act = some a) (heffective : a.effective = true)
    (hrestart : s.scriv.restarting = false) (hdue : a.eff + 1000000000 ≤ s.htNs) :
    execActivationCommandWaitExpiry s = .next ((s.abortRunning (mbOf a.src)).flipFw a) := by
  simp only [execActivationCommandWaitExpiry, hact, heffective, hrestart, decide_eq_true hdue, Bool.not_false, Bool.and_self, if_true]

/-! ## The guard unit (R353, R455) -/

/-- R353, R455: a scrub interval whose write the guard unit refuses. -/
theorem execCmdJournalConfig_guarded {n : Nat} {g : Nat × Nat} {inf : CmdInfo} (hrow : cmdOf (.cmdJournalConfig h n) s = some (inf, h))
    (hgate : gate inf h s = none) (hroute : route s inf h = .here) (hparam : h.param = .ok ()) (hguard : h.guard = some g) (hlow : 1 ≤ n)
    (hhigh : n ≤ 168) :
    execCmdJournalConfig h n s = .next (complete
      (({ s with scriv := { s.scriv with guardTrips := (s.scriv.guardTrips + 1) % 65536 } } : State).record
        { event := 0x0923, code := St.guard.val, syn := le 2 g.1 ++ [0, 0] ++ le 4 g.2 }) h.src 0x0507 .guard []) := by
  obtain rfl : inf = { opcode := 0x0507, leaf := false } := (congrArg Prod.fst (Option.some.inj hrow)).symm
  have hrange : ¬ (n < 1 ∨ 168 < n) := by omega
  obtain ⟨u, htrip, hend⟩ := runCmd_guard (body := fun s =>
    if n < 1 ∨ 168 < n then .err s .range else .ok { s with jm := { s.jm with scrubHours := n } } (layout [(4, s.jm.scrubHours)]))
    hgate hroute hparam hguard (.inl (if_neg hrange))
  obtain ⟨rfl, -, -⟩ := CmdRes.done.inj htrip
  exact hend

end Sys2Proof.Machine
end

section
/-! Resets, start-up and the boot record (R37, R40, R447, R474 to R484). -/

namespace Sys2Proof.Machine

variable {s : State}

/-! ## Start-up (R40, R482, R484) -/

/-- R482: a Leaf whose firmware and configuration verify reaches the start of port bring-up. -/
theorem execStartUp_leaf {s1 s2 s3 s4 : State} {p j : Bool} {l : List Nat} {c : Image} (hstage : s.boot.stage = 0)
    (hrestart : s.scriv.restarting = false) (hkeys : s1 = s.resumeSeq.formKeys p) (himage : s1.imageAt 1 s1.flash.boot.cfgActive = some c)
    (hcfg : cfgOk (some c) = true) (hfw : s1.loadFw c.hdr.svn = some s2) (hload : s2.loadCfg = some s3)
    (hsettle : s4 = (({ s3 with boot := { s3.boot with stage := 3, stage3At := s.htNs } } : State).restore).settleUnits)
    (howner : s4.sec.ownerValid = true) (hleaf : s4.isHub = false) :
    execStartUp p j l s =
      .next { s4 with boot := { s4.boot with stage := 5 }, scriv := { s4.scriv with watchdog := s.htNs, restartAt := s.htNs } } := by
  subst hkeys hsettle
  have hstart : ¬ (s.boot.stage ≠ 0 ∨ s.scriv.restarting = true) := by simp [hstage, hrestart]
  have hstill (t : State) (b : BootSt) (v : ScrivSt) (hleaf : t.isHub = false) : ({ t with boot := b, scriv := v } : State).isHub = false := hleaf
  simp only [execStartUp, if_neg hstart, himage, hcfg, if_true, hfw, hload, howner, Bool.not_true, Bool.false_eq_true, if_false,
    hstill _ _ _ hleaf]

/-- R40, R484: the solo start of the Hub at position 0 of the top pair. -/
theorem execSoloStartTimeout_position0 (htop : s.isTop = true) (hpos : s.boot.cfg.pos = 0) (hstage : s.boot.stage = 5)
    (hvalid : s.time.valid = false) (hdue : s.boot.stage3At + 2000000000 ≤ s.htNs) (hcold : coldHt s.flash.checkpoint < 2 ^ 62)
    (hchord : s.chordTime = []) :
    ∃ t : State, t = s.moveTime ((coldHt s.flash.checkpoint : Int) - s.htNs) ∧ execSoloStartTimeout s = .next
      (({ t with time := { t.time with ht48 := coldHt s.flash.checkpoint * 2 ^ 48, valid := true }
                 boot := { t.boot with stage := 6, soloLoad := true } } : State).rebuildHistories.completeWaiting.refreshWord) :=
  ⟨_, rfl, by simp only [execSoloStartTimeout, htop, if_pos hpos, hstage, hvalid, decide_eq_true hdue, decide_eq_true hcold, hchord, List.any_nil,
    decide_true, Bool.not_false, Bool.and_self, if_true]⟩

/-! ## The boot record (R476, R478) -/

/-- R478: the end of a trial. -/
theorem execFwTrialClear_due (htrial : s.flash.boot.trial = true) (hrestart : s.scriv.restarting = false)
    (hdue : s.scriv.restartAt + 600000000000 ≤ s.htNs) (hstage : 3 ≤ s.boot.stage) (hrecovery : s.boot.stage ≠ 8) :
    execFwTrialClear s = .next { s with flash := s.flash.putBoot { s.flash.boot with trial := false, trialRestarts := 0 } } := by
  simp only [execFwTrialClear, htrial, hrestart, decide_eq_true hdue, decide_eq_true (And.intro hstage hrecovery), Bool.not_false, Bool.and_self,
    if_true]

/-- R476: the next generation is newer. -/
theorem serialNewer_succ (g : Word) : serialNewer (g + 1) g = true := by
  have hone : g + 1 - g = 1#32 := by bv_omega
  rw [serialNewer, hone]
  decide

theorem not_serialNewer_succ (g : Word) : serialNewer g (g + 1) = false := by
  have hone : g - (g + 1) = -1#32 := by bv_omega
  rw [serialNewer, hone]
  decide

/-- R476: the copy in force is one of two. -/
theorem bootAt_fst_le (f : Flash) : f.bootAt.1 ≤ 1 := by
  unfold Flash.bootAt
  split
  · split <;> simp
  all_goals simp

/-- R476: the place in force holds the record in force, or nothing when no copy is valid. -/
theorem bootAt_holds (f : Flash) : f.boots.get none f.bootAt.1 = some f.boot ∨ f.boots.get none f.bootAt.1 = none := by
  unfold Flash.boot Flash.bootAt
  split
  · split <;> simp [*]
  all_goals simp [*]

/-- R476: a copy whose generation is the newer, or that is alone, is in force. -/
theorem bootAt_of_newest {f : Flash} {k : Nat} {b : BootRec} (hk : k ≤ 1) (hcopy : f.boots.get none k = some b)
    (hother : ∀ o, f.boots.get none (1 - k) = some o → serialNewer b.gen o.gen = true ∧ serialNewer o.gen b.gen = false) : f.bootAt = (k, b) := by
  obtain rfl | rfl : k = 0 ∨ k = 1 := by omega
  · cases hrest : f.boots.get none 1 with
    | none => simp [Flash.bootAt, hcopy, hrest]
    | some o => simp [Flash.bootAt, hcopy, hrest, (hother o hrest).2]
  · cases hrest : f.boots.get none 0 with
    | none => simp [Flash.bootAt, hcopy, hrest]
    | some o => simp [Flash.bootAt, hcopy, hrest, (hother o hrest).1]

/-- R476: the copy in force stays as it was. -/
theorem putBoot_inForce_kept (f : Flash) (b : BootRec) : (f.putBoot b).boots.get none f.bootAt.1 = f.boots.get none f.bootAt.1 := by
  have hcopy := bootAt_fst_le f
  rw [Flash.putBoot, Tbl.get_set, if_neg (by omega)]

/-- R476: an update is in force from then on. -/
theorem boot_putBoot (f : Flash) (b : BootRec) : (f.putBoot b).boot = { b with gen := f.boot.gen + 1 } := by
  have hcopy := bootAt_fst_le f
  have hnew : (f.putBoot b).boots.get none (1 - f.bootAt.1) = some { b with gen := f.boot.gen + 1 } := by
    rw [Flash.putBoot, Tbl.get_set, if_pos rfl]
  refine congrArg Prod.snd (bootAt_of_newest (Nat.sub_le ..) hnew fun o hold => ?_)
  rw [Nat.sub_sub_self hcopy, putBoot_inForce_kept] at hold
  obtain hold' | hold' := bootAt_holds f
  · obtain rfl : f.boot = o := Option.some.inj (hold'.symm.trans hold)
    exact ⟨serialNewer_succ _, not_serialNewer_succ _⟩
  · exact absurd (hold'.symm.trans hold) nofun

end Sys2Proof.Machine
end

section
/-! The statements about the Scrivener, resets and start-up. -/

namespace Sys2Proof.Machine

/-- Settles O38, event by event and command by command. -/
theorem scrivenerFaultsAndFirmware : Obligations.ScrivenerFaultsAndFirmware := by
  unfold Obligations.ScrivenerFaultsAndFirmware
  exact ⟨fun _ => exec_faults_running,
    fun _ => rfl,
    fun _ _ => execScrivenerRestartComplete_plain,
    fun _ _ _ _ => execCmdFwStage_sound,
    fun _ _ _ _ => execCmdFwActivate_staged,
    fun _ _ => execFwActivateEffective_idle,
    fun _ _ => execActivationCommandWaitExpiry_due,
    fun _ _ _ _ _ => execCmdJournalConfig_guarded⟩

/-- Settles O39, clause by clause: the resets, start-up, the solo start, the end of a trial and the boot record. -/
theorem resetsAndStartUp : Obligations.ResetsAndStartUp := by
  unfold Obligations.ResetsAndStartUp
  exact ⟨fun _ => ⟨rfl, rfl, rfl, rfl, rfl, rfl, rfl⟩,
    fun _ _ _ _ _ _ _ _ _ => execStartUp_leaf,
    fun _ => execSoloStartTimeout_position0,
    fun _ => execFwTrialClear_due,
    fun f b => ⟨boot_putBoot f b, putBoot_inForce_kept f b, rfl⟩⟩

end Sys2Proof.Machine
end

section
/-! A chunk at a Leaf (R236, R262 to R264, R272, R325, R509): its source, its drain, its stream, its result and its replay. -/

namespace Sys2Proof.Machine

variable {s s0 : State} {l : Link} {k k0 : ChunkKey} {x : LColl}

/-! ## A chunk of a collective -/

/-- A collective with one of its chunks written. -/
def LColl.putChunk (x : LColl) (n : Nat) (v : LChunk) : LColl := { x with chunks := x.chunks.set {} n v }

@[simp] theorem putChunk_chunk (x : LColl) (n : Nat) (v : LChunk) : (x.putChunk n v).chunk n = v := by
  simp [LColl.putChunk, LColl.chunk]

@[simp] theorem putChunk_desc (x : LColl) (n : Nat) (v : LChunk) : (x.putChunk n v).desc = x.desc := rfl

theorem modLchunk_putChunk {c h : Nat} (hcoll : s.lcoll c h = some x) (n : Nat) (f : LChunk → LChunk) :
    s.modLchunk c h n f = s.setLcoll c h (some (x.putChunk n (f (x.chunk n)))) := modLchunk_some hcoll n f

/-! ## The source (R509) -/

/-- A chunk of whose source nothing was drained, sent or given up: beats still join its buffer. -/
def LChunk.reads (c : LChunk) : Prop :=
  c.sent = false ∧ c.done = false ∧ c.stuck = false ∧ c.writing = false ∧ c.stream = none ∧ c.panes = []

/-- R509: a beat in order that does not complete the source joins the buffer. -/
theorem leafRead_inOrder {b : List Byte} (hrun : s.lrun k = some x) (hw : x.w ≠ 0) (howed : x.owed = none) (hgo : x.stopped = false)
    (hreads : (x.chunk k.chunk).reads) (hsome : b ≠ []) (horder : srcRun x.desc k.chunk (x.chunk k.chunk).buf.length b.length = true)
    (hmore : (x.chunk k.chunk).buf.length + b.length ≠ srcLen x.desc k.chunk) :
    s.leafRead k (x.src.getD 0 + srcOfs x.desc k.chunk (x.chunk k.chunk).buf.length) (some (b, false)) none =
      s.modLchunk k.slot k.handle k.chunk (fun c => { c with buf := c.buf ++ b }) := by
  obtain ⟨hsent, hdone, hstuck, hwriting, hstream, hpanes⟩ := hreads
  have hcoll := (lrun_some hrun).1
  have hempty : b.isEmpty = false := by simpa using hsome
  simp only [State.leafRead, hrun, howed, hgo, hsent, hdone, hstuck, hwriting, hstream, hpanes, hw, hempty, horder, modLchunk_putChunk hcoll,
    lcoll_setLcoll, putChunk_chunk, putChunk_desc, List.length_append, hmore, Option.isSome_none, List.isEmpty_nil, Bool.not_true, Bool.false_and, Bool.or_self,
    Bool.false_eq_true, Bool.true_eq_false, ne_eq, not_true_eq_false, or_self, decide_false, Bool.not_false, if_true, if_false]

/-! ## The drain of a local reduction (R236) -/

/-- A chunk that holds panes is not accumulated again. -/
theorem accumulate_panes (hcoll : s.lcoll k.slot k.handle = some x) (hpanes : (x.chunk k.chunk).panes ≠ []) : s.accumulate k = s := by
  have hheld : (!(x.chunk k.chunk).panes.isEmpty) = true := by simpa using hpanes
  simp only [State.accumulate, hcoll, hheld, Bool.true_or, if_true]

theorem panes_ne_nil_of_tiles {c : LChunk} {t : Nat} {r : List Nat} (htiles : c.tiles = t :: r) : c.panes ≠ [] := by
  intro hpanes
  simp [LChunk.tiles, hpanes] at htiles

/-- R236: a local reduction whose checks agree writes its rounded result and frees its panes. -/
theorem leafDrain_local {t : Nat} {r : List Nat} {ps : List Pane} {out : List Byte} {fl : Nat} (hrun : s.lrun k = some x)
    (htiles : (x.chunk k.chunk).tiles = t :: r) (hlocal : dSpan x.desc = 0)
    (hagree : ∀ e ∈ (x.chunk k.chunk).panes, (s.pane e.1 e.2).check x.desc e.2 1 = none)
    (hjoin : r.foldl (fun a t => joinPanes a (((x.chunk k.chunk).on t).map (fun p => s.pane t p)))
      (((x.chunk k.chunk).on t).map (fun p => s.pane t p)) = ps)
    (hresult : resultOf x.desc (dElems x.desc k.chunk) ps = (out, fl)) :
    s.leafDrain k none = ((s.dropAcc (x.chunk k.chunk).panes).modLchunk k.slot k.handle k.chunk (fun c => { c with
        panes := [], buf := [], bad := [], writing := true, cflags := fl ||| (x.chunk k.chunk).flags })).fabricWrite
      (dDest x.desc + dPer x.desc * k.chunk * outWidth x.desc) out (bit (fl ||| (x.chunk k.chunk).flags) 6) (dQos x.desc) := by
  have hcoll := (lrun_some hrun).1
  have hown : (x.chunk k.chunk).panes.findSome? (fun e => ((s.pane e.1 e.2).check x.desc e.2 1).map (fun f => { f with tile := e.1 })) = none :=
    List.findSome?_eq_none_iff.mpr fun e he => by rw [hagree e he, Option.map_none]
  simp only [State.leafDrain, hrun, accumulate_panes hcoll (panes_ne_nil_of_tiles htiles), hcoll, htiles, hown, hjoin, hresult, if_pos hlocal,
    Option.or_none]

/-! ## The stream (R262, R325) -/

/-- R262: the flits of the chunk that is next are handed to the ports that carry it, and it is sent. -/
theorem leafChunkSend_next {c h n : Nat} (hcoll : s.lcoll c h = some x) (hnext : s.leafNext x = some n)
    (hopen : s.openCtx c (dGen x.desc) = true) (hports : s.sendPorts n ≠ []) :
    s.leafChunkSend c h n = (s.sendTurn (s.sendPorts n)
        ((x.chunk n).flits.map (fun d => TxMsg.contribution { slot := c, gen := dGen x.desc, handle := h, inst := x.started - 1, chunk := n } d))).setLcoll
      c h (some { x with sent := x.sent + 1, chunks := x.chunks.set {} n { x.chunk n with sent := true } }) := by
  have hsends : ¬ (s.leafNext x ≠ some n ∨ s.openCtx c (dGen x.desc) = false ∨ (s.sendPorts n).isEmpty = true) := by simp [hnext, hopen, hports]
  simp only [State.leafChunkSend, hcoll, if_neg hsends]
  exact modLcoll_some ((lcoll_sendTurn ..).trans hcoll) _

/-- R325: the mark and the retained stream of a chunk that was sent. -/
theorem leafReplay_sent {p a : Nat} (hrun : s.lrun k = some x) (hnotice : (x.chunk k.chunk).noticed = false) (hsent : (x.chunk k.chunk).sent = true) :
    s.leafReplay p k a true = (s.send p (.replayMark k a)).sendList p ((x.chunk k.chunk).flits.map (fun d => TxMsg.contribution k d)) := by
  simp only [State.leafReplay, hrun, hnotice, hsent, Bool.not_true, Bool.false_eq_true, if_true, if_false]

theorem execReplayRequestReceive_leaf {a : Nat} (htake : s0.takeFlit l 1 = (s, true)) (hleaf : s.isHub = false) (hup : s.params.isUp l.port = true)
    (hlink : (s.port l.port).up = true) (hopen : s.openCtx k0.slot k0.gen = true) (hkey : s.formKey k0 = k) (hrun : s.lrun k = some x)
    (hnotice : (x.chunk k.chunk).noticed = false) (hsent : (x.chunk k.chunk).sent = true) :
    execReplayRequestReceive l k0 a true s0 =
      .next ((s.send l.port (.replayMark k a)).sendList l.port ((x.chunk k.chunk).flits.map (fun d => TxMsg.contribution k d))) := by
  rw [execReplayRequestReceive, State.received_done htake, ← leafReplay_sent hrun hnotice hsent, ← hkey]
  simp only [hup, hlink, hleaf, State.staleMsg, hopen, Bool.not_true, Bool.or_self, Bool.false_eq_true, if_false]

/-! ## The result (R264, R272, R509) -/

/-- R264: the bytes of a result flit of a chunk that has not committed. -/
theorem leafResult_uncommitted (hrun : s.lrun k = some x) (hopen : (x.chunk k.chunk).committed = false) (d : CollData) :
    s.leafResult k d = s.modLchunk k.slot k.handle k.chunk (fun c => { c with result := c.result.put d }) := by
  simp only [State.leafResult, hrun, hopen, Bool.false_eq_true, if_false]

theorem execResultFlitReceive_leaf {d : CollData} (htake : s0.takeFlit l (s0.classOf (.result k0 d)) = (s, true)) (hup : s0.params.isUp l.port = true)
    (hleaf : s.isHub = false) (hopen : s.openCtx k0.slot k0.gen = true) (hkey : s.formKey k0 = k) (hrun : s.lrun k = some x)
    (huncommitted : (x.chunk k.chunk).committed = false) :
    execResultFlitReceive l k0 d s0 = .next (s.modLchunk k.slot k.handle k.chunk (fun c => { c with result := c.result.put d })) := by
  rw [execResultFlitReceive, State.receivedIf_done htake hup, ← leafResult_uncommitted hrun huncommitted, ← hkey]
  simp only [State.staleMsg, hopen, hleaf, Bool.not_true, Bool.not_false, Bool.false_eq_true, if_true, if_false]

/-- R272: a commit message of a sent chunk with every result byte. -/
theorem leafCommit_complete {m : CommitMsg} (hrun : s.lrun m.key = some x) (huncommitted : (x.chunk m.key.chunk).committed = false)
    (hcode : m.code = .ok) (hbytes : (x.chunk m.key.chunk).result.bytes.length = m.resultBytes) (hsent : (x.chunk m.key.chunk).sent = true) :
    s.leafCommit m = (((s.setLcoll m.key.slot m.key.handle (some { x with
        committed := x.committed + 1
        chunks := x.chunks.set {} m.key.chunk { x.chunk m.key.chunk with
          stream := none, committed := true, sent := true, stuck := false, result := {} } })).sendStuck m.key.slot m.key.handle).modLchunk
        m.key.slot m.key.handle m.key.chunk (fun c => { c with writing := true, cflags := m.flags })).fabricWrite
      (dDest x.desc + dPer x.desc * m.key.chunk * outWidth x.desc) (x.chunk m.key.chunk).result.bytes (bit m.flags 6) (dQos x.desc) := by
  simp only [State.leafCommit, hrun, huncommitted, hcode, hbytes, hsent, modLcoll_some (lrun_some hrun).1, Bool.false_eq_true, ne_eq,
    not_true_eq_false, if_true, if_false]

theorem execCommitMessageReceive_leaf {e : Nat} {m : CommitMsg} (htake : s0.takeFlit l 1 = (s, true)) (hup : s0.params.isUp l.port = true)
    (hleaf : s.isHub = false) (hepoch : newerEpoch s.pair.seenEpoch e = false) (hopen : s.openCtx m.key.slot m.key.gen = true)
    (hkey : s.formKey m.key = k) : execCommitMessageReceive l e m s0 = .next (s.leafCommit { m with key := k }) := by
  rw [execCommitMessageReceive, State.receivedIf_done htake hup, ← hkey]
  simp only [hepoch, State.staleMsg, hopen, hleaf, Bool.false_and, Bool.not_true, Bool.false_eq_true, if_false]

/-- R509, R194: the fabric's answer to the write of a local result ends its chunk. -/
theorem leafWritten_local (hrun : s.lrun k = some x) (hwriting : (x.chunk k.chunk).writing = true) (hlocal : dSpan x.desc = 0) :
    s.leafWritten k false = (s.modLchunk k.slot k.handle k.chunk (fun c => { c with writing := false })).chunkDone k
      (if bit (x.chunk k.chunk).cflags 6 then St.poison else St.ok) (x.chunk k.chunk).cflags := by
  simp only [State.leafWritten, hrun, hwriting, hlocal, Bool.not_true, Bool.false_eq_true, if_true, if_false]

end Sys2Proof.Machine
end

section
/-! The statement about the chunks of a Leaf. -/

namespace Sys2Proof.Machine

/-- Settles O19, clause by clause: the arms of a Leaf lead to the lemmas about its chunks. -/
theorem contributionsAndResultsAtALeaf : Obligations.ContributionsAndResultsAtALeaf := by
  unfold Obligations.ContributionsAndResultsAtALeaf
  refine ⟨?source, ?drain, ?send, fun _ _ _ _ _ _ _ => execResultFlitReceive_leaf, ?commit, ?written,
    fun _ _ _ _ _ _ _ htake hleaf hup hlink => execReplayRequestReceive_leaf htake hleaf hup hlink⟩
  case source =>
    intro s k x b hleaf hrun hw howed hgo hsent hdone hstuck hwriting hstream hpanes hsome horder hmore
    rw [← leafRead_inOrder hrun hw howed hgo ⟨hsent, hdone, hstuck, hwriting, hstream, hpanes⟩ hsome horder hmore]
    exact if_neg (by simp [hleaf])
  case drain =>
    intro s k x t r ps out fl hleaf hrun htiles hlocal hagree hjoin hresult
    rw [← leafDrain_local hrun htiles hlocal hagree hjoin hresult]
    exact if_neg (by simp [hleaf])
  case send =>
    intro s c h n x hleaf hcoll hnext hopen hports
    rw [← leafChunkSend_next hcoll hnext hopen hports]
    exact if_neg (by simp [hleaf])
  case commit =>
    intro s0 s l e m k x htake hup hleaf hepoch hopen hkey hrun huncommitted hcode hbytes hsent
    exact (execCommitMessageReceive_leaf htake hup hleaf hepoch hopen hkey).trans
      (congrArg _ (leafCommit_complete (m := { m with key := k }) hrun huncommitted hcode hbytes hsent))
  case written =>
    intro s k x hleaf hrun hwriting hlocal
    rw [← leafWritten_local hrun hwriting hlocal]
    exact if_neg (by simp [hleaf])

end Sys2Proof.Machine
end
